-- ==== Sys2Proof/Word.lean ====
section
/-! DEFINITION. The word types of the KX4 node and the operand types that instruction fields name (00_scope R7, R8;
01_bundles R20 to R32; 02_registers R49, R60). -/

namespace Sys2Proof

abbrev Byte := BitVec 8
/-- A 64-bit scalar register or doubleword. -/
abbrev DWord := BitVec 64
/-- A 48-bit virtual address, or a bundle address (R87, R232). -/
abbrev VAddr := BitVec 48
/-- A vector register of 8,192 bytes, byte 0 in the lowest bits (R60). -/
abbrev VReg := BitVec 65536
/-- One level of the mask stack (R163). -/
abbrev Mask := BitVec 2048
/-- A transposer block of 128 by 128 elements of 32 bits, row-major (R204). -/
abbrev TBlock := BitVec 524288

/-- The integer types of R21 that ALU, CMPI and VIA read. -/
inductive ITy where
  | i32 | z32 | i64 | z64
  deriving DecidableEq, Repr

/-- The eight type codes of R21, in code order. -/
inductive Ty where
  | i32 | z32 | i64 | z64 | f32 | bf | e4 | e5
  deriving DecidableEq, Repr

/-- The two float types of the vector unit (R169). -/
inductive FTy where
  | f32 | bf
  deriving DecidableEq, Repr

/-- The types of a scalar compare (R79). -/
inductive CTy where
  | i32 | z32 | i64 | z64 | f32
  deriving DecidableEq, Repr

/-- The types of a vector compare or select (R172). -/
inductive VTy where
  | i32 | z32 | f32 | bf
  deriving DecidableEq, Repr

/-- The lane widths of VPRM, named by the types .i32, .bf and .e4 (R177). -/
inductive PTy where
  | w32 | w16 | w8
  deriving DecidableEq, Repr

/-- The operand types of AMO, RED, AMX and REDX (R253, R256). -/
inductive ATy where
  | i32 | z32 | i64 | z64 | f32
  deriving DecidableEq, Repr

/-- Element widths of VGS (R29). -/
inductive EW where
  | w4 | w2 | w1
  deriving DecidableEq, Repr

/-- A scalar source (R51): S0-S63 by name, or a queue entry. -/
inductive SSrc where
  | reg (n : Nat) | q (n : Nat)
  deriving DecidableEq, Repr

/-- A scalar destination (R52): S0-S63 by name, or the queue alone. -/
inductive SDst where
  | reg (n : Nat) | queue
  deriving DecidableEq, Repr

/-- A vector source (R51). -/
inductive VSrc where
  | reg (n : Nat) | q (n : Nat)
  deriving DecidableEq, Repr

/-- A vector destination (R52). -/
inductive VDst where
  | reg (n : Nat) | queue
  deriving DecidableEq, Repr

/-- The combine of CMP and CMPI (R21). -/
inductive Combine where
  | set | and | or
  deriving DecidableEq, Repr

/-- The A operand of MMAC and MMUL: a scalar pair S(2p), S(2p+1), or the vectors from V(2p) (R30). -/
inductive AOperand where
  | pair (p : Nat) | vec (p : Nat)
  deriving DecidableEq, Repr

/-- The tile of a matrix instruction: named, or taken from MRING (R30, R102). -/
inductive TileSel where
  | tile (n : Nat) | ring
  deriving DecidableEq, Repr

/-- The source formats of MLOADC (R30). -/
inductive LFmt where
  | lc | f32 | bf
  deriving DecidableEq, Repr

/-- The condition of WAITA (R32). -/
inductive WCond where
  | eq | ne | ge
  deriving DecidableEq, Repr

/-- The kinds of EXMD (R31). -/
inductive XKind where
  | exch | exsb | excc (op : Nat)
  deriving DecidableEq, Repr

/-- The direction of TRAV (R31). -/
inductive Dir where
  | fwd | bwd
  deriving DecidableEq, Repr

/-- The atomic operations in code order (R254). -/
inductive AmoOp where
  | add | smin | smax | zmin | zmax | and | or | xor | swap | cas | fadd | fmin | fmax
  deriving DecidableEq, Repr

end Sys2Proof
end

