-- ==== Sys2Proof/Config.lean ====
section
/-! DEFINITION. What the spec leaves open: the free choices and free values, each an uninterpreted constant applied to a counter that
State holds, and the numbers that an installation fixes. No proof can see what a free value is. -/

namespace Sys2Proof.Config

/-- Which of the acts that are enabled together comes first (log 4): engines, drains, links and arrivals keep no order with the
sequencer but what the rules give. -/
opaque pick : Nat → Nat

/-- Whether a bank that an earlier access of the sequencer is still using refuses a later one in a clock (R209, R210, log 82). -/
opaque bankRefuses : Nat → Bool

/-- Which entry a full TLB level gives up for a new one (R246, log 6): of how many it holds, by the clock and the new entry's page. -/
opaque tlbVictim : Nat → Nat → Nat

/-- How the page caches, and with which priority, of an access that a peer sends by physical address or under its own policy register
(R240, R243, log 84): the packet has no field for it. -/
opaque issuerAttr : Nat → Nat

/-- The ECC syndrome or tag bits that R397 puts into EINFO's DETAIL (log 5). -/
opaque freeSyndrome : Nat → BitVec 16

/-- CLK and, on a failure, SUB of the result of SELFT (R404, log 5). -/
opaque freeSelftClocks : Nat → BitVec 32
opaque freeSelftSub : Nat → BitVec 16

/-- The random 14-bit value of the router (R329, log 5). -/
opaque freeRouterRandom : Nat → BitVec 14

/-- What TELEM reads after a refresh: power, temperatures and optical energy (R423, log 5). -/
opaque freeTelemetry : Nat → BitVec 64

/-- The bytes of an LMS signature of a message: its one-time signature and its path (R417, R420, log 5). -/
opaque freeQuoteByte : List (BitVec 8) → Nat → BitVec 8

/-- Whether the signature of a firmware image passes, and its rollback version, which lies where the spec does not say (R418, log 63). -/
opaque imageGenuine : List (BitVec 8) → Bool
opaque imageVersion : List (BitVec 8) → BitVec 32

/-- The least rollback version that the fuses allow (R418, log 63). -/
opaque fusedMinimum : BitVec 32

end Sys2Proof.Config
end

