-- ==== Sys2Proof/Syntax.lean ====
section
/-! DEFINITION. The instructions: one constructor for every row of spec/opcode_table.json. The encoded rows hold their operands as
decoding resolves them (queue entries, high registers, extended immediates); they stand in the table's order, those without operands
after the others. The rows that the table gives no encoding are the machine's steps and the acts of its surroundings; the data that
such a step acts on stand in State.ev (Machine/Types.lean, EventArgs). -/

namespace Sys2Proof

inductive Instr where
  -- scalar integer (02_registers R71 to R78)
  | add (d : SDst) (x y : SSrc) (t : ITy)
  | sub (d : SDst) (x y : SSrc) (t : ITy)
  | mul (d : SDst) (x y : SSrc) (t : ITy)
  | mulh (d : SDst) (x y : SSrc) (t : ITy)
  | and (d : SDst) (x y : SSrc) (t : ITy)
  | or (d : SDst) (x y : SSrc) (t : ITy)
  | xor (d : SDst) (x y : SSrc) (t : ITy)
  | andn (d : SDst) (x y : SSrc) (t : ITy)
  | shl (d : SDst) (x y : SSrc) (t : ITy)
  | shr (d : SDst) (x y : SSrc) (t : ITy)
  | sar (d : SDst) (x y : SSrc) (t : ITy)
  | rot (d : SDst) (x y : SSrc) (t : ITy)
  | min (d : SDst) (x y : SSrc) (t : ITy)
  | max (d : SDst) (x y : SSrc) (t : ITy)
  | div (d : SDst) (x y : SSrc) (t : ITy)
  | rem (d : SDst) (x y : SSrc) (t : ITy)
  | clz (d : SDst) (x : SSrc) (t : ITy)
  | popc (d : SDst) (x : SSrc) (t : ITy)
  | brev (d : SDst) (x : SSrc) (t : ITy)
  | addi (d : SDst) (x : SSrc) (imm : Int)
  | andi (d : SDst) (x : SSrc) (imm : Int)
  | ori (d : SDst) (x : SSrc) (imm : Int)
  | xori (d : SDst) (x : SSrc) (imm : Int)
  | shli (d : SDst) (x : SSrc) (n : Nat)
  | shri (d : SDst) (x : SSrc) (n : Nat)
  | sari (d : SDst) (x : SSrc) (n : Nat)
  | roti (d : SDst) (x : SSrc) (n : Nat)
  | movi (d : SDst) (imm : Int)
  | movk (d : Nat) (pos : Nat) (imm : Nat)
  | bext (d : SDst) (x : SSrc) (p w : Nat)
  | bexs (d : SDst) (x : SSrc) (p w : Nat)
  | bins (d : Nat) (x : SSrc) (p w : Nat)
  | lea (d : SDst) (x y : SSrc) (scale : Nat) (imm : Int)
  -- predicates (R79 to R82)
  | cmpEq (c : Combine) (p : Nat) (x y : SSrc) (t : CTy)
  | cmpNe (c : Combine) (p : Nat) (x y : SSrc) (t : CTy)
  | cmpLt (c : Combine) (p : Nat) (x y : SSrc) (t : CTy)
  | cmpLe (c : Combine) (p : Nat) (x y : SSrc) (t : CTy)
  | cmpGt (c : Combine) (p : Nat) (x y : SSrc) (t : CTy)
  | cmpGe (c : Combine) (p : Nat) (x y : SSrc) (t : CTy)
  | cmpUn (c : Combine) (p : Nat) (x y : SSrc)
  | cmpOrd (c : Combine) (p : Nat) (x y : SSrc)
  | cmpiEq (c : Combine) (p : Nat) (x : SSrc) (imm : Int) (t : ITy)
  | cmpiNe (c : Combine) (p : Nat) (x : SSrc) (imm : Int) (t : ITy)
  | cmpiLt (c : Combine) (p : Nat) (x : SSrc) (imm : Int) (t : ITy)
  | cmpiLe (c : Combine) (p : Nat) (x : SSrc) (imm : Int) (t : ITy)
  | cmpiGt (c : Combine) (p : Nat) (x : SSrc) (imm : Int) (t : ITy)
  | cmpiGe (c : Combine) (p : Nat) (x : SSrc) (imm : Int) (t : ITy)
  | pand (d x y : Nat)
  | por (d x y : Nat)
  | pxor (d x y : Nat)
  | pandn (d x y : Nat)
  | pnot (d x : Nat)
  | pmov (d x : Nat)
  | pset (d : Nat)
  | pclr (d : Nat)
  | sel (d : SDst) (p : Nat) (neg : Bool) (x y : SSrc)
  -- scalar floating point (R83 to R85)
  | sfadd (d : SDst) (x y : SSrc)
  | sfsub (d : SDst) (x y : SSrc)
  | sfmul (d : SDst) (x y : SSrc)
  | sfma (d : Nat) (x y : SSrc)
  | sfmin (d : SDst) (x y : SSrc)
  | sfmax (d : SDst) (x y : SSrc)
  | sfcvt (d : SDst) (x : SSrc) (src : Nat) (dst : Ty)
  | sfabs (d : SDst) (x : SSrc)
  | sfneg (d : SDst) (x : SSrc)
  -- state registers and loop levels (R86, R99)
  | getk (d : SDst) (k : Nat)
  | setk (k : Nat) (x : SSrc)
  | lidx (d : SDst) (n : Nat)
  | lcnt (d : SDst) (n : Nat)
  -- branches, loops, traps (03_sequencer)
  | bra (p : Nat) (neg : Bool) (off : Int)
  | call (off : Int)
  | bri (x : SSrc)
  | calli (d : SDst) (x : SSrc)
  | ret (x : SSrc)
  | loop (x : SSrc) (off : Nat)
  | loopi (n : Nat) (off : Nat)
  | brmNone (off : Int)
  | brmAll (off : Int)
  | brmAny (off : Int)
  | trap (imm : Nat)
  | delay (n : Nat)
  | brk (imm : Nat)
  -- memory (09_memory)
  | ld (d : SDst) (x : SSrc) (off : Int) (p : Nat) (t : Ty)
  | st (d : SSrc) (x : SSrc) (off : Int) (p : Nat) (t : Ty)
  | amoAdd (d : SDst) (x y : SSrc) (p : Nat) (w64 : Bool)
  | amoSmin (d : SDst) (x y : SSrc) (p : Nat) (w64 : Bool)
  | amoSmax (d : SDst) (x y : SSrc) (p : Nat) (w64 : Bool)
  | amoZmin (d : SDst) (x y : SSrc) (p : Nat) (w64 : Bool)
  | amoZmax (d : SDst) (x y : SSrc) (p : Nat) (w64 : Bool)
  | amoAnd (d : SDst) (x y : SSrc) (p : Nat) (w64 : Bool)
  | amoOr (d : SDst) (x y : SSrc) (p : Nat) (w64 : Bool)
  | amoXor (d : SDst) (x y : SSrc) (p : Nat) (w64 : Bool)
  | amoSwap (d : SDst) (x y : SSrc) (p : Nat) (w64 : Bool)
  | amoCas (d : SDst) (x : SSrc) (y : Nat) (p : Nat) (w64 : Bool)
  | amoFadd (d : SDst) (x y : SSrc) (p : Nat)
  | amoFmin (d : SDst) (x y : SSrc) (p : Nat)
  | amoFmax (d : SDst) (x y : SSrc) (p : Nat)
  | redAdd (x y : SSrc) (p : Nat) (w64 : Bool)
  | redSmin (x y : SSrc) (p : Nat) (w64 : Bool)
  | redSmax (x y : SSrc) (p : Nat) (w64 : Bool)
  | redZmin (x y : SSrc) (p : Nat) (w64 : Bool)
  | redZmax (x y : SSrc) (p : Nat) (w64 : Bool)
  | redAnd (x y : SSrc) (p : Nat) (w64 : Bool)
  | redOr (x y : SSrc) (p : Nat) (w64 : Bool)
  | redXor (x y : SSrc) (p : Nat) (w64 : Bool)
  | redSwap (x y : SSrc) (p : Nat) (w64 : Bool)
  | redCas (x : SSrc) (y : Nat) (p : Nat) (w64 : Bool)
  | redFadd (x y : SSrc) (p : Nat)
  | redFmin (x y : SSrc) (p : Nat)
  | redFmax (x y : SSrc) (p : Nat)
  | ldx (d : SDst) (x y : SSrc) (p : Nat) (t : Ty)
  | stx (d : SSrc) (x y : SSrc) (p : Nat) (t : Ty)
  | amx (op : AmoOp) (d : SDst) (x : Nat) (y : SSrc) (p : Nat) (t : ATy)
  | redx (op : AmoOp) (x : Nat) (y : SSrc) (p : Nat) (t : ATy)
  | fence (mask : Nat) (scope : Nat)
  | pref (x y : SSrc) (p : Nat)
  | pin (x y : SSrc) (p : Nat)
  | unpin (x y : SSrc) (p : Nat)
  | flush (x y : SSrc) (p : Nat)
  | inval (x y : SSrc) (p : Nat)
  -- vector arithmetic (06_vector R169 to R171)
  | vadd (d : VDst) (x y : VSrc) (t : FTy)
  | vsub (d : VDst) (x y : VSrc) (t : FTy)
  | vmul (d : VDst) (x y : VSrc) (t : FTy)
  | vfma (d : Nat) (x y : VSrc) (t : FTy)
  | vfms (d : Nat) (x y : VSrc) (t : FTy)
  | vmin (d : VDst) (x y : VSrc) (t : FTy)
  | vmax (d : VDst) (x y : VSrc) (t : FTy)
  | vabs (d : VDst) (x : VSrc) (t : FTy)
  | vneg (d : VDst) (x : VSrc) (t : FTy)
  | vcpys (d : VDst) (x y : VSrc) (t : FTy)
  | vrcp (d : VDst) (x : VSrc) (t : FTy)
  | vrsq (d : VDst) (x : VSrc) (t : FTy)
  | vsqrt (d : VDst) (x : VSrc) (t : FTy)
  | vexp2 (d : VDst) (x : VSrc) (t : FTy)
  | vlog2 (d : VDst) (x : VSrc) (t : FTy)
  | vflr (d : VDst) (x : VSrc) (t : FTy)
  | vrnd (d : VDst) (x : VSrc) (t : FTy)
  | vdiv (d : VDst) (x y : VSrc) (t : FTy)
  | viadd (d : VDst) (x y : VSrc) (sg : Bool)
  | visub (d : VDst) (x y : VSrc) (sg : Bool)
  | vimul (d : VDst) (x y : VSrc) (sg : Bool)
  | vand (d : VDst) (x y : VSrc) (sg : Bool)
  | vor (d : VDst) (x y : VSrc) (sg : Bool)
  | vxor (d : VDst) (x y : VSrc) (sg : Bool)
  | vshl (d : VDst) (x y : VSrc) (sg : Bool)
  | vshr (d : VDst) (x y : VSrc) (sg : Bool)
  | vimin (d : VDst) (x y : VSrc) (sg : Bool)
  | vimax (d : VDst) (x y : VSrc) (sg : Bool)
  | viabs (d : VDst) (x : VSrc)
  -- vector compare, select, convert, reduce, permute, mask (R168, R172 to R177)
  | vcmpeq (x y : VSrc) (t : VTy)
  | vcmpne (x y : VSrc) (t : VTy)
  | vcmplt (x y : VSrc) (t : VTy)
  | vcmple (x y : VSrc) (t : VTy)
  | vcmpgt (x y : VSrc) (t : VTy)
  | vcmpge (x y : VSrc) (t : VTy)
  | vcmpun (x y : VSrc) (t : FTy)
  | vsel (d : VDst) (x y : VSrc) (t : VTy)
  | vcvt (d : VDst) (x : VSrc) (src dst : Nat) (part : Nat) (mode : Option Nat)
  | vxsum (d : VDst) (x : VSrc) (t : FTy)
  | vscan (d : VDst) (x : VSrc) (t : FTy)
  | vrmax (d : VDst) (x : VSrc) (t : FTy)
  | vrmin (d : VDst) (x : VSrc) (t : FTy)
  | vargmax (d : VDst) (x : VSrc) (t : FTy)
  | visum (d : VDst) (x : VSrc) (sg : Bool)
  | vpopm (d : VDst)
  | vbcst (d : VDst) (x : SSrc) (t : PTy)
  | vext (d : SDst) (x : VSrc) (y : SSrc) (t : PTy)
  | vins (d : Nat) (x y : SSrc) (t : PTy)
  | vrot (d : VDst) (x : VSrc) (y : SSrc) (t : PTy)
  | vperm (d : VDst) (x y : VSrc) (t : PTy)
  | viota (d : VDst) (t : PTy)
  | mpush (x : VSrc)
  | mget (d : VDst)
  | mset (x : VSrc)
  -- vector memory (R178 to R182)
  | vld (v : VDst) (x : SSrc) (off : Int)
  | vldn (v : VDst) (x : SSrc) (off : Int)
  | vst (v : VSrc) (x : SSrc) (off : Int)
  | vstn (v : VSrc) (x : SSrc) (off : Int)
  | vgath (v : VDst) (x : SSrc) (y : VSrc) (res : Bool) (w : EW)
  | vscat (v : VSrc) (x : SSrc) (y : VSrc) (res : Bool) (w : EW)
  | vlds (v : VDst) (x y : SSrc) (w : EW)
  -- matrix and transposer (07_matrix)
  | mmac (c : TileSel) (a : AOperand) (b : Nat) (k : SSrc) (res : Bool)
  | mmul (c : TileSel) (a : AOperand) (b : Nat) (k : SSrc) (res : Bool)
  | mzero (c : TileSel)
  | mloadc (c : TileSel) (f : LFmt) (x : SSrc)
  | mdrain (c : TileSel) (x : SSrc)
  | mstat (d : SDst) (clr : Bool) (c : Nat)
  | manch (k : SSrc) (a b : Nat)
  | txpi (v : VSrc) (b : Bool) (g : Nat)
  | txpo (v : VDst) (b : Bool) (g : Nat)
  | txpc (b : Bool)
  | setf (x : SSrc)
  | getf (d : SDst)
  -- exchange and fabric (11_exchange, 12_fabric)
  | exch (dim : Nat) (x y : SSrc) (sighi : Nat)
  | exsb (dim : Nat) (x y : SSrc) (sighi : Nat)
  | trav (set x y : SSrc) (dir : Dir) (sighi : Nat)
  | exccFsum (dim : Nat) (x y : SSrc) (sighi : Nat)
  | exccIsum (dim : Nat) (x y : SSrc) (sighi : Nat)
  | exccLsum (dim : Nat) (x y : SSrc) (sighi : Nat)
  | exccFmax (dim : Nat) (x y : SSrc) (sighi : Nat)
  | exccFmin (dim : Nat) (x y : SSrc) (sighi : Nat)
  | exccImax (dim : Nat) (x y : SSrc) (sighi : Nat)
  | exccImin (dim : Nat) (x y : SSrc) (sighi : Nat)
  | exccBand (dim : Nat) (x y : SSrc) (sighi : Nat)
  | exccBor (dim : Nat) (x y : SSrc) (sighi : Nat)
  | exmd (set x y : SSrc) (kind : XKind) (res : Bool) (sighi : Nat)
  | mcast (set x y : SSrc) (p : Nat)
  | mcasto (set x y : SSrc) (p : Nat)
  | probe (x y : SSrc)
  | lstat (d : SDst) (x : SSrc)
  -- copies, synchronisation, grammar, sampling (08_scratchpad, 13_grammar)
  | cpyl (x : SSrc) (res : Bool)
  | cpy2 (x : SSrc) (res : Bool)
  | cpyw (x : SSrc) (res : Bool)
  | cpyx (x y : SSrc) (res : Bool)
  | waita (c : WCond) (x y : SSrc)
  | sigw (set x y : SSrc) (p : Nat)
  | bacq (x : SSrc)
  | brel (x : SSrc)
  | waite (x : SSrc)
  | gbind (x y : SSrc)
  | gmask (p : Nat) (x : SSrc)
  | gstep (d : SDst) (x : SSrc)
  | gstat (d : SDst)
  | sample (d : SDst) (x : Nat) (p : Nat)
  | rand (d : VDst) (x : SSrc)
  | rands (d : SDst) (x : SSrc)
  -- regions, groups, launch, supervisor (04_regions, 14_launch, 15_errors)
  | rgn (x y : SSrc)
  | rstat (d : SDst)
  | bar (x : SSrc)
  | gsig (x : SSrc)
  | gwait (x : SSrc)
  | launch (d : SDst) (x : SSrc)
  | exit (x : SSrc)
  | shoot (n x y : SSrc)
  | selft (d : SDst) (x : SSrc)
  | tlbp (d : SDst) (x y : SSrc)
  | tlbi (x y : SSrc)
  | qrst (x : SSrc)
  | ctxs (x y : SSrc)
  -- encoded, without operands (R14, R104, R164, R193, R115 to R121, R388, R399)
  | nop
  | leave
  | minv
  | mpop
  | mall
  | mwait
  | cmt
  | rend
  | rabt
  | yield
  | rft
  -- the machine's steps and the acts of its surroundings (95_what_each_step_holds)
  | resultLanding
  | resultArrival
  | branchRedirectDue
  | outsideRegionLimit
  | regionCommit
  | chunkCommit
  | bufferEntryDrain
  | mmacExecute
  | manchExecute
  | mzeroExecute
  | mloadcExecute
  | mdrainExecute
  | scatterComplete
  | copyAdmission
  | copyComplete
  | engineError
  | vaultAcquisitionGrant
  | vaultReleaseComplete
  | scrubComplete
  | exchangePostArrival
  | exchangeDataArrival
  | exchangeAckArrival
  | linkPacketArrival
  | linkDown
  | linkRepair
  | route
  | flowPacketArrival
  | sequenceAckSend
  | sequenceAckArrival
  | retransmitTimeout
  | flowRetire
  | remoteResponseArrival
  | suspectTimeout
  | pilotTokenArrival
  | ejectionReportArrival
  | tokenLossTimeout
  | waitProbeArrival
  | probeTimeout
  | shootDownArrival
  | shootDownAcknowledge
  | shootDownAckArrival
  | gmaskExecute
  | sampleExecute
  | slotWrite
  | queueStart
  | graceExpiry
  | presenceNoticeArrival
  | serviceHoldTimeout
  | watchdogExpiry
  | barrierArrival
  | barrierStepArrival
  | fenceNoticeArrival
  | releaseNoticeArrival
  | quarantineNoticeArrival
  | uncorrectableError
  | correctableError
  | selftComplete
  | hostInterrupt
  | hostMemoryWrite
  | hostMemoryRead
  | nodeReset
  | traceOn
  | dataMode
  | breakpointHaltsEnabled
  | releaseHalt
  | trrdWrite
  | elrdWrite
  | fencerel
  | migrq
  | featack
  | hintClear
  | hintenWrite
  | msixUnmask
  | pstateWrite
  | powerStateChange
  | flashBlockWrite
  | flashWriteDone
  | flashSlotSelect
  | attestationRequest
  | attestationComplete
  | hostRegisterWrite
  | powerOn
  | throttle
  | thermalTrip
  | illegalEncoding
  | translationWalkComplete
  | telemetryRefresh
  | powerLoss
  deriving DecidableEq, Repr

end Sys2Proof
end

