-- ==== Sys2Proof/Machine/Types.lean ====
section
/-! DEFINITION. The data that events carry and that State holds: causes (15_errors R396), packets (11_exchange R296, 12_fabric
R326), launch records (14_launch R376), what a trap records (R397), where an error lies (R402), host registers (16_host R412). -/

namespace Sys2Proof.Machine

/-- The causes of R396, by name. -/
inductive Cause where
  | bootStart
  | pageNotPresent | malformedEntry | writeProtection | executeProtection | remoteTranslation
  | softError | poison | signatureMismatch | duplicateScale | integrityTag | stateLoss
  | illegalEncoding | privilege | bundle | misalignedTarget | shadow | loopStack | ring | trapContext
  | regionContext | descriptor | antidependence | budget | vaultDiscipline | resumableRegion | maskStack
  | scratchpadAddress | nearVault | format | operandFormat | matrixDescriptor | vaultOwnership
  | address | memoryAlignment | memoryRange | dimension | exchangeDescriptor | exchangeMismatch
  | exchangeReplay | partnerLost | fabricOperand | grammarImage | grammarContext | grammarOperand
  | grammarBinding | launch | group | copyDescriptor | engineMask | illegalReturn
  | preemption | resumeRequest | softwareTrap | watchdogExpiry | noProgress | shootDownNotice | waitCycle
  | hostInterrupt | deliberateAbort | engineError | jobFenced
  deriving DecidableEq, Repr

/-- How a cause acts (R394, R396). -/
inductive CauseKind where
  | reenterable | detected | stateLoss | fatal | event
  deriving DecidableEq, Repr

/-- What an instruction or a check reports when it raises a cause (R397): the address, the implicated unit and the detail.
`slotless` marks a cause that implicates no slot; `dims` is the set of logical dimensions that the error record of the fault names (R301). -/
structure Trap where
  cause   : Cause
  eva     : VAddr := 0
  uclass  : Nat := 15
  unit    : Nat := 0
  detail  : BitVec 16 := 0
  slotless : Bool := false
  dims    : BitVec 14 := 0
  deriving DecidableEq, Repr

/-- A packet as it crosses a link: payload bytes in stream order and the 64-byte trailer, doubleword 0 lowest (R296, R326). -/
structure Packet where
  payload : List Byte
  trailer : BitVec 512
  /-- what the routers of a detour know of a packet on it (R299; no field of R296, log 23): the dimension `d` that it stands for, the detour
  dimension `e`, and how many of the crossings of d and e are still to come -/
  path    : Option (Nat × Nat × Nat) := none
  deriving DecidableEq, Repr

/-- A launch record of eight doublewords, doubleword 0 lowest (R376). -/
abbrev Record := BitVec 512

/-- Where ECC finds an uncorrectable error (R402). -/
inductive ErrWhere where
  | scalar (n : Nat) | vector (n : Nat) | inflight | resultQueue | buffer
  | tile (n : Nat) (committed : Bool) | snapshot | vault (v : Nat) (addr : Nat)
  /-- one word: doubleword `i` of a vector register or a transposer block, one cell of a tile, one item of the snapshot -/
  | vectorWord (n i : Nat) | tileCell (n i : Nat) (committed : Bool) | blockWord (b : Bool) (i : Nat) | snapshotItem (i : Nat)
  | pred (n : Nat) | fmt | rngctr | status | kreg (n : Nat) | policy (n : Nat) | ring | key | maskLevel (n : Nat) | loopLevel (n : Nat)
  | line (pa : Nat) | cached (pa : Nat) | engine (id : Nat) | supervisorState
  deriving DecidableEq, Repr

/-- What stops an admitted engine command (R220). -/
inductive EngineFail where
  | poison | softError | refused
  deriving DecidableEq, Repr

/-- The requesters of translations (R246). -/
inductive Requester where
  | fetch | ls | copy | grammar | remote
  deriving DecidableEq, Repr

/-- The access a translation is checked for (R250). -/
inductive Access where
  | read | write | exec
  deriving DecidableEq, Repr

/-- Control-window and package registers whose write has no behaviour of its own (R412, R424). -/
inductive HostReg where
  | trbase | trlen | elbase | ellen | jtbase | grace | rtcfg | mwbase | qdoneen | pwrcap
  /-- the size of BAR 4, which the Resizable BAR capability sets (R410) -/
  | bar4
  deriving DecidableEq, Repr

/-- A request that a walker serves (R246). -/
structure WalkReq where
  requester : Requester
  job    : BitVec 16
  va     : VAddr
  access : Access
  deriving DecidableEq, Repr

/-- The data that one of the machine's own steps, or an act of its surroundings, acts on; each step reads the fields that its own
meaning names and no other. -/
structure EventArgs where
  /-- a physical dimension, 0 to 13 (links, ports) -/
  dim     : Nat := 0
  /-- an entry, command, acquisition, wait, probe or packet, by its number -/
  id      : Nat := 0
  /-- the job, peer and flow of a routed flow (R331) -/
  job     : BitVec 16 := 0
  peer    : BitVec 14 := 0
  flow    : Nat := 0
  /-- a launch queue, a vault, a group slot, a bundle slot or an MSI-X vector -/
  num     : Nat := 0
  flag    : Bool := false
  packet  : Packet := { payload := [], trailer := 0 }
  value   : DWord := 0
  record  : Record := 0
  bytes   : List Byte := []
  off     : Nat := 0
  count   : Nat := 0
  nonce   : BitVec 256 := 0
  errAt   : ErrWhere := .inflight
  fail    : EngineFail := .refused
  reg     : HostReg := .grace
  walk    : WalkReq := ⟨.fetch, 0, 0, .exec⟩
  straps  : BitVec 14 := 0
  trained : BitVec 14 := 0
  deriving DecidableEq, Repr

/-- The numbers that an event carries are in range (R295, R373, R405). -/
def EventArgs.wf (a : EventArgs) : Bool := decide (a.dim < 14 ∧ a.flow < 32 ∧ a.num < 64)

/-- An act that has not yet been taken: a row of the table that has no encoding, and its data (log 3). -/
structure Event where
  row  : Instr
  args : EventArgs
  deriving DecidableEq, Repr

end Sys2Proof.Machine
end

