-- ==== Sys2Proof/Machine/Units.lean ====
section
/-! DEFINITION. What each unit of the node holds: registers (02_registers), the sequencer (03), results in flight (01 R36 to R40),
the open region and its store buffer (04), the matrix array (07), vaults and engines (08, 13), memory and caches (09), exchange
ports (11), the fabric (12), launch queues and groups (14), errors (15), and the host's windows (16). -/

namespace Sys2Proof.Machine

/-! ## Registers -/

/-- One entry of a result queue (R55 to R58): nothing, a position reserved for a variable-latency result, or a value. -/
inductive QEntry (α : Type) where
  | empty | pending (id : Nat) | full (v : α)
  deriving DecidableEq, Repr

/-- The registers of R49 that hold plain values. Lists are indexed by register number; masks are topmost first (R163). -/
structure Regs where
  /-- S0-S63, the program's copy of S48-S63 -/
  s   : List DWord
  /-- the supervisor's copy of S48-S63 (R64) -/
  sup : List DWord
  p   : BitVec 16
  q   : List (QEntry DWord)
  v   : List VReg
  qv  : List (QEntry VReg)
  y   : List (BitVec 32)
  fmt : BitVec 48
  masks : List Mask
  /-- transposer blocks 0 and 1 (R204) -/
  tp0 : TBlock
  tp1 : TBlock
  deriving DecidableEq, Repr

/-- The state registers of R66 other than Y0-Y7. -/
structure KRegs where
  nodeId  : BitVec 14
  lnode   : BitVec 14
  subbase : BitVec 14
  submask : BitVec 14
  dimmap  : BitVec 56
  detour  : BitVec 56
  linkstat : BitVec 28
  rngKey  : DWord
  rngCtr  : DWord
  retrace : BitVec 8
  rcount  : BitVec 8
  rtag    : BitVec 8
  cause   : BitVec 16
  epc     : VAddr
  eva     : VAddr
  einfo   : DWord
  tvec    : VAddr
  /-- PRIV[0]: true in supervisor mode -/
  priv    : Bool
  jobtag  : BitVec 16
  wdbudget : BitVec 48
  wdleft  : BitVec 48
  status  : BitVec 32
  mring   : BitVec 16
  groups  : DWord
  feat0   : DWord
  feat1   : DWord
  feat2   : DWord
  feat3   : DWord
  featack : DWord
  pinorph : BitVec 32
  /-- group entries 0-255 (R389) -/
  gtable  : List DWord
  deriving DecidableEq, Repr

/-! ## Sequencer -/

/-- One level of the loop stack (R87). -/
structure LoopLevel where
  start : VAddr
  fin   : VAddr
  index : BitVec 32
  count : BitVec 32
  deriving DecidableEq, Repr

/-- A taken branch that is not yet due (R88): `left` more bundles issue before it is, and `seq`, `slot` say which bundle made it. -/
structure Redirect where
  left   : Nat
  seq    : Nat
  slot   : Nat
  target : VAddr
  deriving DecidableEq, Repr

/-- The branch outcome of one bundle (R110): the bundle, the count that its record carries, the slots taken, and its second word. -/
structure BranchRec where
  seq    : Nat
  issued : BitVec 48
  taken  : Nat
  word   : DWord
  deriving DecidableEq, Repr

/-- A region that opens at the end of a bundle (R116). `fresh`: under a new descriptor, from RGN (R137); `counts`: RCOUNT is kept, as
at a re-entry (R131). -/
structure Opening where
  rmask : BitVec 32
  wmask : BitVec 32
  desc  : DWord
  byBoundary : Bool
  fresh : Bool
  /-- the progress index of a resumable region (R132) -/
  prog  : Nat
  deriving DecidableEq, Repr

/-- What the instructions of the current bundle leave for its end (R89, R107). -/
structure BundleEnd where
  pushed : Option LoopLevel
  /-- the end address of a LOOP or LOOPI whose count was 0 -/
  skip   : Option VAddr
  leaves : Nat
  delay  : Nat
  brk    : Bool
  opens  : Option Opening
  /-- the bundle left region mode (R137 REND) -/
  rend   : Bool
  /-- YIELD found another ready queue of equal priority (R384) -/
  yields : Bool
  /-- RFT has returned from the supervisor: what comes next is set (R399) -/
  returns : Bool
  /-- random draws of the bundle so far (R70) -/
  draws  : Nat
  /-- the branch record of R110: whether the bundle makes one, the slots taken, and its second word -/
  record : Bool
  taken  : Nat
  branchWord : DWord
  deriving DecidableEq, Repr

/-- The bundle that is issuing: which slot acts now, what its slots have left for its end, and, once a slot has stopped the bundle,
how. -/
structure Bundle where
  slot   : Nat
  fin    : BundleEnd
  /-- the cause that a slot raised -/
  trapped : Option Trap
  /-- the stall cause (R111) of a slot that cannot issue yet; 0 stands for WAITA, which has no code -/
  stalled : Option Nat
  /-- the stall is that of an instruction that has begun and keeps what it has done (R124, R251) -/
  kept   : Bool
  deriving DecidableEq, Repr

/-- The sequencer (R87) and what it counts. `loops` is innermost first. -/
structure Seq where
  pc        : VAddr
  redirects : List Redirect
  loops     : List LoopLevel
  /-- empty bundles of a DELAY block still to issue -/
  delay     : Nat
  /-- what the bundle that began the DELAY block left for the block's end (R107) -/
  delayEnd  : BundleEnd
  trapReq   : Option (BitVec 26)
  /-- the trap request of a region that has committed: it is taken at this boundary (R106) -/
  dueTrap   : Option (BitVec 26)
  /-- bundles issued since launch or resumption (R110) -/
  issued    : BitVec 48
  /-- bundles issued since reset: the program order of R274 -/
  count     : Nat
  /-- consecutive bundles issued outside region mode (R113) -/
  outside   : Nat
  /-- halted by BRK (R108) -/
  halted    : Bool
  /-- a boundary instruction whose region has committed and which has yet to perform (R124): the region that it will open -/
  perform : Option Opening
  /-- the words of the bundle whose commit is under way or whose boundary instruction performs: it has been fetched (R90) -/
  words     : List (BitVec 32)
  /-- a cause met between the closing of a region and the opening of the next, with its EINFO: it is taken at that boundary (R129, R135) -/
  pend      : Option (Trap × DWord)
  /-- clocks that the WAITA of the bundle has waited (R110) -/
  waited    : Nat
  /-- the stall in progress: its cause and the clocks it has taken (R110, R111) -/
  stall     : Option (Nat × Nat)
  /-- branch outcomes that a DELAY block may still turn into losers (R88): their records are held until that is decided -/
  held      : List BranchRec
  /-- how far a supervisor instruction that acts directly on other nodes has come, by slot (R224, R251) -/
  direct    : List (Nat × Nat)
  bun       : Bundle
  deriving DecidableEq, Repr

/-! ## Results in flight -/

/-- A change of the mask stack (R167, R168, R172). The lanes of a push or a set are those that the operands select; they meet the top
or the parent when the change applies. -/
inductive MaskChange where
  | push (lanes : Mask) | inv | pop | all | set (lanes : Mask)
  deriving DecidableEq, Repr

/-- What a fixed-latency result changes when it lands (R36, R70, R157, R165, R179, R205). `lanes` has a set bit for every bit of the
destination that the result writes. -/
inductive Landing where
  | scalar (d : SDst) (v : DWord)
  | vector (d : VDst) (v lanes : VReg)
  | pred (p : Nat) (v : Bool)
  | mask (c : MaskChange)
  | fmt (v : BitVec 48)
  | kreg (k : Nat) (v : DWord)
  | store (addr : Nat) (v : VReg)
  | tpGroup (b : Bool) (g : Nat) (v : VReg)
  | tpClear (b : Bool)
  /-- the array's sticky bits that MSTAT clears; a bit set meanwhile is struck out (R201) -/
  | sticky (m : BitVec 6)
  deriving DecidableEq, Repr

/-- A result in flight (R36): it lands at the end of the bundle in which `left` is 0. `seq` is the bundle that issued it, `sup` that
it issued in supervisor mode (R64), `flags` the STATUS bits set at its landing (R68). -/
structure InFlight where
  left  : Nat
  slot  : Nat
  seq   : Nat
  sup   : Bool
  flags : BitVec 32
  what  : Landing
  deriving DecidableEq, Repr

/-- Where an access performs (R240, R256, R269). -/
inductive Loc where
  | here (pa : Nat)
  | peer (node : BitVec 14) (pa : Nat)
  | remote (node : BitVec 14) (va : VAddr)
  | spad (addr : Nat)
  deriving DecidableEq, Repr

/-- The priorities of L2 lines in the order of R244. -/
inductive Prio where
  | evictFirst | normal | keep
  deriving DecidableEq, Repr

/-- How a page caches (R239, R243). -/
structure Attr where
  clvl : Nat
  wt   : Bool
  prio : Prio
  rdup : Bool
  deriving DecidableEq, Repr

/-- What a variable-latency instruction is still to do (R37). -/
inductive WaitOp where
  /-- `rtag`: the request sent to another home -/
  | load (va : VAddr) (at_ : Loc) (attr : Attr) (t : Ty) (pol : BitVec 32) (rtag : Option Nat)
  /-- a load in the scratchpad window, which is no access of global memory (R268, R285) -/
  | window (addr : Nat) (t : Ty)
  /-- a supervisor load: it has performed (R251) -/
  | direct (v : DWord)
  | gather (base : Nat) (idx : VReg) (lanes : Mask) (w : EW) (res : Bool)
  | strided (base : Nat) (step : DWord) (lanes : Mask) (w : EW)
  | scatter (base : Nat) (data idx : VReg) (lanes : Mask) (w : EW) (res : Bool)
  | mcastRead
  | gmask | sample
  | selft (unit_ : Nat)
  | tlbp (v : DWord)
  deriving DecidableEq, Repr

/-- The value of a variable-latency result once it has arrived. -/
inductive Arrived where
  | no | scalar (v : DWord) | vector (v : VReg) | nothing
  deriving DecidableEq, Repr

/-- A variable-latency instruction that has issued (R37): its destinations, whose scoreboard bits are set until its value arrives, and
the bundles until it takes its queue position. -/
structure Wait where
  id    : Nat
  slot  : Nat
  seq   : Nat
  sup   : Bool
  /-- issued in the open region -/
  inRgn : Bool
  sd    : Option SDst
  vd    : Option VDst
  lanes : VReg
  pd    : Option Nat
  left  : Nat
  placed : Bool
  arrived : Arrived
  op    : WaitOp
  deriving DecidableEq, Repr

/-- A scratchpad access of the sequencer that may still be moving (R208, R210): its bundle, the banks that it uses, and the clock at which
its nominal transfer is over. -/
structure BankUse where
  seq   : Nat
  banks : List Nat
  upto  : Nat
  deriving DecidableEq, Repr

/-- Results in flight (R36, R37), and the banks that their scratchpad accesses use. -/
structure Pipe where
  inflight : List InFlight
  waits    : List Wait
  banks    : List BankUse
  deriving DecidableEq, Repr

/-! ## The open region and the store buffer -/

/-- A unit of the read-first and write sets (R119). -/
inductive TUnit where
  | s (n : Nat) | v (n : Nat) | p (n : Nat) | l (n : Nat) | y (n : Nat) | mring | rngkey | tp (b : Bool)
  deriving DecidableEq, Repr

/-- The grammar engine's binding (R357). -/
structure Binding where
  bound   : Bool
  image   : VAddr
  policy  : Nat
  context : Nat
  /-- the GSTAT record (R362) -/
  gstat   : DWord
  deriving DecidableEq, Repr

/-- The snapshot of R118, with the port numbers of R305 and the binding of R357. -/
structure Snap where
  entry  : VAddr
  loops  : List LoopLevel
  masks  : List Mask
  rngCtr : DWord
  fmt    : BitVec 48
  xseq   : List (BitVec 12)
  bind   : Binding
  deriving DecidableEq, Repr

/-- A boundary instruction whose region has committed and which is left while it waits: its bundle, the words of it, and the loop stack there
(R124, R129). -/
structure Waiting where
  pc    : VAddr
  words : List (BitVec 32)
  loops : List LoopLevel
  deriving DecidableEq, Repr

/-- A region: its snapshot, what its waymark gave, and what has happened in it (R114 to R119, R122, R132, R134). -/
structure Region where
  snap    : Snap
  rmask   : BitVec 32
  wmask   : BitVec 32
  desc    : DWord
  /-- opened by a boundary instruction, so its entry bundle is no opening bundle (R116) -/
  byBoundary : Bool
  /-- its entry bundle is to issue again as an opening only (R116) -/
  again   : Bool
  /-- RTAG and RCOUNT have been set for it: false while it is held at the boundary at which it would open (R129, R137) -/
  tagged  : Bool
  /-- its closing bundle has been met and its commit is under way: nothing discards it but its own commit (R129, R135) -/
  committing : Bool
  /-- it is to open when this boundary instruction has completed: the region before has committed (R124, R129) -/
  waiting : Option Waiting
  reads   : List TUnit
  writes  : List TUnit
  counted : Nat
  crc     : BitVec 32
  used    : Nat
  prog    : Nat
  /-- the logical dimensions over which data of it has left the node before its commit (R406) -/
  pushed  : BitVec 14
  /-- the resumable operation has issued (R132) -/
  resIssued : Bool
  /-- the region's number, and the bundle that opened it -/
  id      : Nat
  seq     : Nat
  deriving DecidableEq, Repr

/-- The subcube of a job (R289, R376). -/
structure Subcube where
  submask : BitVec 14
  subbase : BitVec 14
  dimmap  : BitVec 56
  deriving DecidableEq, Repr

/-- A cached leaf (R241, R246): the first-level TLBs that hold it, and whether the second level does. -/
structure TlbEntry where
  job   : BitVec 16
  /-- first page number VA[47:16] and the number of pages it maps, 1 or 32 -/
  page  : Nat
  pages : Nat
  entry : DWord
  level : Nat
  first : List Requester
  second : Bool
  deriving DecidableEq, Repr

/-- The translations that the node holds (R246), and the lines of the poison bitmap in the bitmap cache (R248, log 101), first filled first:
line `i` has the bits of the 1,024 blocks from 4 MiB × `i` on. -/
structure Tlb where
  entries : List TlbEntry
  bitmap  : List Nat
  deriving DecidableEq, Repr

inductive CopyKind where
  | linear | rows | walk | lattice
  deriving DecidableEq, Repr

/-- A copy command as read at issue (R217, R219): its eight descriptor doublewords, the map of CPYW, the policy registers named, and
how far it has gone. -/
structure CopyCmd where
  id     : Nat
  slot   : Nat
  seq    : Nat
  /-- the bundle that opened the issuing region (R219) -/
  since  : Nat
  job    : BitVec 16
  kind   : CopyKind
  desc   : List DWord
  map    : List DWord
  spol   : BitVec 32
  dpol   : BitVec 32
  sigpol : BitVec 32
  set    : BitVec 14
  res    : Bool
  prog   : Nat
  rmask  : BitVec 32
  wmask  : BitVec 32
  /-- number of the issuing region, if any -/
  region : Option Nat
  sup    : Bool
  /-- the subcube of the issuing program: what its dimension set and its pages' homes name -/
  cube   : Subcube
  /-- the translations that it took at admission and keeps (R219) -/
  leaves : List TlbEntry
  /-- ranges of the INVALs that have committed after it (R90): address and length -/
  invals : List (Nat × Nat)
  /-- bytes that it has read and not yet written: their destination, and they -/
  data   : List (Nat × List Byte)
  admitted : Bool
  /-- its admission waits only for a vault that the job is acquiring (R219) -/
  waitsVault : Bool
  /-- request tags of its packets that nothing has answered -/
  out    : List Nat
  /-- its payload is done, and its own signal written -/
  sent   : Bool
  deriving DecidableEq, Repr

inductive CacheOp where
  | pin | unpin | flush | inval
  deriving DecidableEq, Repr

/-- What a buffered operation does when it drains (R122). -/
inductive BufOp where
  | store (at_ : Loc) (attr : Attr) (va : VAddr) (width : Nat) (v : DWord)
  | reduce (at_ : Loc) (attr : Attr) (va : VAddr) (op : AmoOp) (w64 : Bool) (v v2 : DWord)
  | mcast (ordered : Bool) (set : BitVec 14) (va : VAddr) (data : List Byte)
  | sigw (node : BitVec 14) (addr : Nat) (v : DWord)
  | fence (mask : BitVec 16) (scope : Nat)
  /-- its lines: where each lies, and how it caches -/
  | cache (op : CacheOp) (va : VAddr) (len : Nat) (lines : List (Loc × Attr))
  | acquire (mask : BitVec 32)
  | release (mask : BitVec 32)
  | copy (c : CopyCmd)
  deriving DecidableEq, Repr

inductive BufState where
  | opened | draining | sent
  deriving DecidableEq, Repr

/-- An entry of the region store buffer (R122): its cost in entries, the subcube of its program, which its scope and its receivers
refer to (R270, R284), its class, scope and synchronisation (R63), its state, and the checks (R336) or requests that no response has
answered. -/
structure BufEntry where
  id    : Nat
  slot  : Nat
  seq   : Nat
  cost  : Nat
  job   : BitVec 16
  cube  : Subcube
  pol   : BitVec 32
  state : BufState
  out   : List Nat
  /-- how many of its packets have been handed over -/
  prog  : Nat
  op    : BufOp
  /-- the supervisor issued it: its class counts for nothing (R286) -/
  sup   : Bool
  deriving DecidableEq, Repr

/-! ## The matrix array -/

inductive CTag where
  | fin | pinf | ninf | nan
  deriving DecidableEq, Repr

/-- A long cell (R146 to R148): a 128-bit integer, a tag and a product count. -/
structure Cell where
  n     : BitVec 128
  tag   : CTag
  count : Nat
  deriving DecidableEq, Repr

/-- A version of a tile (R188): an anchor and the cells that are not zero, finite and of count 0, by row times 128 plus column,
rising. -/
structure Tile where
  anchor : BitVec 10
  cells  : List (Nat × Cell)
  deriving DecidableEq, Repr

/-- An operation of the matrix queue with what it read at issue (R192). -/
inductive MatOp where
  | mac (mul : Bool) (tile : Nat) (a : List DWord) (av : List VReg) (b : List DWord) (k : BitVec 32) (res : Bool)
  | zero (tile : Nat)
  | load (tile : Nat) (f : LFmt) (addr : Nat)
  | drain (tile : Nat) (addr : Nat) (key ctr : DWord)
  | anchor (k : BitVec 32) (a b : List DWord)
  | wait
  deriving DecidableEq, Repr

structure MatEntry where
  id   : Nat
  seq  : Nat
  slot : Nat
  fmt  : BitVec 48
  op   : MatOp
  deriving DecidableEq, Repr

/-- The matrix array (R188 to R192, R201). -/
structure Mat where
  work   : List Tile
  comm   : List Tile
  aanch  : BitVec 10
  queue  : List MatEntry
  /-- the sticky bits of R201 -/
  sticky : BitVec 6
  deriving DecidableEq, Repr

/-! ## Vaults and engines -/

inductive VState where
  | free | owned | releasing | scrubbing
  deriving DecidableEq, Repr

/-- The record of one vault (R211, R405). -/
structure Vault where
  state : VState
  owner : BitVec 16
  /-- the last owner, if there was one (R212) -/
  last  : Option (BitVec 16)
  quarantined : Bool
  /-- the clock at which scrubbing ends -/
  scrubEnd : Nat
  deriving DecidableEq, Repr

/-- A waiting acquisition (R212): one vault of a BACQ, or a whole set of a launch (R377). -/
structure Acq where
  id    : Nat
  job   : BitVec 16
  prio  : Nat
  whole : Bool
  vaults : BitVec 32
  queue : Nat
  deriving DecidableEq, Repr

/-- A command of the grammar engine's queue (R363). -/
inductive GramOp where
  /-- the bitmap's address and its length (R360) -/
  | mask (p bitmap len : Nat)
  | sample (pair0 pair1 : DWord) (p : Nat) (fmt : BitVec 48) (key ctr : DWord)
  deriving DecidableEq, Repr

structure GramCmd where
  id   : Nat
  seq  : Nat
  job  : BitVec 16
  bind : Binding
  /-- the policy register of the binding as it stood at issue (R70) -/
  pol  : BitVec 32
  op   : GramOp
  deriving DecidableEq, Repr

structure Eng where
  copies : List CopyCmd
  gram   : List GramCmd
  bind   : Binding
  deriving DecidableEq, Repr

/-! ## Memory and caches -/

/-- A line of the L2 cache (R242 to R244, R259): its physical line number, or that of a read-duplicate copy. -/
structure L2Line where
  line  : Nat
  dirty : Bool
  prio  : Prio
  pins  : Nat
  deriving DecidableEq, Repr

/-- The release tag of a word (R279): the last write to it was a release by this node with this scope. -/
structure RelTag where
  loc   : Loc
  node  : BitVec 14
  scope : Nat
  deriving DecidableEq, Repr

/-! ## Exchange ports -/

/-- What an exchange does (R312 to R316). -/
inductive XchKind where
  | exch | exsb | trav | excc (op : Nat)
  deriving DecidableEq, Repr

/-- The fields that a post carries and R305 compares (log 22): the kind, operation, EXMD, set and direction, and the length. -/
structure XchMatch where
  code : BitVec 52
  len  : DWord
  deriving DecidableEq, Repr

inductive XchPhase where
  | posted | admitted | done
  deriving DecidableEq, Repr

/-- The record of one exchange on one port (R305, R307, R309). -/
structure XchRec where
  slot   : Nat
  seq    : Nat
  xseq   : BitVec 12
  kind   : XchKind
  fields : XchMatch
  /-- the source and destination descriptors, as moved by EXMD (R318) -/
  x      : DWord
  y      : DWord
  partner : BitVec 14
  /-- the bytes that this node sends, and where those that it receives land -/
  src    : Nat
  sendLen : Nat
  dst    : Nat
  recvLen : Nat
  /-- EXCC: this node's own elements, and whether they are the first operand (R316) -/
  own    : Nat
  first  : Bool
  /-- receiver address named by the partner's post -/
  far    : Nat
  /-- bytes that may be sent (R318 chunks), that have been handed to the link, that the partner has acknowledged, that have landed -/
  limit  : Nat
  sent   : Nat
  acked  : Nat
  landed : Nat
  phase  : XchPhase
  /-- the signal: its group (one for all the ports of an EXMD or TRAV), address and value -/
  group  : Nat
  sigAddr : Nat
  sigVal : DWord
  region : Option Nat
  commits : Bool
  sup    : Bool
  res    : Bool
  /-- a re-entered region has issued it again while it was only posted: it counts as admitted (R309) -/
  again  : Bool
  deriving DecidableEq, Repr

/-- One job's state on one port (R311). -/
structure PortJob where
  job  : BitVec 16
  xseq : BitVec 12
  recs : List XchRec
  posts : List Packet
  deriving DecidableEq, Repr

structure Xch where
  /-- ports 0-13: the jobs with state on each -/
  ports  : List (List PortJob)
  deriving DecidableEq, Repr

/-! ## The fabric -/

/-- A packet that waits for a link (R325): its lane there, and the router buffer, by lane and input, that it holds until it leaves (R324). -/
structure Outbound where
  lane   : Nat
  packet : Packet
  held   : Option (Nat × Nat)
  /-- the clock at which it came to the head of that buffer, and whether it has become suspect (R338) -/
  since  : Nat
  suspect : Bool
  deriving DecidableEq, Repr

/-- One physical link (R297, R300, R348): sequence numbers, the replay buffer of packets not yet acknowledged, the packets that have
left on it, and its error counts. -/
structure Link where
  lseq    : BitVec 8
  expect  : BitVec 8
  replay  : List Packet
  out     : List Packet
  /-- packets that wait for the link, oldest first -/
  ready   : List Outbound
  /-- buffers of the next router in use, by lane, as its credits show (R324, R329) -/
  used    : List Nat
  /-- R325: the last packet was a control flit; detour packets in a row; the last exchange or adaptive packet was an exchange one -/
  ctlLast : Bool
  detRow  : Nat
  exLast  : Bool
  /-- a replay has been asked for and has not begun; one has begun, and the packet that is lacking has not come; replays of that packet that
  have failed; replays in a row that the other end has asked for (R297) -/
  asking  : Bool
  replaying : Bool
  asked   : Nat
  failed  : Nat
  replays : Nat
  tagFails : Nat
  errors  : Nat
  /-- packets on the detour of this link that are not yet acknowledged (R300) -/
  detoured : Nat
  deriving DecidableEq, Repr

/-- A packet in a router buffer (R324): its lane (0, or 2 at the far end of a detour), the dimension it came from (14: injected here), and
the clock at which it came to the head. -/
structure Buffered where
  lane  : Nat
  input : Nat
  since : Nat
  packet : Packet
  /-- it has become suspect (R338) -/
  suspect : Bool
  deriving DecidableEq, Repr

/-- The sender's side of a flow (R331, R333). -/
structure TxFlow where
  job   : BitVec 16
  dst   : BitVec 14
  flow  : Nat
  next  : BitVec 12
  /-- packets not yet acknowledged, in ESEQ order -/
  unacked : List (BitVec 12 × Packet)
  /-- clock of the last advance, and the retransmissions since -/
  since : Nat
  tries : Nat
  dead  : Bool
  /-- it is being retired: its other end has been asked to forget it (R331) -/
  retiring : Bool
  deriving DecidableEq, Repr

/-- The receiver's side of a flow (R332). -/
structure RxFlow where
  job   : BitVec 16
  src   : BitVec 14
  flow  : Nat
  expect : BitVec 12
  /-- numbers past `expect` that a class-15 flow has performed -/
  marked : List (BitVec 12)
  pool  : List Packet
  saved : List (BitVec 12 × Packet)
  ackDue : Option Nat
  deriving DecidableEq, Repr

/-- Who waits for a response (R336, R337). -/
inductive ReqFor where
  | wait (id : Nat) | bufCheck (id : Nat) | bufDrain (id : Nat) | copy (id : Nat)
  /-- a copy of a serial stream, by the stream's number -/
  | serial (id : Nat) | atomicCheck | prefetch
  /-- the atomic that the program of a queue performs (R255) -/
  | atomic (queue : Nat)
  /-- an access of the supervisor, by the slot of its instruction (R251) -/
  | direct (slot : Nat)
  /-- a word that the fetch path (0), the sequencer (1) or the grammar engine (2) reads on a page homed on a peer -/
  | peek (unit_ : Nat) (pa : Nat)
  deriving DecidableEq, Repr

/-- An outstanding request of this node (R326 RTAG). -/
structure Req where
  rtag   : Nat
  job    : BitVec 16
  target : BitVec 14
  va     : BitVec 48
  who    : ReqFor
  /-- what a copy reads from another node: where in the datum each run of bytes lies, its length and its destination -/
  parts  : List (Nat × Nat × Nat)
  /-- it holds the translation of `va` (R263) -/
  xlat   : Bool
  deriving DecidableEq, Repr

/-- A word of a peer that has been read for a unit of this node (R240). -/
structure Peek where
  unit_ : Nat
  node  : BitVec 14
  pa    : Nat
  status : Nat
  value : DWord
  deriving DecidableEq, Repr

/-- The answer that a stalled atomic, its check, or a supervisor access waits for. STATUS 6 stands for a peer that is unreachable. -/
structure Answer where
  job    : BitVec 16
  who    : ReqFor
  node   : BitVec 14
  va     : BitVec 48
  status : Nat
  value  : DWord
  /-- the home has kept the acquire (R279) -/
  keep   : Bool
  deriving DecidableEq, Repr

/-- The pilot token as this node sees it (R339, R342). -/
structure Token where
  held : Bool
  gen  : BitVec 32
  laps : BitVec 32
  seen : Nat
  maxGen : BitVec 32
  drained : Nat
  lapsSeen : BitVec 16
  waiting : Bool
  /-- the job of the packet that was drained -/
  drainJob : BitVec 16
  deriving DecidableEq, Repr

structure Probe where
  id    : Nat
  tag   : BitVec 16
  addr  : Nat
  due   : Nat
  job   : BitVec 16
  deriving DecidableEq, Repr

/-- A serial stream of MCASTO at its serialising node (R345). -/
structure Serial where
  /-- its own number; the buffer entry's, where this node issued it -/
  id    : Nat
  job   : BitVec 16
  src   : BitVec 14
  flow  : Nat
  dims  : BitVec 14
  /-- what has come of it, in the order of its addresses -/
  parts : List (VAddr × List Byte)
  /-- the scope of a release (R277) -/
  rel   : Option Nat
  /-- its last packet has come, with this number -/
  last  : Bool
  eseq  : BitVec 12
  /-- that packet's turn in its flow has come: the stream has its place in the serial order -/
  started : Bool
  /-- the receivers, and how many packets of the copy have been handed over to each -/
  sent  : List (BitVec 14 × Nat)
  /-- request tags of its packets that no acknowledgement has covered -/
  out   : List Nat
  deriving DecidableEq, Repr

/-- A SHOOT that this node issued, and one that reached it (R262, R263). -/
structure Shoot where
  id    : Nat
  job   : BitVec 16
  src   : BitVec 14
  range : DWord
  notice : DWord
  left  : List (BitVec 14)
  mine  : Bool
  deriving DecidableEq, Repr

/-- A line that the unmapping of a job's page has dropped, and whether V of the page's leaf is clear by now (R263, R266). -/
structure Gone where
  job  : BitVec 16
  page : Nat
  line : Nat
  unmapped : Bool
  deriving DecidableEq, Repr

structure Fab where
  links  : List Link
  bufs   : List Buffered
  runaway : Option Packet
  tx     : List TxFlow
  rx     : List RxFlow
  reqs   : List Req
  nextTag : Nat
  answers : List Answer
  peeks  : List Peek
  token  : Token
  probes : List Probe
  seenProbes : List (BitVec 14 × BitVec 16)
  serial : List Serial
  shoots : List Shoot
  rtcfg  : DWord
  /-- retransmissions sent (R348), and nodes known to be quarantined (R301, R405) -/
  resent : Nat
  dead   : List (BitVec 14)
  /-- lines that an unmapping has dropped and that nothing has brought back (R266) -/
  gone   : List Gone
  deriving DecidableEq, Repr

/-! ## Launch queues, groups -/

inductive QState where
  | idle | acquiring | ready | running | saved | held | resetting
  deriving DecidableEq, Repr

/-- Why a queue is held, and so what RFT does (R399). -/
inductive Hold where
  | none | region | boundary | outside | fatal | fenced | loss | released
  deriving DecidableEq, Repr

/-- A launch queue (R373, R374): its records, oldest first, and its current program's state. -/
structure LQueue where
  recs  : List Record
  done  : BitVec 32
  refused : Nat
  state : QState
  exit  : BitVec 32
  hold  : Hold
  /-- the region to re-enter, when the queue is held or saved -/
  region : Option Region
  /-- the EPC of a saved context, and whether its program has started (R377) -/
  epc   : VAddr
  started : Bool
  /-- the clock since which the supervisor holds it (R385) -/
  since : Nat
  /-- the last notice of its job told peers another state than present -/
  serviced : Bool
  /-- the cause with which it was held -/
  cause : BitVec 16
  /-- the supervisor has held it for so long that peers have been told (R385) -/
  overdue : Bool
  deriving DecidableEq, Repr

/-- An event that waits for the supervisor (R394, R396). -/
structure Notice where
  cause  : Cause
  eva    : VAddr
  einfo  : DWord
  urgent : Bool
  /-- the queue it concerns -/
  queue  : Option Nat
  deriving DecidableEq, Repr

inductive Presence where
  | absent | present | out | service | reset
  deriving DecidableEq, Repr

/-- A group barrier in progress (R391): the slot, the generation arrived at, the steps sent and received. -/
structure Barrier where
  slot  : Nat
  group : Nat
  gen   : BitVec 16
  /-- the bundle that arrived: its region's entries and those before must have performed -/
  since : Nat
  sent  : Nat
  finished : Bool
  job   : BitVec 16
  /-- a BAR made it and waits for it -/
  bar   : Bool
  deriving DecidableEq, Repr

structure Sched where
  queues  : List LQueue
  next    : List Nat
  running : Option Nat
  /-- a pre-emption request and the clock of its grace expiry (R379) -/
  preempt : Option Nat
  notices : List Notice
  /-- presence by job and logical node (R385) -/
  presence : List (BitVec 16 × Nat × Presence)
  barriers : List Barrier
  /-- barrier packets received ahead of their step: job, group, generation, step -/
  early   : List (BitVec 16 × Nat × BitVec 16 × Nat)
  /-- the firmware has ended its initialisation (R419) -/
  opened  : Bool
  /-- the queue whose entry the supervisor is serving -/
  serving : Option Nat
  /-- CAUSE with which the supervisor was entered last (R434) -/
  entered : BitVec 16
  deriving DecidableEq, Repr

/-! ## Errors -/

/-- Serial numbers of one job (R406): CSN, and for each unit class CPASS and OUTD. -/
structure Window where
  job   : BitVec 16
  csn   : BitVec 48
  cpass : List (BitVec 48)
  outd  : List (BitVec 14)
  deriving DecidableEq, Repr

/-- A detected error whose unit has not been tested yet (R408). -/
structure Untested where
  job    : BitVec 16
  cause  : BitVec 16
  queue  : Nat
  epc    : VAddr
  eva    : VAddr
  einfo  : DWord
  uclass : Nat
  unit_  : Nat
  /-- CSN at the error (R408) -/
  csn    : BitVec 48
  deriving DecidableEq, Repr

/-- A self-test in progress (R403). -/
structure Selft where
  uclass : Nat
  unit_  : Nat
  wait   : Nat
  since  : Nat
  deriving DecidableEq, Repr

structure Errs where
  windows : List Window
  untested : List Untested
  /-- engine errors that no test of their class has followed: job and class (R409) -/
  engine  : List (BitVec 16 × Nat)
  /-- the node is quarantined (R405) -/
  node    : Bool
  /-- links that a failed test holds down (R405) -/
  links   : BitVec 14
  /-- jobs that are fenced here (R407) -/
  fenced  : List (BitVec 16)
  records : BitVec 32
  stopped : Bool
  selft   : Option Selft
  /-- corrected errors, by unit class (R402) -/
  corrected : List Nat
  deriving DecidableEq, Repr

/-! ## The host's windows -/

/-- The bring-up under way (R422), as the act that began it gives its surroundings: the links that train, those whose neighbour's NODEID is not the
right one, the step that fails (0: none), and the clock at which the ring neighbour has reached step 0x60. -/
structure Bring where
  trained : BitVec 14
  wrong   : BitVec 14
  fail    : Nat
  ready   : Nat
  deriving DecidableEq, Repr

structure Hst where
  nctl   : DWord
  trbase : DWord
  trlen  : DWord
  trrd   : DWord
  trwr   : DWord
  /-- trace records that wait for room in the buffer (R109) -/
  traceQ : List (DWord × DWord)
  elbase : DWord
  ellen  : DWord
  elrd   : DWord
  elwr   : DWord
  ellost : BitVec 32
  jtbase : DWord
  grace  : DWord
  migrs  : BitVec 2
  /-- the migration request that stands, and the leaf of its page when it came -/
  migrq  : Option (DWord × DWord)
  hint   : BitVec 9
  hinten : BitVec 9
  featSet : Bool
  brstat : BitVec 8
  bring  : Option Bring
  pstate : BitVec 2
  pwant  : Option (BitVec 2)
  mwbase : DWord
  /-- the memory window has 2 ^ `window` bytes (R410) -/
  window : Nat
  qdoneen : DWord
  telem  : List DWord
  pinFails : Nat
  swallowed : Nat
  /-- R413: the function mask, the masks and pending bits of this node's eight vectors, and the vectors whose messages have been sent -/
  msixFun  : Bool
  msixMask : List Bool
  msixPend : List Bool
  msixSent : List Nat
  /-- the bytes that answered the last read of a window (R410, R411) -/
  readData : List Byte
  pwrcap : DWord
  /-- the nonce in the package block, and that of the request under way (R420) -/
  nonce  : BitVec 256
  asked  : BitVec 256
  attest : BitVec 8
  /-- the one-time-programmable counter of R421, and the index that the signature under way uses -/
  counter : Nat
  index  : Option Nat
  quote  : List Byte
  /-- the firmware slots: blocks of 4 KiB by number; the active slot, and the one whose image runs (R419) -/
  slots  : List (List (Nat × List Byte))
  slot   : Nat
  running : Nat
  flash  : BitVec 8
  /-- the block at 0x4_3000 of the package block -/
  flashBuf : List Byte
  flashReq : Option (Nat × Nat × List Byte)
  /-- the node is in reset or off (R419, R423) -/
  off    : Bool
  deriving DecidableEq, Repr

end Sys2Proof.Machine
end

