-- ==== Sys2Proof/Machine/State.lean ====
section
/-! DEFINITION. The state of one node, as plain data: everything the spec gives the machine, the acts of its surroundings that it has
not yet taken, and the three counters of the model itself. Faults, refusals, and the state after reset. -/

namespace Sys2Proof.Machine

structure State where
  regs  : Regs
  k     : KRegs
  seq   : Seq
  pipe  : Pipe
  /-- the open region (R112) -/
  rgn   : Option Region
  /-- how many regions have been opened -/
  regions : Nat
  /-- the region store buffer, in program order (R122) -/
  buf   : List BufEntry
  mat   : Mat
  /-- the scratchpad: bytes that are not zero, by address (R206) -/
  sp    : List Host.Cell
  vaults : List Vault
  acqs  : List Acq
  eng   : Eng
  /-- the HBM: bytes that are not zero, by physical address (R233) -/
  hbm   : List Host.Cell
  /-- poisoned 4 KiB blocks, by block number (R248) -/
  poison : List Nat
  /-- the lines that the L2 holds, least recently used first (R244) -/
  l2    : List L2Line
  tlb   : Tlb
  rtags : List RelTag
  xch   : Xch
  fab   : Fab
  sch   : Sched
  err   : Errs
  hst   : Hst
  /-- clocks since reset (R408 TIME) -/
  clock : Nat
  /-- acts of the host, the links and the surroundings not yet taken, oldest first (log 3) -/
  inbox : List Event
  /-- the data of the step of the machine that is being taken -/
  ev    : EventArgs
  /-- the next number for an entry, command, record or result (the model's own) -/
  nextId : Nat
  /-- how many free choices have been made (log 4) -/
  pickCount : Nat
  /-- how many free values have been taken (log 5) -/
  freeCount : Nat
  deriving DecidableEq, Repr

/-- Why the machine stops. -/
inductive Fault where
  /-- raised by a table walk whose job table base or table pointer names a physical address at or above 0x18_0000_0000, where the
  spec says that nothing is held (R233). Safe: no value is made up for a byte that does not exist. -/
  | hbmHole (pa : Nat)
  deriving DecidableEq, Repr

/-- Why there is no meaning. -/
inductive Refusal where
  /-- raised by an arm of exec whose meaning has not been written. Safe: nothing is claimed of it. -/
  | notModelled (mnemonic : String)
  deriving DecidableEq, Repr

/-- What a bundle starts with. -/
def BundleEnd.none : BundleEnd := ⟨.none, .none, 0, 0, false, .none, false, false, false, 0, false, 0, 0⟩
def Bundle.start : Bundle := ⟨0, .none, .none, .none, false⟩

/-- R362: LAST reads 15 while there has been no GSTEP. -/
def Binding.reset : Binding := ⟨false, 0, 0, 0, BitVec.ofNat 64 (15 * 2 ^ 52)⟩
def Tile.zero : Tile := ⟨0, []⟩
def Vault.reset : Vault := ⟨.free, 0, none, false, 0⟩
def Link.reset : Link := ⟨0, 0, [], [], [], [0, 0, 0, 0, 0], false, 0, false, false, false, 0, 0, 0, 0, 0, 0⟩
def LQueue.reset : LQueue := ⟨[], 0, 0, .idle, 0, .none, none, 0, false, 0, false, 0, false⟩

/-- R419: TVEC after bring-up, the first bundle after the image's header, in the physical window. -/
def tvecReset : VAddr := 0x8017FE000040#48

/-- R299: each dimension's detour is the lowest in-package dimension other than itself. -/
def detourReset : BitVec 56 := 1#56

/-- R328: NMTHRESH 4, TIMEOUT 450, TOKTIME 1,373, no usable link. -/
def rtcfgReset : DWord := BitVec.ofNat 64 (4 * 2 ^ 47 + 450 * 2 ^ 30 + 1373 * 2 ^ 14)

/-- R415. -/
def feat0Value : DWord := 0x1F#64

def Regs.reset : Regs :=
  { s := List.replicate 64 0, sup := List.replicate 16 0, p := 1, q := List.replicate 16 .empty, v := List.replicate 80 0,
    qv := List.replicate 16 .empty, y := List.replicate 8 0, fmt := 0, masks := [], tp0 := 0, tp1 := 0 }

def KRegs.reset : KRegs :=
  { nodeId := 0, lnode := 0, subbase := 0, submask := 0, dimmap := 0, detour := detourReset, linkstat := 0, rngKey := 0, rngCtr := 0,
    retrace := 4, rcount := 0, rtag := 0, cause := 0, epc := 0, eva := 0, einfo := 0, tvec := tvecReset, priv := true, jobtag := 0,
    wdbudget := 0, wdleft := 0, status := 0, mring := 0, groups := 0, feat0 := feat0Value, feat1 := 0, feat2 := 0, feat3 := 0,
    featack := 0, pinorph := 0, gtable := List.replicate 256 0 }

def Seq.reset : Seq :=
  { pc := tvecReset, redirects := [], loops := [], delay := 0, delayEnd := .none, trapReq := none, dueTrap := none, issued := 0, count := 0,
    outside := 0, halted := false, perform := none, words := [], pend := none, waited := 0, stall := none, held := [], direct := [], bun := .start }

def Mat.reset : Mat :=
  { work := List.replicate 8 .zero, comm := List.replicate 8 .zero, aanch := 0, queue := [], sticky := 0 }

def Fab.reset : Fab :=
  { links := List.replicate 14 .reset, bufs := [], runaway := none, tx := [], rx := [], reqs := [], nextTag := 0, answers := [], peeks := [],
    token := ⟨true, 1, 0, 0, 1, 0, 0, false, 0⟩, probes := [], seenProbes := [], serial := [], shoots := [], rtcfg := rtcfgReset,
    resent := 0, dead := [], gone := [] }

def Sched.reset : Sched :=
  { queues := List.replicate 64 .reset, next := List.replicate 16 0, running := none, preempt := none, notices := [], presence := [],
    barriers := [], early := [], opened := false, serving := none, entered := 0 }

def Errs.reset : Errs :=
  { windows := [], untested := [], engine := [], node := false, links := 0, fenced := [], records := 0, stopped := false, selft := none,
    corrected := List.replicate 7 0 }

/-- R412, R422, R424: the windows after bring-up. -/
def Hst.reset : Hst :=
  { nctl := 0, trbase := 0, trlen := 0, trrd := 0, trwr := 0, traceQ := [], elbase := 0, ellen := 0, elrd := 0, elwr := 0, ellost := 0, jtbase := 0,
    grace := 36000, migrs := 0, migrq := none, hint := 0, hinten := 0, featSet := false, brstat := 0x70, bring := none, pstate := 0, pwant := none,
    mwbase := 0, window := 30, qdoneen := 0, telem := List.replicate 7 0, pinFails := 0, swallowed := 0, msixFun := false, msixMask := List.replicate 8 false,
    msixPend := List.replicate 8 false, msixSent := [], readData := [], pwrcap := 3200, nonce := 0, asked := 0, attest := 0, counter := 0, index := none,
    quote := [], slots := [[], []], slot := 0, running := 0, flash := 0, flashBuf := [], flashReq := none, off := false }

/-- The node right after reset, its bring-up done (R50, R422; log 2): supervisor mode at TVEC, no queue in any state but idle,
memory and scratchpad zero. -/
def State.reset : State :=
  { regs := .reset, k := .reset, seq := .reset, pipe := ⟨[], [], []⟩, rgn := none, regions := 0, buf := [], mat := .reset, sp := [],
    vaults := List.replicate 32 .reset, acqs := [], eng := ⟨[], [], .reset⟩, hbm := [], poison := [], l2 := [], tlb := ⟨[], []⟩, rtags := [],
    xch := ⟨List.replicate 14 []⟩, fab := .reset, sch := .reset, err := .reset, hst := .reset, clock := 0, inbox := [], ev := {},
    nextId := 0, pickCount := 0, freeCount := 0 }

end Sys2Proof.Machine
end

