-- ==== Sys2Proof/Machine/Mem.lean ====
section
/-! DEFINITION. Byte memories: lists of (address, byte) in rising order of address that list no zero byte, since an unlisted byte reads
zero (16_host R422: bring-up initialises HBM and scratchpad to zero). Words are little-endian (00_scope R7). -/

namespace Sys2Proof.Machine

abbrev Memory := List Host.Cell

/-- Addresses rise strictly above `lo`, and no listed byte is zero. -/
def Memory.okFrom (lo : Nat) : Memory → Bool
  | [] => true
  | c :: m => decide (lo ≤ c.1 ∧ c.2 ≠ 0) && okFrom (c.1 + 1) m

/-- The canonical form. -/
def Memory.wf (m : Memory) : Bool := m.okFrom 0

/-- One byte. -/
def Memory.read (m : Memory) (a : Nat) : Byte :=
  match m with
  | [] => 0
  | c :: m => if c.1 = a then c.2 else if a < c.1 then 0 else Memory.read m a

/-- The listed cells of a run of bytes from `a`. -/
def cellsOf (a : Nat) : List Byte → Memory
  | [] => []
  | b :: bs => if b = 0 then cellsOf (a + 1) bs else (a, b) :: cellsOf (a + 1) bs

/-- The cells below an address, and those at or above it. -/
def Memory.below (m : Memory) (a : Nat) : Memory :=
  match m with
  | [] => []
  | c :: m => if c.1 < a then c :: Memory.below m a else []

def Memory.above (m : Memory) (a : Nat) : Memory :=
  match m with
  | [] => []
  | c :: m => if c.1 < a then Memory.above m a else c :: m

/-- Replace the bytes from `a` on by `bs`. -/
def Memory.write (m : Memory) (a : Nat) (bs : List Byte) : Memory :=
  m.below a ++ (cellsOf a bs ++ m.above (a + bs.length))

/-- The `n` bytes from `a` read zero. -/
def Memory.clear (m : Memory) (a n : Nat) : Memory := m.below a ++ m.above (a + n)

/-- `n` bytes from `a`. -/
def Memory.readN (m : Memory) (a : Nat) : Nat → List Byte
  | 0 => []
  | n + 1 => m.read a :: Memory.readN m (a + 1) n

/-- `n` bytes from `a`, in one walk over the cells. -/
def Memory.slice (m : Memory) (a : Nat) : Nat → List Byte
  | 0 => []
  | n + 1 =>
    match m with
    | [] => 0 :: Memory.slice [] (a + 1) n
    | c :: m' => if c.1 = a then c.2 :: Memory.slice m' (a + 1) n else 0 :: Memory.slice (c :: m') (a + 1) n

/-- Many bytes: the cells from `a` on, walked once. -/
def Memory.bytes (m : Memory) (a n : Nat) : List Byte := (m.above a).slice a n

/-- Little-endian value of bytes (R7). -/
def leNat : List Byte → Nat
  | [] => 0
  | b :: bs => b.toNat + 256 * leNat bs

/-- The `n` low bytes of a value, little-endian. -/
def toBytes : Nat → Nat → List Byte
  | 0, _ => []
  | n + 1, v => BitVec.ofNat 8 v :: toBytes n (v / 256)

def Memory.word (m : Memory) (a n : Nat) : Nat := leNat (m.bytes a n)
def Memory.dword (m : Memory) (a : Nat) : DWord := BitVec.ofNat 64 (m.word a 8)
def Memory.dwords (m : Memory) (a : Nat) : Nat → List DWord
  | 0 => []
  | n + 1 => m.dword a :: Memory.dwords m (a + 8) n
def Memory.writeLE (m : Memory) (a n v : Nat) : Memory := m.write a (toBytes n v)

/-- A vector register from 8,192 bytes, and its bytes (R60). -/
def vregOf (bs : List Byte) : VReg := BitVec.ofNat 65536 (leNat bs)
def vregBytes (v : VReg) : List Byte := toBytes 8192 v.toNat

/-- Bits [lo+n-1:lo] of a word. -/
def bits {w : Nat} (v : BitVec w) (lo n : Nat) : Nat := v.toNat / 2 ^ lo % 2 ^ n
def bitAt {w : Nat} (v : BitVec w) (i : Nat) : Bool := v.getLsbD i

/-- Replace entry `i` of a list. -/
def setAt {α : Type} (l : List α) (i : Nat) (x : α) : List α := l.set i x

/-- The end of the HBM (R233), and of the scratchpad (R206). -/
def hbmEnd : Nat := 0x1800000000
def spEnd : Nat := 0x10000000

/-- R206: the vault of a scratchpad address, its offset, and whether storage stands behind it. -/
def vaultOf (a : Nat) : Nat := a / 0x800000
def vaultOff (a : Nat) : Nat := a % 0x800000
def spData (a : Nat) : Bool := decide (a < spEnd ∧ vaultOff a < 0x600000)
/-- R206, R207: an extent that lies in one vault and below its hole. -/
def spExtent (a n : Nat) : Bool :=
  decide (a < spEnd ∧ vaultOff a < 0x600000 ∧ (n = 0 ∨ vaultOff a + n ≤ 0x600000))

end Sys2Proof.Machine
end

