-- ==== Sys2Proof/Machine/Flags.lean ====
section
/-! DEFINITION. The sticky bits of STATUS (02_registers R68) and when an integer operation sets them (R73). -/

namespace Sys2Proof.Machine

abbrev Flags := BitVec 32

def flagDivZero : Flags := 0x001#32
def flagInvalid : Flags := 0x002#32
def flagOverflow : Flags := 0x004#32
def flagUnderflow : Flags := 0x008#32
def flagInexact : Flags := 0x010#32
def flagEmptyRed : Flags := 0x020#32
def flagAnchOvf : Flags := 0x040#32
def flagDupScale : Flags := 0x080#32
def flagScopeMiss : Flags := 0x100#32
def flagNoLegal : Flags := 0x200#32

/-- The bits of STATUS that exist; [31:10] read zero (R68). -/
def statusMask : Flags := 0x3FF#32

/-- Set bits, which stay set (R68). -/
def setFlags (status f : Flags) : Flags := (status ||| f) &&& statusMask

/-- R73: DIVZERO is set exactly when the divisor is zero. -/
def divFlags (isDivision : Bool) (divisor : Nat) : Flags := if isDivision && decide (divisor = 0) then flagDivZero else 0

def flagIf (b : Bool) (f : Flags) : Flags := if b then f else 0

end Sys2Proof.Machine
end

