-- ==== Sys2Proof/Machine/Float.lean ====
section
/-! DEFINITION. Number formats, rounding and conversions (05_formats R139 to R155), and the random bits of R159. Finite values are exact:
a sign, a natural number, and a power of two. -/

namespace Sys2Proof.Machine

/-- A float format (R139): exponent and fraction widths and the bias. -/
structure Fmt where
  w : Nat
  m : Nat
  bias : Nat
  /-- the largest finite encoding (R140) -/
  top : Nat
  /-- the canonical NaN -/
  nan : Nat
  /-- the format has infinities -/
  infs : Bool
  /-- R151: the narrow-saturate bit applies -/
  narrow : Bool
  deriving DecidableEq, Repr

def fmtF32 : Fmt := ⟨8, 23, 127, 0x7F7FFFFF, 0x7FC00000, true, false⟩
def fmtBf : Fmt := ⟨8, 7, 127, 0x7F7F, 0x7FC0, true, true⟩
def fmtE4 : Fmt := ⟨4, 3, 7, 0x7E, 0x7F, false, true⟩
def fmtE5 : Fmt := ⟨5, 2, 15, 0x7B, 0x7E, true, true⟩

namespace Fmt
def signBit (f : Fmt) : Nat := 2 ^ (f.w + f.m)
/-- p = m + 1 and emin = 1 − bias. -/
def p (f : Fmt) : Nat := f.m + 1
def emin (f : Fmt) : Int := 1 - (f.bias : Int)
/-- Bytes of an encoding. -/
def bytes (f : Fmt) : Nat := (1 + f.w + f.m) / 8
def withSign (f : Fmt) (neg : Bool) (b : Nat) : Nat := if neg then f.signBit + b else b
/-- The encoding after the largest finite one is the infinity, in a format that has infinities. -/
def inf (f : Fmt) (neg : Bool) : Nat := f.withSign neg (f.top + 1)
end Fmt

/-- A decoded value: the finite ones are ±n × 2^e with n > 0. -/
inductive FVal where
  | nan | inf (neg : Bool) | zero (neg : Bool) | fin (neg : Bool) (n : Nat) (e : Int)
  deriving DecidableEq, Repr

/-- R139, R140. -/
def Fmt.decode (f : Fmt) (x : Nat) : FVal :=
  let neg := f.signBit ≤ x
  let b := x % f.signBit
  if b ≤ f.top then
    let e := b / 2 ^ f.m
    let m := b % 2 ^ f.m
    if e = 0 then (if m = 0 then .zero neg else .fin neg m (f.emin - f.m))
    else .fin neg (2 ^ f.m + m) ((e : Int) - f.bias - f.m)
  else if f.infs && b == f.top + 1 then .inf neg
  else .nan

/-- The rounding modes of R150. -/
inductive RMode where
  | rne | rtz | rup | rdn | sr
  deriving DecidableEq, Repr

def rmodeOf (n : Nat) : RMode := match n with | 0 => .rne | 1 => .rtz | 2 => .rup | 3 => .rdn | _ => .sr

/-- R150: the multiple of q to which N / D (in units of q, sign apart) rounds, and whether it is inexact. -/
def roundK (mode : RMode) (neg : Bool) (N D u : Nat) : Nat × Bool :=
  let k := N / D
  let r := N % D
  if r = 0 then (k, false)
  else
    let up := match mode with
      | .rne => decide (D < 2 * r) || (2 * r == D && k % 2 == 1)
      | .rtz => false
      | .rup => !neg
      | .rdn => neg
      | .sr => if neg then !decide (u < (D - r) * 2 ^ 16 / D) else decide (u < r * 2 ^ 16 / D)
    (if up then k + 1 else k, true)

/-- R151. -/
def ovf (f : Fmt) (mode : RMode) (nsat neg : Bool) : Nat :=
  let top := f.withSign neg f.top
  let big := if f.infs then f.inf neg else f.nan
  if nsat && f.narrow then top
  else match mode with
    | .rne | .sr => big
    | .rtz => top
    | .rup => if neg then top else big
    | .rdn => if neg then big else top

/-- Powers of two with a signed exponent: x × 2^e as a fraction. -/
def scaleNum (n : Nat) (e : Int) : Nat := match e with | .ofNat k => n * 2 ^ k | .negSucc _ => n
def scaleDen (d : Nat) (e : Int) : Nat := match e with | .ofNat _ => d | .negSucc k => d * 2 ^ (k + 1)

/-- floor(log2(n / d)) for n, d > 0. -/
def log2Frac (n d : Nat) : Int :=
  let k : Int := (Nat.log2 n : Int) - Nat.log2 d
  if scaleDen d (-k) ≤ scaleNum n (-k) then k else k - 1

/-- R150: ROUND of ±(n / d) × 2^e into a format: the encoding and the STATUS bits. -/
def round (f : Fmt) (mode : RMode) (nsat neg : Bool) (n d : Nat) (e : Int) (u : Nat) : Nat × Flags :=
  let x := max (log2Frac n d + e) f.emin
  let q : Int := e - (x - f.m)
  let (k, inexact) := roundK mode neg (scaleNum n q) (scaleDen d q) u
  let b := (x - f.emin).toNat * 2 ^ f.m + k
  if f.top < b then (ovf f mode nsat neg, flagOverflow ||| flagInexact)
  else
    let fl := flagIf inexact flagInexact ||| flagIf (inexact && decide (b < 2 ^ f.m)) flagUnderflow
    (f.withSign neg b, fl)

/-! ## Arithmetic (R83, R141, R155) -/

/-- The sign of an exact zero sum of opposite terms (R83): +0, except under RDN. -/
def zeroSign (mode : RMode) : Bool := mode == .rdn

/-- A signed integer of a finite value at exponent `e`. -/
def atExp (neg : Bool) (n : Nat) (e0 e : Int) : Int :=
  let m : Int := n * 2 ^ (e0 - e).toNat
  if neg then -m else m

/-- An exact sum: its value, or an invalid operation. -/
def exactAdd (mode : RMode) : FVal → FVal → FVal × Bool
  | .nan, _ | _, .nan => (.nan, false)
  | .inf a, .inf b => if a = b then (.inf a, false) else (.nan, true)
  | .inf a, _ => (.inf a, false)
  | _, .inf b => (.inf b, false)
  | .zero a, .zero b => (.zero (if a = b then a else zeroSign mode), false)
  | .zero _, x => (x, false)
  | x, .zero _ => (x, false)
  | .fin a n e, .fin b m g =>
    let l := min e g
    let s := atExp a n e l + atExp b m g l
    if s = 0 then (.zero (zeroSign mode), false) else (.fin (decide (s < 0)) s.natAbs l, false)

def exactMul : FVal → FVal → FVal × Bool
  | .nan, _ | _, .nan => (.nan, false)
  | .inf a, .inf b => (.inf (a != b), false)
  | .inf _, .zero _ | .zero _, .inf _ => (.nan, true)
  | .inf a, .fin b _ _ => (.inf (a != b), false)
  | .fin a _ _, .inf b => (.inf (a != b), false)
  | .zero a, .zero b | .zero a, .fin b _ _ | .fin a _ _, .zero b => (.zero (a != b), false)
  | .fin a n e, .fin b m g => (.fin (a != b) (n * m) (e + g), false)

def FVal.negate : FVal → FVal
  | .nan => .nan
  | .inf a => .inf (!a)
  | .zero a => .zero (!a)
  | .fin a n e => .fin (!a) n e

/-- The encoding of an exact result. -/
def Fmt.pack (f : Fmt) (mode : RMode) (nsat : Bool) (u : Nat) (r : FVal × Bool) : Nat × Flags :=
  match r.1 with
  | .nan => (f.nan, flagIf r.2 flagInvalid)
  | .inf neg => (f.inf neg, 0)
  | .zero neg => (f.withSign neg 0, 0)
  | .fin neg n e => round f mode nsat neg n 1 e u

/-- R152: arithmetic rounds to nearest even when SR is selected. -/
def arithMode (m : RMode) : RMode := if m = .sr then .rne else m

def fpAdd (f : Fmt) (mode : RMode) (x y : Nat) : Nat × Flags :=
  let m := arithMode mode
  f.pack m false 0 (exactAdd m (f.decode x) (f.decode y))

def fpSub (f : Fmt) (mode : RMode) (x y : Nat) : Nat × Flags :=
  let m := arithMode mode
  f.pack m false 0 (exactAdd m (f.decode x) (f.decode y).negate)

def fpMul (f : Fmt) (mode : RMode) (x y : Nat) : Nat × Flags :=
  f.pack (arithMode mode) false 0 (exactMul (f.decode x) (f.decode y))

/-- R141: x × y + d with one rounding; 0 × ∞ is invalid whatever the addend is. `negP` negates the product. -/
def fpFma (f : Fmt) (mode : RMode) (negP : Bool) (x y d : Nat) : Nat × Flags :=
  let m := arithMode mode
  let (pr, bad) := exactMul (f.decode x) (f.decode y)
  if bad then (f.nan, flagInvalid)
  else f.pack m false 0 (exactAdd m (if negP then pr.negate else pr) (f.decode d))

def Fmt.isNan (f : Fmt) (x : Nat) : Bool := f.decode x == .nan

/-- R155: the total order −∞ < … < −0 < +0 < … < +∞ on encodings that are not NaN. -/
def Fmt.key (f : Fmt) (x : Nat) : Int := if f.signBit ≤ x then -((x % f.signBit : Nat) : Int) - 1 else x

def fpMin (f : Fmt) (x y : Nat) : Nat := if f.isNan x || f.isNan y then f.nan else if f.key y < f.key x then y else x
def fpMax (f : Fmt) (x y : Nat) : Nat := if f.isNan x || f.isNan y then f.nan else if f.key x < f.key y then y else x

/-- The order in which −0 = +0 (R79). -/
def Fmt.keyEq (f : Fmt) (x : Nat) : Int := if x % f.signBit = 0 then 0 else f.key x

/-! ## Conversions (R154) -/

inductive IFmt where
  | i8 | i32 | z32 | i64 | z64
  deriving DecidableEq, Repr

def IFmt.lo : IFmt → Int | .i8 => -128 | .i32 => -2 ^ 31 | .i64 => -2 ^ 63 | _ => 0
def IFmt.hi : IFmt → Int | .i8 => 127 | .i32 => 2 ^ 31 - 1 | .z32 => 2 ^ 32 - 1 | .i64 => 2 ^ 63 - 1 | .z64 => 2 ^ 64 - 1
def IFmt.bytes : IFmt → Nat | .i8 => 1 | .i32 => 4 | .z32 => 4 | .i64 => 8 | .z64 => 8
def IFmt.signed : IFmt → Bool | .i8 => true | .i32 => true | .i64 => true | _ => false
def IFmt.encode (f : IFmt) (v : Int) : Nat := (v % 2 ^ (8 * f.bytes)).toNat
def IFmt.decode (f : IFmt) (x : Nat) : Int :=
  if f.signed && decide (2 ^ (8 * f.bytes - 1) ≤ x) then (x : Int) - 2 ^ (8 * f.bytes) else x
def IFmt.clamp (f : IFmt) (v : Int) : Int := max f.lo (min f.hi v)

/-- float → float. -/
def cvtFF (a b : Fmt) (mode : RMode) (nsat : Bool) (u x : Nat) : Nat × Flags :=
  match a.decode x with
  | .nan => (b.nan, 0)
  | .zero neg => (b.withSign neg 0, 0)
  | .inf neg =>
    if b.infs then (b.inf neg, 0)
    else if nsat then (b.withSign neg b.top, flagOverflow) else (b.nan, flagInvalid)
  | .fin neg n e => round b mode nsat neg n 1 e u

/-- integer → float. -/
def cvtIF (b : Fmt) (mode : RMode) (nsat : Bool) (u : Nat) (v : Int) : Nat × Flags :=
  if v = 0 then (0, 0) else round b mode nsat (decide (v < 0)) v.natAbs 1 0 u

/-- float → integer. -/
def cvtFI (a : Fmt) (b : IFmt) (mode : RMode) (u x : Nat) : Nat × Flags :=
  match a.decode x with
  | .nan => (0, flagInvalid)
  | .zero _ => (0, 0)
  | .inf neg => (b.encode (if neg then b.lo else b.hi), flagInvalid)
  | .fin neg n e =>
    let (k, inexact) := roundK mode neg (scaleNum n e) (scaleDen 1 e) u
    let v : Int := if neg then -(k : Int) else k
    if v < b.lo ∨ b.hi < v then (b.encode (b.clamp v), flagInvalid) else (b.encode v, flagIf inexact flagInexact)

/-- integer → integer. -/
def cvtII (a b : IFmt) (x : Nat) : Nat := b.encode (b.clamp (a.decode x))

/-- A format code of R138 that a conversion names. -/
inductive CFmt where
  | flt (f : Fmt) | int (f : IFmt)
  deriving DecidableEq, Repr

def cfmtOf (code : Nat) : CFmt :=
  match code with
  | 0 => .flt fmtF32 | 1 => .flt fmtBf | 2 => .flt fmtE4 | 3 => .flt fmtE5
  | 6 => .int .i8 | 7 => .int .i32 | 8 => .int .z32 | _ => .int .i64

def CFmt.bytes : CFmt → Nat | .flt f => f.bytes | .int f => f.bytes
def CFmt.isFloat : CFmt → Bool | .flt _ => true | .int _ => false

/-- R154: one element, read as an encoding of the source format. -/
def convert (a b : CFmt) (mode : RMode) (nsat : Bool) (u x : Nat) : Nat × Flags :=
  match a, b with
  | .flt a, .flt b => cvtFF a b mode nsat u x
  | .int a, .flt b => cvtIF b mode nsat u (a.decode x)
  | .flt a, .int b => cvtFI a b mode u x
  | .int a, .int b => (cvtII a b x, 0)

/-- Whether a conversion rounds, and so draws under SR (R152). -/
def cvtDraws (a b : CFmt) : Bool := a.isFloat || b.isFloat

/-! ## Square roots, in whole numbers -/

/-- The greatest r with r² ≤ n among those whose bits below `k` are free and whose other bits are those of `r`. -/
def isqrtFrom (n : Nat) : Nat → Nat → Nat
  | 0, r => r
  | k + 1, r => let c := r + 2 ^ k; isqrtFrom n k (if c * c ≤ n then c else r)

/-- floor(√n). -/
def isqrt (n : Nat) : Nat := isqrtFrom n (Nat.log2 n / 2 + 1) 0

/-! ## FMT (R156) -/

def fmtA (f : BitVec 48) : Nat := bits f 0 4
def fmtB (f : BitVec 48) : Nat := bits f 4 4
def fmtD (f : BitVec 48) : Nat := bits f 8 4
def fmtMode (f : BitVec 48) : RMode := rmodeOf (bits f 12 3)
def fmtNsat (f : BitVec 48) : Bool := f.getLsbD 15
def fmtAuto (f : BitVec 48) : Bool := f.getLsbD 16
def fmtAnchor (f : BitVec 48) : BitVec 10 := BitVec.ofNat 10 (bits f 18 10)
def fmtStream (f : BitVec 48) : Nat := bits f 32 16

/-- R156: what SETF accepts. -/
def fmtOk (f : BitVec 48) : Bool :=
  decide (fmtA f ≤ 10 ∧ fmtB f ≤ 10 ∧ fmtD f ≤ 10 ∧ bits f 12 3 ≤ 4 ∧ bits f 17 1 = 0 ∧ bits f 28 4 = 0)

/-! ## Random bits (R159) -/

def rnd (x : DWord) : DWord := (x ^^^ (x >>> 28)) * 0x0000100000100001#64

def mix (key ctr : DWord) (stream lane : Nat) : DWord :=
  let x := rnd (key ^^^ 0x5A3C96E10F7BD248#64) ^^^ ctr
  let x := rnd x ^^^ BitVec.ofNat 64 (stream % 2 ^ 16 * 2 ^ 16 + lane % 2 ^ 16)
  rnd (rnd (rnd (rnd x)))

end Sys2Proof.Machine
end

