-- ==== Sys2Proof/Machine/Packets.lean ====
section
/-! DEFINITION. Packets: the trailer of 11_exchange R296 and its routed layout of 12_fabric R326 and R327, and the integrity tag of
R297. -/

namespace Sys2Proof.Machine

/-- One step of a reflected CRC-32 with polynomial `poly` over one bit. -/
def crcBit (poly c : BitVec 32) : BitVec 32 := if c.getLsbD 0 then (c >>> 1) ^^^ poly else c >>> 1

def crcByte (poly c : BitVec 32) (b : Byte) : BitVec 32 :=
  let c := c ^^^ b.setWidth 32
  crcBit poly (crcBit poly (crcBit poly (crcBit poly (crcBit poly (crcBit poly (crcBit poly (crcBit poly c)))))))

/-- The register of a CRC after more bytes. -/
def crcRun (poly : BitVec 32) (c : BitVec 32) (bs : List Byte) : BitVec 32 := bs.foldl (crcByte poly) c

/-- R134: IEEE 802.3 CRC-32. -/
def polyIEEE : BitVec 32 := 0xEDB88320#32
/-- R297: CRC-32C. -/
def polyC : BitVec 32 := 0x82F63B78#32

def crc32C (bs : List Byte) : BitVec 32 := crcRun polyC 0xFFFFFFFF#32 bs ^^^ 0xFFFFFFFF#32

/-- Doubleword `i` of a record or trailer of eight. -/
def dwOf (r : BitVec 512) (i : Nat) : DWord := BitVec.ofNat 64 (bits r (64 * i) 64)

/-- Eight doublewords, the lowest first. -/
def ofDws (l : List DWord) : BitVec 512 := BitVec.ofNat 512 (l.foldr (fun d acc => d.toNat + 2 ^ 64 * acc) 0)

/-- Replace the `n` bits from `lo` of a value. -/
def putBits {w : Nat} (v : BitVec w) (lo n x : Nat) : BitVec w :=
  BitVec.ofNat w (v.toNat - bits v lo n * 2 ^ lo + x % 2 ^ n * 2 ^ lo)

namespace Packet

def dw (p : Packet) (i : Nat) : DWord := dwOf p.trailer i
def kind (p : Packet) : Nat := bits p.trailer 60 4
def lane (p : Packet) : Nat := bits p.trailer 57 3
def nflit (p : Packet) : Nat := bits p.trailer 52 5
def src (p : Packet) : BitVec 14 := BitVec.ofNat 14 (bits p.trailer 38 14)
def dst (p : Packet) : BitVec 14 := BitVec.ofNat 14 (bits p.trailer 24 14)
def job (p : Packet) : BitVec 16 := BitVec.ofNat 16 (bits p.trailer 8 16)
def lseq (p : Packet) : BitVec 8 := BitVec.ofNat 8 (bits p.trailer 0 8)
/-- doubleword 1 of exchange packets (R296) -/
def offset (p : Packet) : Nat := bits p.trailer (64 + 28) 28
def xaddr (p : Packet) : Nat := bits p.trailer 64 28
def xseq (p : Packet) : BitVec 12 := BitVec.ofNat 12 (bits p.trailer (128 + 52) 12)
/-- doubleword 1 of routed packets (R326) -/
def eseq (p : Packet) : BitVec 12 := BitVec.ofNat 12 (bits p.trailer (64 + 52) 12)
def flow (p : Packet) : Nat := bits p.trailer (64 + 47) 5
def space (p : Packet) : Nat := bits p.trailer (64 + 45) 2
def check (p : Packet) : Bool := p.trailer.getLsbD (64 + 44)
def nonmin (p : Packet) : Bool := p.trailer.getLsbD (64 + 43)
def inter (p : Packet) : BitVec 14 := BitVec.ofNat 14 (bits p.trailer (64 + 29) 14)
def scope (p : Packet) : Nat := bits p.trailer (64 + 27) 2
def sync (p : Packet) : Nat := bits p.trailer (64 + 25) 2
def op (p : Packet) : Nat := bits p.trailer (64 + 21) 4
def type (p : Packet) : Nat := bits p.trailer (64 + 18) 3
def status (p : Packet) : Nat := bits p.trailer (64 + 15) 3
def rtag (p : Packet) : Nat := bits p.trailer 64 15
def addr (p : Packet) : BitVec 48 := BitVec.ofNat 48 (bits p.trailer 128 48)
def tag (p : Packet) : BitVec 32 := BitVec.ofNat 32 (bits p.trailer (448 + 32) 32)

end Packet

/-- The bytes that TAG covers: the payload flits in order, then bytes 0-59 of the trailer with TAG's place excluded (R297). -/
def tagBytes (payload : List Byte) (trailer : BitVec 512) : List Byte := payload ++ toBytes 60 trailer.toNat

/-- R297: a packet with its tag. -/
def Packet.seal (p : Packet) : Packet :=
  { p with trailer := putBits p.trailer (448 + 32) 32 (crc32C (tagBytes p.payload p.trailer)).toNat }

/-- The tag checks. -/
def Packet.intact (p : Packet) : Bool := p.tag == crc32C (tagBytes p.payload p.trailer)

/-- Doubleword 0 of a trailer (R296). -/
def trailer0 (kind lane nflit : Nat) (src dst : BitVec 14) (job : BitVec 16) : DWord :=
  BitVec.ofNat 64 (kind * 2 ^ 60 + lane * 2 ^ 57 + nflit * 2 ^ 52 + src.toNat * 2 ^ 38 + dst.toNat * 2 ^ 24 + job.toNat * 2 ^ 8)

/-- Payload padded to whole flits (R296). -/
def padFlits (bs : List Byte) : List Byte := bs ++ List.replicate ((64 - bs.length % 64) % 64) 0

def flitCount (bs : List Byte) : Nat := (bs.length + 63) / 64

/-- The fields of a routed packet's doubleword 1 (R326). -/
structure RouteInfo where
  flow   : Nat := 31
  eseq   : Nat := 0
  space  : Nat := 0
  check  : Bool := false
  scope  : Nat := 0
  sync   : Nat := 0
  op     : Nat := 0
  type   : Nat := 0
  status : Nat := 0
  rtag   : Nat := 0
  addr   : BitVec 48 := 0
  d3     : DWord := 0
  d4     : DWord := 0
  /-- the virtual address that has been translated for it, which no packet carries -/
  va     : Option (BitVec 48) := none
  deriving DecidableEq, Repr

def RouteInfo.dw1 (r : RouteInfo) : DWord :=
  BitVec.ofNat 64 (r.eseq * 2 ^ 52 + r.flow * 2 ^ 47 + r.space * 2 ^ 45 + (if r.check then 2 ^ 44 else 0) + r.scope * 2 ^ 27
    + r.sync * 2 ^ 25 + r.op * 2 ^ 21 + r.type * 2 ^ 18 + r.status * 2 ^ 15 + r.rtag)

/-- A routed packet before its LSEQ and TAG (R326, R327). -/
def routedPacket (kind lane : Nat) (src dst : BitVec 14) (job : BitVec 16) (r : RouteInfo) (payload : List Byte) : Packet :=
  { payload := padFlits payload
    trailer := ofDws [trailer0 kind lane (flitCount payload) src dst job, r.dw1, BitVec.ofNat 64 r.addr.toNat, r.d3, r.d4, 0, 0, 0] }

/-- An exchange packet (R296): data, post or acknowledgement. -/
def exchangePacket (kind lane : Nat) (src dst : BitVec 14) (job : BitVec 16) (offset addr : Nat) (d2 d3 d4 d5 : DWord)
    (payload : List Byte) : Packet :=
  { payload := padFlits payload
    trailer := ofDws [trailer0 kind lane (flitCount payload) src dst job, BitVec.ofNat 64 (offset * 2 ^ 28 + addr), d2, d3, d4, d5, 0, 0] }

/-- A link-control packet (KIND 3): its doubleword 2 (R385, R391, R405, R407). -/
def controlPacket (src dst : BitVec 14) (job : BitVec 16) (d2 : DWord) : Packet :=
  { payload := [], trailer := ofDws [trailer0 3 3 0 src dst job, 0, d2, 0, 0, 0, 0, 0] }

/-- A packet of the replay buffer that a partition reset has dropped (R330): only its number in the link's order is left of it (CTYPE 15,
log 88). -/
def Packet.filler (p : Packet) : Packet :=
  Packet.seal { controlPacket 0 0 0 15#64 with trailer := putBits (putBits (controlPacket 0 0 0 15#64).trailer 57 3 p.lane) 0 8 p.lseq.toNat }
def Packet.isFiller (p : Packet) : Bool := p.kind == 3 && bits (p.dw 2) 0 8 == 15

/-- Whether a received routed packet has a reserved value or a reserved bit set (R326, R327). -/
def Packet.reserved (p : Packet) : Bool :=
  decide (p.kind = 15 ∨ (17 ≤ p.flow ∧ p.flow ≤ 30) ∨ p.space = 3 ∨ p.status ≥ 6 ∨ bits p.trailer (128 + 48) 16 ≠ 0
    ∨ bits p.trailer 320 128 ≠ 0 ∨ bits p.trailer 448 32 ≠ 0 ∨ 5 ≤ p.lane)

end Sys2Proof.Machine
end

