-- ==== Sys2Proof/Machine/Dims.lean ====
section
/-! DEFINITION. The subcube, its logical dimensions and the Gray rings (11_exchange R288 to R294), and scopes (10_ordering R270). -/

namespace Sys2Proof.Machine

/-- The number of set bits. -/
def popc {w : Nat} (v : BitVec w) : Nat := (List.range w).foldl (fun n i => if v.getLsbD i then n + 1 else n) 0

/-- R289: the physical dimension of logical dimension `i`. -/
def mapDim (dimmap : BitVec 56) (i : Nat) : Nat := bits dimmap (4 * i) 4

/-- The physical dimensions of the first `m` logical ones. -/
def mapDims (dimmap : BitVec 56) (m : Nat) : List Nat := (List.range m).map (mapDim dimmap)

/-- R289: a consistent subcube. -/
def consistent (nodeId subbase submask : BitVec 14) (dimmap : BitVec 56) : Bool :=
  let ds := mapDims dimmap (popc submask)
  decide ds.Nodup && ds.all (fun d => submask.getLsbD d) && decide (subbase &&& submask = 0)
    && decide (nodeId &&& ~~~submask = subbase)

/-- R290: the logical identity. -/
def logicalOf (node submask : BitVec 14) (dimmap : BitVec 56) : Nat :=
  (List.range (popc submask)).foldl (fun l i => if node.getLsbD (mapDim dimmap i) then l + 2 ^ i else l) 0

/-- R290: LNODE, 0 while the subcube is not consistent. -/
def lnodeOf (nodeId subbase submask : BitVec 14) (dimmap : BitVec 56) : BitVec 14 :=
  if consistent nodeId subbase submask dimmap then BitVec.ofNat 14 (logicalOf nodeId submask dimmap) else 0

namespace KRegs

def consistent (k : KRegs) : Bool := Machine.consistent k.nodeId k.subbase k.submask k.dimmap
/-- The number of logical dimensions. -/
def m (k : KRegs) : Nat := popc k.submask
def dims (k : KRegs) : List Nat := mapDims k.dimmap k.m

/-- R290: PHYS. -/
def phys (k : KRegs) (l : Nat) : BitVec 14 :=
  (List.range k.m).foldl (fun n i => if l.testBit i then n ||| BitVec.twoPow 14 (mapDim k.dimmap i) else n) k.subbase

/-- The logical identity of a node of the subcube. -/
def logical (k : KRegs) (node : BitVec 14) : Nat := logicalOf node k.submask k.dimmap

/-- The logical dimension that a physical one carries, if any. -/
def logicalDim (k : KRegs) (d : Nat) : Option Nat := (List.range k.m).find? fun i => mapDim k.dimmap i == d

/-- R291: the node that a set names. -/
def peer (k : KRegs) (set : Nat) : BitVec 14 := k.phys (k.lnode.toNat ^^^ set)

/-- R291: a dimension set operand whose reserved bits are zero and whose SET stays within the subcube (R293). -/
def setOk (k : KRegs) (v : DWord) (stride : Bool) : Bool :=
  k.consistent && decide (bits v 21 43 = 0 ∧ bits v 14 2 = 0 ∧ (stride = true ∨ bits v 16 5 = 0) ∧ bits v 0 14 < 2 ^ k.m)

def setOf (v : DWord) : Nat := bits v 0 14

/-- The logical dimensions of a set, ascending. -/
def setDims (set : Nat) : List Nat := (List.range 14).filter fun i => set.testBit i

/-- R345: the serialising node of a set, and the physical mask of the receivers. -/
def serialiser (k : KRegs) (set : BitVec 14) : BitVec 14 := k.phys (k.lnode &&& ~~~set).toNat
def physMask (k : KRegs) (set : BitVec 14) : BitVec 14 :=
  (setDims set.toNat).foldl (fun m i => m ||| BitVec.twoPow 14 (mapDim k.dimmap i)) 0

/-- R294: the node at position `q` of the ring of a set. -/
def ring (k : KRegs) (set q : Nat) : BitVec 14 :=
  let g := q ^^^ (q / 2)
  let ds := setDims set
  let base := ds.foldl (fun l t => if l.testBit t then l - 2 ^ t else l) k.lnode.toNat
  k.phys ((ds.zipIdx).foldl (fun l (t, j) => if g.testBit j then l + 2 ^ t else l) base)

/-- R294: this node's position. -/
def pos (k : KRegs) (set : Nat) : Nat :=
  let g := ((setDims set).zipIdx).foldl (fun g (t, j) => if k.lnode.toNat.testBit t then g + 2 ^ j else g) 0
  (List.range 14).foldl (fun q i => q ^^^ (g / 2 ^ (i + 1))) g

/-- R270: the nodes of a scope, as this node's registers give it. -/
def inScope (k : KRegs) (scope : Nat) (node : BitVec 14) : Bool :=
  match scope with
  | 0 => node == k.nodeId
  | 1 => node.toNat / 4 == k.nodeId.toNat / 4
  | 2 => decide (node &&& ~~~k.submask = k.subbase)
  | _ => true

end KRegs

/-- R298: the state of a physical link. -/
def linkState (linkstat : BitVec 28) (d : Nat) : Nat := bits linkstat (2 * d) 2

/-- R299: the detour dimension. -/
def detourDim (detour : BitVec 56) (d : Nat) : Nat := bits detour (4 * d) 4

end Sys2Proof.Machine
end

