-- ==== Sys2Proof/WellFormed.lean ====
section
/-! DEFINITION. Which terms of Instr stand for an instruction that some encoding holds: the ranges of 01_bundles R20 to R32 and R42,
and of 02_registers R51, R52. Rows without an encoding have no operands of
their own; the ranges of the data they act on are in Machine/Types.lean (EventArgs.wf). -/

namespace Sys2Proof

/-- R51: S0-S63 and Q0-Q15. -/
def SSrc.wf : SSrc → Bool
  | .reg n => decide (n < 64)
  | .q n => decide (n < 16)

/-- R52: S0-S63, or the queue alone. -/
def SDst.wf : SDst → Bool
  | .reg n => decide (n < 64)
  | .queue => true

def VSrc.wf : VSrc → Bool
  | .reg n => decide (n < 80)
  | .q n => decide (n < 16)

def VDst.wf : VDst → Bool
  | .reg n => decide (n < 80)
  | .queue => true

/-- A 6-bit scalar source whose high bit is 0: S0-S47 or a queue entry (R197, R198). -/
def SSrc.wfLow : SSrc → Bool
  | .reg n => decide (n < 48)
  | .q n => decide (n < 16)

/-- A predicate, a policy register, a logical dimension. -/
def wfPred (n : Nat) : Bool := decide (n < 16)
def wfPol (n : Nat) : Bool := decide (n < 8)
def wfDim (n : Nat) : Bool := decide (n < 14)
/-- A scalar or vector register that an instruction both reads and writes (R52). -/
def wfSReg (n : Nat) : Bool := decide (n < 64)
def wfVReg (n : Nat) : Bool := decide (n < 80)
/-- An even register from S2 to S46 (R27, R30, R364). -/
def wfPair (n : Nat) : Bool := decide (n % 2 = 0 ∧ 2 ≤ n ∧ n ≤ 46)

/-- A two's-complement field of n bits. -/
def wfInt (n : Nat) (v : Int) : Bool := decide (-(2 ^ (n - 1) : Int) ≤ v ∧ v < 2 ^ (n - 1))
/-- An unsigned field of n bits. -/
def wfNat (n : Nat) (v : Nat) : Bool := decide (v < 2 ^ n)
/-- A loop's end offset: unsigned and nonzero (R25). -/
def wfEnd (n : Nat) (v : Nat) : Bool := decide (1 ≤ v ∧ v < 2 ^ n)
/-- A bit field p, w with 1 ≤ w and p + w ≤ 64 (R77). -/
def wfBits (p w : Nat) : Bool := decide (1 ≤ w ∧ p + w ≤ 64 ∧ p < 64)

def TileSel.wf : TileSel → Bool
  | .tile n => decide (n < 8)
  | .ring => true

def AOperand.wf : AOperand → Bool
  | .pair p => decide (1 ≤ p ∧ p < 32)
  | .vec p => decide (1 ≤ p ∧ p < 32)

def XKind.wf : XKind → Bool
  | .excc op => decide (op < 9)
  | _ => true

/-- The assigned state-register numbers (R66). -/
def kAssigned (n : Nat) : Bool :=
  decide (n ≤ 0x006 ∨ n = 0x010 ∨ n = 0x011 ∨ (0x020 ≤ n ∧ n ≤ 0x022) ∨ (0x030 ≤ n ∧ n ≤ 0x035) ∨ (0x040 ≤ n ∧ n ≤ 0x042)
    ∨ (0x050 ≤ n ∧ n ≤ 0x052) ∨ (0x060 ≤ n ∧ n ≤ 0x064) ∨ n = 0x070 ∨ (0x100 ≤ n ∧ n ≤ 0x107) ∨ (0x200 ≤ n ∧ n ≤ 0x20F)
    ∨ (0x400 ≤ n ∧ n ≤ 0x4FF))

/-- The source codes that SFCVT accepts (R21, R85). -/
def sfcvtSrc (n : Nat) : Bool := decide (n ≤ 3 ∨ (6 ≤ n ∧ n ≤ 9))

/-- Lane widths of the format codes that VCVT accepts (R162, R173); 0 for any other code. -/
def fmtBits (n : Nat) : Nat :=
  match n with
  | 0 => 32 | 1 => 16 | 2 => 8 | 3 => 8 | 6 => 8 | 7 => 32 | 8 => 32 | 9 => 64 | _ => 0

/-- R173, R174: the accepted pairs of codes and the part numbers of a pair. -/
def wfCvt (src dst part : Nat) : Bool :=
  decide (fmtBits src ≠ 0 ∧ fmtBits dst ≠ 0 ∧ (src = 9 → dst ≤ 3) ∧ (dst = 9 → src ≤ 3)
    ∧ part < Nat.max (fmtBits src) (fmtBits dst) / Nat.min (fmtBits src) (fmtBits dst))

def AmoOp.isFloat : AmoOp → Bool
  | .fadd | .fmin | .fmax => true
  | _ => false

/-- R253, R256: .f32 is required exactly by FADD, FMIN and FMAX. -/
def wfAmoTy (op : AmoOp) (t : ATy) : Bool := op.isFloat == decide (t = .f32)

namespace Instr

/-- The ranges of every operand. An immediate is admitted at its extended width (R17). -/
def wf : Instr → Bool
  | .nop => true
  | .add d x y _ | .sub d x y _ | .mul d x y _ | .mulh d x y _ | .and d x y _ | .or d x y _ | .xor d x y _ | .andn d x y _
  | .shl d x y _ | .shr d x y _ | .sar d x y _ | .rot d x y _ | .min d x y _ | .max d x y _ | .div d x y _ | .rem d x y _ =>
    d.wf && x.wf && y.wf
  | .clz d x _ | .popc d x _ | .brev d x _ => d.wf && x.wf
  | .addi d x i => d.wf && x.wf && wfInt 22 i
  | .andi d x i | .ori d x i | .xori d x i => d.wf && x.wf && wfInt 19 i
  | .shli d x n | .shri d x n | .sari d x n | .roti d x n => d.wf && x.wf && wfNat 6 n
  | .movi d i => d.wf && wfInt 28 i
  | .movk d p i => wfSReg d && wfNat 2 p && wfNat 16 i
  | .bext d x p w | .bexs d x p w => d.wf && x.wf && wfBits p w
  | .bins d x p w => wfSReg d && x.wf && wfBits p w
  | .lea d x y s i => d.wf && x.wf && y.wf && wfNat 2 s && wfInt 14 i
  | .cmpEq _ p x y _ | .cmpNe _ p x y _ | .cmpLt _ p x y _ | .cmpLe _ p x y _ | .cmpGt _ p x y _ | .cmpGe _ p x y _ =>
    wfPred p && x.wf && y.wf
  | .cmpUn _ p x y | .cmpOrd _ p x y => wfPred p && x.wf && y.wf
  | .cmpiEq _ p x i _ | .cmpiNe _ p x i _ | .cmpiLt _ p x i _ | .cmpiLe _ p x i _ | .cmpiGt _ p x i _ | .cmpiGe _ p x i _ =>
    wfPred p && x.wf && wfInt 17 i
  | .pand d x y | .por d x y | .pxor d x y | .pandn d x y => wfPred d && wfPred x && wfPred y
  | .pnot d x | .pmov d x => wfPred d && wfPred x
  | .pset d | .pclr d => wfPred d
  | .sel d p _ x y => d.wf && wfPred p && x.wf && y.wf
  | .sfadd d x y | .sfsub d x y | .sfmul d x y | .sfmin d x y | .sfmax d x y => d.wf && x.wf && y.wf
  | .sfma d x y => wfSReg d && x.wf && y.wf
  | .sfcvt d x s _ => d.wf && x.wf && sfcvtSrc s
  | .sfabs d x | .sfneg d x => d.wf && x.wf
  | .getk d k => d.wf && kAssigned k
  | .setk k x => kAssigned k && x.wf
  | .lidx d n | .lcnt d n => d.wf && decide (n < 6)
  | .bra p _ o => wfPred p && wfInt 29 o
  | .call o => wfInt 34 o
  | .bri x | .ret x => x.wf
  | .calli d x => d.wf && x.wf
  | .loop x o => x.wf && wfEnd 28 o
  | .loopi n o => wfNat 14 n && wfEnd 20 o
  | .leave => true
  | .brmNone o | .brmAll o | .brmAny o => wfInt 29 o
  | .trap i | .delay i | .brk i => wfNat 26 i
  | .ld d x o p _ => d.wf && x.wf && wfInt 16 o && wfPol p
  | .st d x o p _ => d.wf && x.wf && wfInt 16 o && wfPol p
  | .amoAdd d x y p _ | .amoSmin d x y p _ | .amoSmax d x y p _ | .amoZmin d x y p _ | .amoZmax d x y p _ | .amoAnd d x y p _
  | .amoOr d x y p _ | .amoXor d x y p _ | .amoSwap d x y p _ => d.wf && x.wf && y.wf && wfPol p
  | .amoCas d x y p _ => d.wf && x.wf && decide (y % 2 = 0 ∧ y < 64) && wfPol p
  | .amoFadd d x y p | .amoFmin d x y p | .amoFmax d x y p => d.wf && x.wf && y.wf && wfPol p
  | .redAdd x y p _ | .redSmin x y p _ | .redSmax x y p _ | .redZmin x y p _ | .redZmax x y p _ | .redAnd x y p _
  | .redOr x y p _ | .redXor x y p _ | .redSwap x y p _ => x.wf && y.wf && wfPol p
  | .redCas x y p _ => x.wf && decide (y % 2 = 0 ∧ y < 64) && wfPol p
  | .redFadd x y p | .redFmin x y p | .redFmax x y p => x.wf && y.wf && wfPol p
  | .ldx d x y p _ => d.wf && x.wf && y.wf && wfPol p
  | .stx d x y p _ => d.wf && x.wf && y.wf && wfPol p
  | .amx op d x y p t => d.wf && (match d with | .reg n => decide (n < 48) | .queue => decide (op ≠ .cas)) && wfPair x && y.wfLow
      && wfPol p && wfAmoTy op t
  | .redx op x y p t => wfPair x && y.wfLow && wfPol p && wfAmoTy op t
  | .fence m s => wfNat 16 m && wfNat 2 s
  | .pref x y p | .pin x y p | .unpin x y p | .flush x y p | .inval x y p => x.wf && y.wf && wfPol p
  | .vadd d x y _ | .vsub d x y _ | .vmul d x y _ | .vmin d x y _ | .vmax d x y _ | .vcpys d x y _ | .vdiv d x y _ =>
    d.wf && x.wf && y.wf
  | .vfma d x y _ | .vfms d x y _ => wfVReg d && x.wf && y.wf
  | .vabs d x _ | .vneg d x _ | .vrcp d x _ | .vrsq d x _ | .vsqrt d x _ | .vexp2 d x _ | .vlog2 d x _ | .vflr d x _
  | .vrnd d x _ => d.wf && x.wf
  | .viadd d x y _ | .visub d x y _ | .vimul d x y _ | .vand d x y _ | .vor d x y _ | .vxor d x y _ | .vshl d x y _
  | .vshr d x y _ | .vimin d x y _ | .vimax d x y _ => d.wf && x.wf && y.wf
  | .viabs d x => d.wf && x.wf
  | .vcmpeq x y _ | .vcmpne x y _ | .vcmplt x y _ | .vcmple x y _ | .vcmpgt x y _ | .vcmpge x y _ => x.wf && y.wf
  | .vcmpun x y _ => x.wf && y.wf
  | .vsel d x y _ => d.wf && x.wf && y.wf
  | .vcvt d x s t part m =>
    d.wf && x.wf && wfCvt s t part
      && (match m with | none => true | some r => decide (r ≤ 4))
  | .vxsum d x _ | .vrmax d x _ | .vrmin d x _ | .vargmax d x _ => d.wf && x.wf
  | .vscan d x _ => d.wf && x.wf
  | .visum d x _ => d.wf && x.wf
  | .vpopm d => d.wf
  | .vbcst d x _ => d.wf && x.wf
  | .vext d x y _ => d.wf && x.wf && y.wf
  | .vins d x y _ => wfVReg d && x.wf && y.wf
  | .vrot d x y _ => d.wf && x.wf && y.wf
  | .vperm d x y _ => d.wf && x.wf && y.wf
  | .viota d _ => d.wf
  | .mpush x | .mset x => x.wf
  | .minv | .mpop | .mall => true
  | .mget d => d.wf
  | .vld v x o | .vldn v x o => v.wf && x.wf && wfInt 17 o
  | .vst v x o | .vstn v x o => v.wf && x.wf && wfInt 17 o
  | .vgath v x y _ _ => v.wf && x.wf && y.wf
  | .vscat v x y _ _ => v.wf && x.wf && y.wf
  | .vlds v x y _ => v.wf && x.wf && y.wf
  | .mmac c a b k _ | .mmul c a b k _ => c.wf && a.wf && decide (1 ≤ b ∧ b < 32) && k.wfLow
  | .mzero c => c.wf
  | .mloadc c _ x | .mdrain c x => c.wf && x.wf
  | .mwait => true
  | .mstat d _ c => d.wf && decide (c < 8)
  | .manch k a b => k.wfLow && wfPair a && wfPair b
  | .txpi v _ g => v.wf && decide (g < 8)
  | .txpo v _ g => v.wf && decide (g < 8)
  | .txpc _ => true
  | .setf x => x.wf
  | .getf d => d.wf
  | .exch n x y s | .exsb n x y s | .exccFsum n x y s | .exccIsum n x y s | .exccLsum n x y s | .exccFmax n x y s
  | .exccFmin n x y s | .exccImax n x y s | .exccImin n x y s | .exccBand n x y s | .exccBor n x y s =>
    wfDim n && x.wf && y.wf && wfNat 8 s
  | .trav d x y _ s => d.wf && x.wf && y.wf && wfNat 8 s
  | .exmd d x y k _ s => d.wf && x.wf && y.wf && k.wf && wfNat 8 s
  | .mcast d x y p | .mcasto d x y p => d.wf && x.wf && y.wf && wfPol p
  | .probe x y => x.wf && y.wf
  | .lstat d x => d.wf && x.wf
  | .cpyl x _ | .cpy2 x _ | .cpyw x _ => x.wf
  | .cpyx x y _ => x.wf && y.wf
  | .waita _ x y => x.wf && y.wf
  | .sigw d x y p => d.wf && x.wf && y.wf && wfPol p
  | .bacq x | .brel x | .waite x => x.wf
  | .gbind x y => x.wf && y.wf
  | .gmask p x => wfPred p && x.wf
  | .gstep d x => d.wf && x.wf
  | .gstat d => d.wf
  | .sample d x p => d.wf && wfPair x && wfPred p
  | .rand d x => d.wf && x.wf
  | .rands d x => d.wf && x.wf
  | .rgn x y => x.wf && y.wf
  | .cmt | .rend | .rabt => true
  | .rstat d => d.wf
  | .bar x | .gsig x | .gwait x => x.wf
  | .launch d x => d.wf && x.wf
  | .exit x => x.wf
  | .yield | .rft => true
  | .shoot n x y => n.wf && x.wf && y.wf
  | .selft d x => d.wf && x.wf
  | .tlbp d x y => d.wf && x.wf && y.wf
  | .tlbi x y => x.wf && y.wf
  | .qrst x => x.wf
  | .ctxs x y => x.wf && y.wf
  | .resultLanding | .resultArrival | .branchRedirectDue | .outsideRegionLimit | .regionCommit | .chunkCommit
  | .bufferEntryDrain | .mmacExecute | .manchExecute | .mzeroExecute | .mloadcExecute | .mdrainExecute | .scatterComplete
  | .copyAdmission | .copyComplete | .engineError | .vaultAcquisitionGrant | .vaultReleaseComplete | .scrubComplete
  | .exchangePostArrival | .exchangeDataArrival | .exchangeAckArrival | .linkPacketArrival | .linkDown | .linkRepair | .route
  | .flowPacketArrival | .sequenceAckSend | .sequenceAckArrival | .retransmitTimeout | .flowRetire | .remoteResponseArrival
  | .suspectTimeout | .pilotTokenArrival | .ejectionReportArrival | .tokenLossTimeout | .waitProbeArrival | .probeTimeout
  | .shootDownArrival | .shootDownAcknowledge | .shootDownAckArrival | .gmaskExecute | .sampleExecute | .slotWrite | .queueStart
  | .graceExpiry | .presenceNoticeArrival | .serviceHoldTimeout | .watchdogExpiry | .barrierArrival | .barrierStepArrival
  | .fenceNoticeArrival | .releaseNoticeArrival | .quarantineNoticeArrival | .uncorrectableError | .correctableError
  | .selftComplete | .hostInterrupt | .hostMemoryWrite | .hostMemoryRead | .nodeReset | .traceOn | .dataMode
  | .breakpointHaltsEnabled | .releaseHalt | .trrdWrite | .elrdWrite | .fencerel | .migrq | .featack | .hintClear | .hintenWrite
  | .msixUnmask | .pstateWrite | .powerStateChange | .flashBlockWrite | .flashWriteDone | .flashSlotSelect | .attestationRequest
  | .attestationComplete | .hostRegisterWrite | .powerOn | .throttle | .thermalTrip | .illegalEncoding
  | .translationWalkComplete | .telemetryRefresh | .powerLoss => true

end Instr

end Sys2Proof
end

