-- ==== Sys2Proof/Decode.lean ====
section
/-! DEFINITION. From the bytes of a bundle to its instructions and back: the slot formats of 01_bundles R15 to R32, the operand
selectors of 02_registers R51 and R52, and the refusals of R42, each by a name. -/

namespace Sys2Proof

/-- Why a slot word is an illegal encoding (R42). -/
inductive DecodeErr where
  | headerMode | headerPlace | major | minor | type | unusedField | dest | source | high | extension | operand | loneRemoteAtomic
  deriving DecidableEq, Repr

/-- What the header lends to a slot (R16, R17, R18). -/
inductive Ext where
  | none
  | guard (p : Nat) (neg dh xh yh : Bool)
  | imm (b : Nat)
  deriving DecidableEq, Repr

/-- A slot as it issues: its guard and its instruction (R16, R18). -/
structure Slot where
  guard : Nat
  neg   : Bool
  instr : Instr
  deriving DecidableEq, Repr

/-- Bits [lo+n-1:lo] of a word. -/
def fld (w lo n : Nat) : Nat := w / 2 ^ lo % 2 ^ n

def fMaj (w : Nat) : Nat := fld w 26 6
def fD (w : Nat) : Nat := fld w 20 6
def fX (w : Nat) : Nat := fld w 14 6
def fY (w : Nat) : Nat := fld w 8 6
def fMin (w : Nat) : Nat := fld w 3 5
def fTy (w : Nat) : Nat := fld w 0 3
def fBit (w lo : Nat) : Bool := fld w lo 1 == 1

namespace Ext

def dh : Ext → Bool | .guard _ _ h _ _ => h | _ => false
def xh : Ext → Bool | .guard _ _ _ h _ => h | _ => false
def yh : Ext → Bool | .guard _ _ _ _ h => h | _ => false
/-- The byte lent in immediate mode. -/
def byte : Ext → Nat | .imm b => b | _ => 0
def isImm : Ext → Bool | .imm _ => true | _ => false
def pred : Ext → Nat | .guard p _ _ _ _ => p | _ => 0
def neg : Ext → Bool | .guard _ n _ _ _ => n | _ => false

end Ext

/-- R42: a condition that an encoding must meet. -/
def need (b : Bool) (e : DecodeErr) : Except DecodeErr Unit := if b then .ok () else .error e

/-- R17: a slot without an extensible field receives the byte 0x00. -/
def Ext.plain (e : Ext) : Except DecodeErr Unit := need (e.byte == 0) .extension
/-- R16: a high bit where no register field stands. -/
def Ext.noD (e : Ext) : Except DecodeErr Unit := need (!e.dh) .high
def Ext.noX (e : Ext) : Except DecodeErr Unit := need (!e.xh) .high
def Ext.noY (e : Ext) : Except DecodeErr Unit := need (!e.yh) .high

/-- An unused field and its high bit (R20, R42). -/
def zeroD (w : Nat) (e : Ext) : Except DecodeErr Unit := do need (fD w == 0) .unusedField; e.noD
def zeroX (w : Nat) (e : Ext) : Except DecodeErr Unit := do need (fX w == 0) .unusedField; e.noX
def zeroY (w : Nat) (e : Ext) : Except DecodeErr Unit := do need (fY w == 0) .unusedField; e.noY
/-- A type field that must be 000. -/
def zeroT (w : Nat) : Except DecodeErr Unit := need (fTy w == 0) .type

/-- R51, scalar source. -/
def sSrc (h : Bool) (n : Nat) : Except DecodeErr SSrc :=
  if h then (if n < 16 then .ok (.reg (48 + n)) else .error .source)
  else if n < 48 then .ok (.reg n) else .ok (.q (n - 48))

/-- R52, scalar destination. -/
def sDst (h : Bool) (n : Nat) : Except DecodeErr SDst :=
  if h then (if n < 16 then .ok (.reg (48 + n)) else .error .dest)
  else if n < 48 then .ok (.reg n) else if n = 48 then .ok .queue else .error .dest

/-- R52, a scalar field that is read and written: a named register only. -/
def sBoth (h : Bool) (n : Nat) : Except DecodeErr Nat :=
  if h then (if n < 16 then .ok (48 + n) else .error .dest) else if n < 48 then .ok n else .error .dest

/-- R51, vector source. -/
def vSrc (h : Bool) (n : Nat) : Except DecodeErr VSrc :=
  if h then (if n < 32 then .ok (.reg (48 + n)) else .error .source)
  else if n < 48 then .ok (.reg n) else .ok (.q (n - 48))

/-- R52, vector destination. -/
def vDst (h : Bool) (n : Nat) : Except DecodeErr VDst :=
  if h then (if n < 32 then .ok (.reg (48 + n)) else .error .dest)
  else if n < 48 then .ok (.reg n) else if n = 48 then .ok .queue else .error .dest

/-- R52, a vector field that is read and written. -/
def vBoth (h : Bool) (n : Nat) : Except DecodeErr Nat :=
  if h then (if n < 32 then .ok (48 + n) else .error .dest) else if n < 48 then .ok n else .error .dest

/-- A predicate in a 6-bit position (R20). -/
def pSel (n : Nat) : Except DecodeErr Nat := if n < 16 then .ok n else .error .operand

/-- An even register from S2 to S46 (R27, R30). -/
def pairSel (n : Nat) : Except DecodeErr Nat := if n % 2 = 0 ∧ 2 ≤ n ∧ n ≤ 46 then .ok n else .error .operand

/-- Two's complement of an n-bit field. -/
def toSigned (n f : Nat) : Int := if f < 2 ^ (n - 1) then (f : Int) else (f : Int) - 2 ^ n

/-- R17: a signed field of n bits with the byte that immediate mode puts above it. -/
def extS (n f : Nat) (e : Ext) : Int :=
  match e with
  | .imm b => toSigned (n + 8) (b * 2 ^ n + f)
  | _ => toSigned n f

/-- R17: an unsigned field with the extension byte above it. -/
def extU (n f : Nat) (e : Ext) : Nat :=
  match e with
  | .imm b => b * 2 ^ n + f
  | _ => f

def ityOf (n : Nat) : Except DecodeErr ITy :=
  match n with | 0 => .ok .i32 | 1 => .ok .z32 | 2 => .ok .i64 | 3 => .ok .z64 | _ => .error .type
def tyOf (n : Nat) : Except DecodeErr Ty :=
  match n with
  | 0 => .ok .i32 | 1 => .ok .z32 | 2 => .ok .i64 | 3 => .ok .z64 | 4 => .ok .f32 | 5 => .ok .bf | 6 => .ok .e4
  | 7 => .ok .e5 | _ => .error .type
def ftyOf (n : Nat) : Except DecodeErr FTy := match n with | 4 => .ok .f32 | 5 => .ok .bf | _ => .error .type
def ctyOf (n : Nat) : Except DecodeErr CTy :=
  match n with | 0 => .ok .i32 | 1 => .ok .z32 | 2 => .ok .i64 | 3 => .ok .z64 | 4 => .ok .f32 | _ => .error .type
def vtyOf (n : Nat) : Except DecodeErr VTy :=
  match n with | 0 => .ok .i32 | 1 => .ok .z32 | 4 => .ok .f32 | 5 => .ok .bf | _ => .error .type
def ptyOf (n : Nat) : Except DecodeErr PTy := match n with | 0 => .ok .w32 | 5 => .ok .w16 | 6 => .ok .w8 | _ => .error .type
def atyOf (n : Nat) : Except DecodeErr ATy :=
  match n with | 0 => .ok .i32 | 1 => .ok .z32 | 2 => .ok .i64 | 3 => .ok .z64 | 4 => .ok .f32 | _ => .error .type
/-- The type of the integer lanes of VIA and VISUM: true for .i32, false for .z32. -/
def sgOf (n : Nat) : Except DecodeErr Bool := match n with | 0 => .ok true | 1 => .ok false | _ => .error .type
def ewOf (n : Nat) : Except DecodeErr EW := match n with | 0 => .ok .w4 | 1 => .ok .w2 | 2 => .ok .w1 | _ => .error .operand
/-- CMPI's type field (R22, R80). -/
def cmpiTyOf (n : Nat) : ITy := match n with | 0 => .i64 | 1 => .z64 | 2 => .i32 | _ => .z32
def combOf (n : Nat) : Except DecodeErr Combine :=
  match n with | 0 => .ok .set | 1 => .ok .and | 2 => .ok .or | _ => .error .operand
def lfmtOf (n : Nat) : Except DecodeErr LFmt := match n with | 0 => .ok .lc | 1 => .ok .f32 | 2 => .ok .bf | _ => .error .operand
def wcondOf (n : Nat) : Except DecodeErr WCond := match n with | 0 => .ok .eq | 1 => .ok .ne | 2 => .ok .ge | _ => .error .operand
def amoOf (n : Nat) : Except DecodeErr AmoOp :=
  match n with
  | 0 => .ok .add | 1 => .ok .smin | 2 => .ok .smax | 3 => .ok .zmin | 4 => .ok .zmax | 5 => .ok .and | 6 => .ok .or
  | 7 => .ok .xor | 8 => .ok .swap | 9 => .ok .cas | 10 => .ok .fadd | 11 => .ok .fmin | 12 => .ok .fmax | _ => .error .operand
def tileOf (w : Nat) : Except DecodeErr TileSel :=
  if fBit w 25 then (if fld w 22 3 = 0 then .ok .ring else .error .operand) else .ok (.tile (fld w 22 3))
def aOperandOf (w : Nat) : Except DecodeErr AOperand :=
  if fld w 17 5 = 0 then .error .operand else if fBit w 5 then .ok (.vec (fld w 17 5)) else .ok (.pair (fld w 17 5))
def dirOf (n : Nat) : Dir := if n = 0 then .fwd else .bwd


/-- R21, R71, R72: ALU. -/
def decAlu (w : Nat) (e : Ext) : Except DecodeErr Instr := do
  e.plain
  let d ← sDst e.dh (fD w)
  let x ← sSrc e.xh (fX w)
  let t ← ityOf (fTy w)
  if fMin w < 16 then
    let y ← sSrc e.yh (fY w)
    match fMin w with
    | 0 => .ok (.add d x y t)
    | 1 => .ok (.sub d x y t)
    | 2 => .ok (.mul d x y t)
    | 3 => .ok (.mulh d x y t)
    | 4 => .ok (.and d x y t)
    | 5 => .ok (.or d x y t)
    | 6 => .ok (.xor d x y t)
    | 7 => .ok (.andn d x y t)
    | 8 => .ok (.shl d x y t)
    | 9 => .ok (.shr d x y t)
    | 10 => .ok (.sar d x y t)
    | 11 => .ok (.rot d x y t)
    | 12 => .ok (.min d x y t)
    | 13 => .ok (.max d x y t)
    | 14 => .ok (.div d x y t)
    | 15 => .ok (.rem d x y t)
    | _ => .error .minor
  else
    zeroY w e
    match fMin w with
    | 16 => .ok (.clz d x t)
    | 17 => .ok (.popc d x t)
    | 18 => .ok (.brev d x t)
    | _ => .error .minor

/-- R22, R74: ADDI. -/
def decAddi (w : Nat) (e : Ext) : Except DecodeErr Instr := do
  e.noY
  let d ← sDst e.dh (fD w)
  let x ← sSrc e.xh (fX w)
  .ok (.addi d x (extS 14 (fld w 0 14) e))

/-- R22, R75: LOGI. The shifts and ROTI hold their count in [5:0], the bits above are zero and the field is not extended. -/
def decLogi (w : Nat) (e : Ext) : Except DecodeErr Instr := do
  e.noY
  let d ← sDst e.dh (fD w)
  let x ← sSrc e.xh (fX w)
  let m := fld w 11 3
  if m < 3 then
    match m with
    | 0 => .ok (.andi d x (extS 11 (fld w 0 11) e))
    | 1 => .ok (.ori d x (extS 11 (fld w 0 11) e))
    | 2 => .ok (.xori d x (extS 11 (fld w 0 11) e))
    | _ => .error .minor
  else
    need (fld w 6 5 == 0) .unusedField
    e.plain
    match m with
    | 3 => .ok (.shli d x (fld w 0 6))
    | 4 => .ok (.shri d x (fld w 0 6))
    | 5 => .ok (.sari d x (fld w 0 6))
    | 6 => .ok (.roti d x (fld w 0 6))
    | _ => .error .minor

/-- R24, R76: MOVI. -/
def decMovi (w : Nat) (e : Ext) : Except DecodeErr Instr := do
  e.noX
  e.noY
  let d ← sDst e.dh (fD w)
  .ok (.movi d (extS 20 (fld w 0 20) e))

/-- R24, R76: MOVK. -/
def decMovk (w : Nat) (e : Ext) : Except DecodeErr Instr := do
  e.noX
  e.noY
  e.plain
  need (fld w 16 2 == 0) .unusedField
  let d ← sBoth e.dh (fD w)
  .ok (.movk d (fld w 18 2) (fld w 0 16))

/-- R22, R77: BITF. -/
def decBitf (w : Nat) (e : Ext) : Except DecodeErr Instr := do
  e.noY
  e.plain
  let x ← sSrc e.xh (fX w)
  need (decide (fld w 8 6 + (fld w 2 6 + 1) ≤ 64)) .operand
  match fld w 0 2 with
  | 0 =>
    let d ← sDst e.dh (fD w)
    .ok (.bext d x (fld w 8 6) (fld w 2 6 + 1))
  | 1 =>
    let d ← sDst e.dh (fD w)
    .ok (.bexs d x (fld w 8 6) (fld w 2 6 + 1))
  | 2 =>
    let d ← sBoth e.dh (fD w)
    .ok (.bins d x (fld w 8 6) (fld w 2 6 + 1))
  | _ => .error .minor

/-- R22, R78: LEA. -/
def decLea (w : Nat) (e : Ext) : Except DecodeErr Instr := do
  let d ← sDst e.dh (fD w)
  let x ← sSrc e.xh (fX w)
  let y ← sSrc e.yh (fY w)
  .ok (.lea d x y (fld w 6 2) (extS 6 (fld w 0 6) e))

/-- R21, R79: CMP. -/
def decCmp (w : Nat) (e : Ext) : Except DecodeErr Instr := do
  e.plain
  e.noD
  let c ← combOf (fld w 24 2)
  let x ← sSrc e.xh (fX w)
  let y ← sSrc e.yh (fY w)
  let t ← ctyOf (fTy w)
  if fMin w < 6 then
    match fMin w with
    | 0 => .ok (.cmpEq c (fld w 20 4) x y t)
    | 1 => .ok (.cmpNe c (fld w 20 4) x y t)
    | 2 => .ok (.cmpLt c (fld w 20 4) x y t)
    | 3 => .ok (.cmpLe c (fld w 20 4) x y t)
    | 4 => .ok (.cmpGt c (fld w 20 4) x y t)
    | 5 => .ok (.cmpGe c (fld w 20 4) x y t)
    | _ => .error .minor
  else
    need (t == .f32) .type
    match fMin w with
    | 6 => .ok (.cmpUn c (fld w 20 4) x y)
    | 7 => .ok (.cmpOrd c (fld w 20 4) x y)
    | _ => .error .minor

/-- R22, R80: CMPI. -/
def decCmpi (w : Nat) (e : Ext) : Except DecodeErr Instr := do
  e.noD
  e.noY
  let c ← combOf (fld w 24 2)
  let x ← sSrc e.xh (fX w)
  match fld w 11 3 with
  | 0 => .ok (.cmpiEq c (fld w 20 4) x (extS 9 (fld w 0 9) e) (cmpiTyOf (fld w 9 2)))
  | 1 => .ok (.cmpiNe c (fld w 20 4) x (extS 9 (fld w 0 9) e) (cmpiTyOf (fld w 9 2)))
  | 2 => .ok (.cmpiLt c (fld w 20 4) x (extS 9 (fld w 0 9) e) (cmpiTyOf (fld w 9 2)))
  | 3 => .ok (.cmpiLe c (fld w 20 4) x (extS 9 (fld w 0 9) e) (cmpiTyOf (fld w 9 2)))
  | 4 => .ok (.cmpiGt c (fld w 20 4) x (extS 9 (fld w 0 9) e) (cmpiTyOf (fld w 9 2)))
  | 5 => .ok (.cmpiGe c (fld w 20 4) x (extS 9 (fld w 0 9) e) (cmpiTyOf (fld w 9 2)))
  | _ => .error .minor

/-- R21, R81: PLOG. -/
def decPlog (w : Nat) (e : Ext) : Except DecodeErr Instr := do
  e.plain
  e.noD
  e.noX
  e.noY
  zeroT w
  let d ← pSel (fD w)
  let x ← pSel (fX w)
  let y ← pSel (fY w)
  match fMin w with
  | 0 => .ok (.pand d x y)
  | 1 => .ok (.por d x y)
  | 2 => .ok (.pxor d x y)
  | 3 => .ok (.pandn d x y)
  | 4 => do need (fY w == 0) .unusedField; .ok (.pnot d x)
  | 5 => do need (fY w == 0) .unusedField; .ok (.pmov d x)
  | 6 => do need (fX w == 0 && fY w == 0) .unusedField; .ok (.pset d)
  | 7 => do need (fX w == 0 && fY w == 0) .unusedField; .ok (.pclr d)
  | _ => .error .minor

/-- R21, R82: SEL. -/
def decSel (w : Nat) (e : Ext) : Except DecodeErr Instr := do
  e.plain
  zeroT w
  let d ← sDst e.dh (fD w)
  let x ← sSrc e.xh (fX w)
  let y ← sSrc e.yh (fY w)
  .ok (.sel d (fld w 4 4) (fBit w 3) x y)

/-- R21, R83 to R85: SFP. SFCVT holds the source code in Y[3:0]. -/
def decSfp (w : Nat) (e : Ext) : Except DecodeErr Instr := do
  e.plain
  let x ← sSrc e.xh (fX w)
  match fMin w with
  | 3 =>
    let d ← sBoth e.dh (fD w)
    let y ← sSrc e.yh (fY w)
    need (fTy w == 4) .type
    .ok (.sfma d x y)
  | 6 =>
    let d ← sDst e.dh (fD w)
    e.noY
    need (fld w 12 2 == 0) .unusedField
    need (sfcvtSrc (fld w 8 4)) .operand
    let t ← tyOf (fTy w)
    .ok (.sfcvt d x (fld w 8 4) t)
  | 7 =>
    let d ← sDst e.dh (fD w)
    zeroY w e
    need (fTy w == 4) .type
    .ok (.sfabs d x)
  | 8 =>
    let d ← sDst e.dh (fD w)
    zeroY w e
    need (fTy w == 4) .type
    .ok (.sfneg d x)
  | m =>
    let d ← sDst e.dh (fD w)
    let y ← sSrc e.yh (fY w)
    need (fTy w == 4) .type
    match m with
    | 0 => .ok (.sfadd d x y)
    | 1 => .ok (.sfsub d x y)
    | 2 => .ok (.sfmul d x y)
    | 4 => .ok (.sfmin d x y)
    | 5 => .ok (.sfmax d x y)
    | _ => .error .minor

/-- R23, R67, R86: KREG. An unassigned state-register number is an illegal encoding. -/
def decKreg (w : Nat) (e : Ext) : Except DecodeErr Instr := do
  e.plain
  e.noX
  e.noY
  zeroT w
  match fMin w with
  | 0 =>
    let d ← sDst e.dh (fD w)
    need (kAssigned (fld w 8 12)) .operand
    .ok (.getk d (fld w 8 12))
  | 1 =>
    let x ← sSrc e.dh (fD w)
    need (kAssigned (fld w 8 12)) .operand
    .ok (.setk (fld w 8 12) x)
  | _ => .error .minor

/-- R21, R99: LIDX and LCNT. -/
def decLoopq (w : Nat) (e : Ext) : Except DecodeErr Instr := do
  e.plain
  let d ← sDst e.dh (fD w)
  e.noX
  need (decide (fX w < 6)) .operand
  zeroY w e
  zeroT w
  match fMin w with
  | 0 => .ok (.lidx d (fX w))
  | 1 => .ok (.lcnt d (fX w))
  | _ => .error .minor

/-- R25, R92: BRA. -/
def decBra (w : Nat) (e : Ext) : Except DecodeErr Instr := do
  e.noD
  e.noX
  e.noY
  .ok (.bra (fld w 22 4) (fBit w 21) (extS 21 (fld w 0 21) e))

/-- R25: CALL. -/
def decCall (w : Nat) (e : Ext) : Except DecodeErr Instr := do
  e.noD
  e.noX
  e.noY
  .ok (.call (extS 26 (fld w 0 26) e))

/-- R21, R25: BRI, CALLI, RET. -/
def decJmpr (w : Nat) (e : Ext) : Except DecodeErr Instr := do
  e.plain
  let x ← sSrc e.xh (fX w)
  zeroY w e
  zeroT w
  match fMin w with
  | 0 => do zeroD w e; .ok (.bri x)
  | 1 =>
    let d ← sDst e.dh (fD w)
    .ok (.calli d x)
  | 2 => do zeroD w e; .ok (.ret x)
  | _ => .error .minor

/-- R25: LOOP. An end offset of zero is illegal. -/
def decLoop (w : Nat) (e : Ext) : Except DecodeErr Instr := do
  e.noX
  e.noY
  let x ← sSrc e.dh (fD w)
  need (decide (1 ≤ extU 20 (fld w 0 20) e)) .operand
  .ok (.loop x (extU 20 (fld w 0 20) e))

/-- R25: LOOPI. -/
def decLoopi (w : Nat) (e : Ext) : Except DecodeErr Instr := do
  e.noD
  e.noX
  e.noY
  need (decide (1 ≤ extU 12 (fld w 0 12) e)) .operand
  .ok (.loopi (fld w 12 14) (extU 12 (fld w 0 12) e))

/-- R21, R25: LEAVE. -/
def decLoopc (w : Nat) (e : Ext) : Except DecodeErr Instr := do
  e.plain
  zeroD w e
  zeroX w e
  zeroY w e
  zeroT w
  match fMin w with
  | 0 => .ok .leave
  | _ => .error .minor

/-- R25: BRM. -/
def decBrm (w : Nat) (e : Ext) : Except DecodeErr Instr := do
  e.noD
  e.noX
  e.noY
  need (fld w 21 3 == 0) .unusedField
  match fld w 24 2 with
  | 0 => .ok (.brmNone (extS 21 (fld w 0 21) e))
  | 1 => .ok (.brmAll (extS 21 (fld w 0 21) e))
  | 2 => .ok (.brmAny (extS 21 (fld w 0 21) e))
  | _ => .error .operand

/-- R25: SYS. -/
def decSys (w : Nat) (e : Ext) : Except DecodeErr Instr := do
  e.noD
  e.noX
  e.noY
  zeroT w
  match fMin w with
  | 0 => .ok (.trap (extU 18 (fld w 8 18) e))
  | 1 => .ok (.delay (extU 18 (fld w 8 18) e))
  | 2 => .ok (.brk (extU 18 (fld w 8 18) e))
  | _ => .error .minor

/-- R26: LD. -/
def decLd (w : Nat) (e : Ext) : Except DecodeErr Instr := do
  e.noY
  let d ← sDst e.dh (fD w)
  let x ← sSrc e.xh (fX w)
  let t ← tyOf (fTy w)
  .ok (.ld d x (extS 8 (fld w 3 8) e) (fld w 11 3) t)

/-- R26: ST. -/
def decSt (w : Nat) (e : Ext) : Except DecodeErr Instr := do
  e.noY
  let d ← sSrc e.dh (fD w)
  let x ← sSrc e.xh (fX w)
  let t ← tyOf (fTy w)
  .ok (.st d x (extS 8 (fld w 3 8) e) (fld w 11 3) t)

/-- R26: AMO. CAS names S(Y) and S(Y+1), Y even. -/
def decAmo (w : Nat) (e : Ext) : Except DecodeErr Instr := do
  e.plain
  let d ← sDst e.dh (fD w)
  let x ← sSrc e.xh (fX w)
  if fld w 4 4 = 9 then
    let y ← sBoth e.yh (fY w)
    need (decide (y % 2 = 0)) .operand
    .ok (.amoCas d x y (fld w 1 3) (fBit w 0))
  else
    let y ← sSrc e.yh (fY w)
    match fld w 4 4 with
    | 0 => .ok (.amoAdd d x y (fld w 1 3) (fBit w 0))
    | 1 => .ok (.amoSmin d x y (fld w 1 3) (fBit w 0))
    | 2 => .ok (.amoSmax d x y (fld w 1 3) (fBit w 0))
    | 3 => .ok (.amoZmin d x y (fld w 1 3) (fBit w 0))
    | 4 => .ok (.amoZmax d x y (fld w 1 3) (fBit w 0))
    | 5 => .ok (.amoAnd d x y (fld w 1 3) (fBit w 0))
    | 6 => .ok (.amoOr d x y (fld w 1 3) (fBit w 0))
    | 7 => .ok (.amoXor d x y (fld w 1 3) (fBit w 0))
    | 8 => .ok (.amoSwap d x y (fld w 1 3) (fBit w 0))
    | 10 => do need (!fBit w 0) .operand; .ok (.amoFadd d x y (fld w 1 3))
    | 11 => do need (!fBit w 0) .operand; .ok (.amoFmin d x y (fld w 1 3))
    | 12 => do need (!fBit w 0) .operand; .ok (.amoFmax d x y (fld w 1 3))
    | _ => .error .operand

/-- R26: RED. -/
def decRed (w : Nat) (e : Ext) : Except DecodeErr Instr := do
  e.plain
  zeroD w e
  let x ← sSrc e.xh (fX w)
  if fld w 4 4 = 9 then
    let y ← sBoth e.yh (fY w)
    need (decide (y % 2 = 0)) .operand
    .ok (.redCas x y (fld w 1 3) (fBit w 0))
  else
    let y ← sSrc e.yh (fY w)
    match fld w 4 4 with
    | 0 => .ok (.redAdd x y (fld w 1 3) (fBit w 0))
    | 1 => .ok (.redSmin x y (fld w 1 3) (fBit w 0))
    | 2 => .ok (.redSmax x y (fld w 1 3) (fBit w 0))
    | 3 => .ok (.redZmin x y (fld w 1 3) (fBit w 0))
    | 4 => .ok (.redZmax x y (fld w 1 3) (fBit w 0))
    | 5 => .ok (.redAnd x y (fld w 1 3) (fBit w 0))
    | 6 => .ok (.redOr x y (fld w 1 3) (fBit w 0))
    | 7 => .ok (.redXor x y (fld w 1 3) (fBit w 0))
    | 8 => .ok (.redSwap x y (fld w 1 3) (fBit w 0))
    | 10 => do need (!fBit w 0) .operand; .ok (.redFadd x y (fld w 1 3))
    | 11 => do need (!fBit w 0) .operand; .ok (.redFmin x y (fld w 1 3))
    | 12 => do need (!fBit w 0) .operand; .ok (.redFmax x y (fld w 1 3))
    | _ => .error .operand

/-- R27, R253, R256: LDX, STX, AMX, REDX. -/
def decRemote (w : Nat) (e : Ext) : Except DecodeErr Instr := do
  match fld w 6 2 with
  | 0 =>
    e.plain
    let d ← sDst e.dh (fD w)
    let x ← sSrc e.xh (fX w)
    let y ← sSrc e.yh (fY w)
    let t ← tyOf (fTy w)
    .ok (.ldx d x y (fld w 3 3) t)
  | 1 =>
    e.plain
    let d ← sSrc e.dh (fD w)
    let x ← sSrc e.xh (fX w)
    let y ← sSrc e.yh (fY w)
    let t ← tyOf (fTy w)
    .ok (.stx d x y (fld w 3 3) t)
  | 2 =>
    need e.isImm .loneRemoteAtomic
    need (e.byte % 16 == 0) .extension
    let op ← amoOf (e.byte / 16)
    let d ← sDst false (fD w)
    need (decide (op = .cas → d ≠ .queue)) .dest
    let x ← pairSel (fX w)
    let y ← sSrc false (fY w)
    let t ← atyOf (fTy w)
    need (wfAmoTy op t) .type
    .ok (.amx op d x y (fld w 3 3) t)
  | _ =>
    need e.isImm .loneRemoteAtomic
    need (e.byte % 16 == 0) .extension
    need (fD w == 0) .unusedField
    let op ← amoOf (e.byte / 16)
    let x ← pairSel (fX w)
    let y ← sSrc false (fY w)
    let t ← atyOf (fTy w)
    need (wfAmoTy op t) .type
    .ok (.redx op x y (fld w 3 3) t)

/-- R26: MEMC. -/
def decMemc (w : Nat) (e : Ext) : Except DecodeErr Instr := do
  e.plain
  if fMin w = 0 then
    e.noD
    e.noX
    e.noY
    zeroT w
    .ok (.fence (fld w 10 16) (fld w 8 2))
  else
    zeroD w e
    let x ← sSrc e.xh (fX w)
    let y ← sSrc e.yh (fY w)
    match fMin w with
    | 1 => .ok (.pref x y (fTy w))
    | 2 => .ok (.pin x y (fTy w))
    | 3 => .ok (.unpin x y (fTy w))
    | 4 => .ok (.flush x y (fTy w))
    | 5 => .ok (.inval x y (fTy w))
    | _ => .error .minor

/-- R21, R169: VFA. VFMA and VFMS read their destination; VABS and VNEG have one source. -/
def decVfa (w : Nat) (e : Ext) : Except DecodeErr Instr := do
  e.plain
  let x ← vSrc e.xh (fX w)
  let t ← ftyOf (fTy w)
  match fMin w with
  | 3 =>
    let d ← vBoth e.dh (fD w)
    let y ← vSrc e.yh (fY w)
    .ok (.vfma d x y t)
  | 4 =>
    let d ← vBoth e.dh (fD w)
    let y ← vSrc e.yh (fY w)
    .ok (.vfms d x y t)
  | 7 =>
    let d ← vDst e.dh (fD w)
    zeroY w e
    .ok (.vabs d x t)
  | 8 =>
    let d ← vDst e.dh (fD w)
    zeroY w e
    .ok (.vneg d x t)
  | m =>
    let d ← vDst e.dh (fD w)
    let y ← vSrc e.yh (fY w)
    match m with
    | 0 => .ok (.vadd d x y t)
    | 1 => .ok (.vsub d x y t)
    | 2 => .ok (.vmul d x y t)
    | 5 => .ok (.vmin d x y t)
    | 6 => .ok (.vmax d x y t)
    | 9 => .ok (.vcpys d x y t)
    | _ => .error .minor

/-- R21, R170: VFX. -/
def decVfx (w : Nat) (e : Ext) : Except DecodeErr Instr := do
  e.plain
  let d ← vDst e.dh (fD w)
  let x ← vSrc e.xh (fX w)
  let t ← ftyOf (fTy w)
  if fMin w = 7 then
    let y ← vSrc e.yh (fY w)
    .ok (.vdiv d x y t)
  else
    zeroY w e
    match fMin w with
    | 0 => .ok (.vrcp d x t)
    | 1 => .ok (.vrsq d x t)
    | 2 => .ok (.vsqrt d x t)
    | 3 => .ok (.vexp2 d x t)
    | 4 => .ok (.vlog2 d x t)
    | 5 => .ok (.vflr d x t)
    | 6 => .ok (.vrnd d x t)
    | _ => .error .minor

/-- R21, R171: VIA. -/
def decVia (w : Nat) (e : Ext) : Except DecodeErr Instr := do
  e.plain
  let d ← vDst e.dh (fD w)
  let x ← vSrc e.xh (fX w)
  let g ← sgOf (fTy w)
  if fMin w = 10 then
    zeroY w e
    need g .type
    .ok (.viabs d x)
  else
    let y ← vSrc e.yh (fY w)
    match fMin w with
    | 0 => .ok (.viadd d x y g)
    | 1 => .ok (.visub d x y g)
    | 2 => .ok (.vimul d x y g)
    | 3 => .ok (.vand d x y g)
    | 4 => .ok (.vor d x y g)
    | 5 => .ok (.vxor d x y g)
    | 6 => .ok (.vshl d x y g)
    | 7 => .ok (.vshr d x y g)
    | 8 => .ok (.vimin d x y g)
    | 9 => .ok (.vimax d x y g)
    | _ => .error .minor

/-- R21, R172: VCS. -/
def decVcs (w : Nat) (e : Ext) : Except DecodeErr Instr := do
  e.plain
  let x ← vSrc e.xh (fX w)
  let y ← vSrc e.yh (fY w)
  match fMin w with
  | 7 =>
    let d ← vDst e.dh (fD w)
    let t ← vtyOf (fTy w)
    .ok (.vsel d x y t)
  | 6 =>
    zeroD w e
    let t ← ftyOf (fTy w)
    .ok (.vcmpun x y t)
  | m =>
    zeroD w e
    let t ← vtyOf (fTy w)
    match m with
    | 0 => .ok (.vcmpeq x y t)
    | 1 => .ok (.vcmpne x y t)
    | 2 => .ok (.vcmplt x y t)
    | 3 => .ok (.vcmple x y t)
    | 4 => .ok (.vcmpgt x y t)
    | 5 => .ok (.vcmpge x y t)
    | _ => .error .minor

/-- R28, R173, R174: VCVT. -/
def decVcvt (w : Nat) (e : Ext) : Except DecodeErr Instr := do
  e.noY
  let d ← vDst e.dh (fD w)
  let x ← vSrc e.xh (fX w)
  need (wfCvt (fld w 10 4) (fld w 6 4) (extU 2 (fld w 4 2) e)) .operand
  if fBit w 3 then
    need (decide (fTy w ≤ 4)) .operand
    .ok (.vcvt d x (fld w 10 4) (fld w 6 4) (extU 2 (fld w 4 2) e) (some (fTy w)))
  else
    need (fTy w == 0) .unusedField
    .ok (.vcvt d x (fld w 10 4) (fld w 6 4) (extU 2 (fld w 4 2) e) none)

/-- R21, R175, R176: VRED. -/
def decVred (w : Nat) (e : Ext) : Except DecodeErr Instr := do
  e.plain
  let d ← vDst e.dh (fD w)
  zeroY w e
  if fMin w < 5 then
    let x ← vSrc e.xh (fX w)
    let t ← ftyOf (fTy w)
    match fMin w with
    | 0 => .ok (.vxsum d x t)
    | 1 => .ok (.vscan d x t)
    | 2 => .ok (.vrmax d x t)
    | 3 => .ok (.vrmin d x t)
    | 4 => .ok (.vargmax d x t)
    | _ => .error .minor
  else if fMin w = 5 then
    let x ← vSrc e.xh (fX w)
    let g ← sgOf (fTy w)
    .ok (.visum d x g)
  else if fMin w = 6 then
    zeroX w e
    zeroT w
    .ok (.vpopm d)
  else .error .minor

/-- R21, R177: VPRM. -/
def decVprm (w : Nat) (e : Ext) : Except DecodeErr Instr := do
  e.plain
  let t ← ptyOf (fTy w)
  match fMin w with
  | 0 =>
    let d ← vDst e.dh (fD w)
    let x ← sSrc e.xh (fX w)
    zeroY w e
    .ok (.vbcst d x t)
  | 1 =>
    let d ← sDst e.dh (fD w)
    let x ← vSrc e.xh (fX w)
    let y ← sSrc e.yh (fY w)
    .ok (.vext d x y t)
  | 2 =>
    let d ← vBoth e.dh (fD w)
    let x ← sSrc e.xh (fX w)
    let y ← sSrc e.yh (fY w)
    .ok (.vins d x y t)
  | 3 =>
    let d ← vDst e.dh (fD w)
    let x ← vSrc e.xh (fX w)
    let y ← sSrc e.yh (fY w)
    .ok (.vrot d x y t)
  | 4 =>
    let d ← vDst e.dh (fD w)
    let x ← vSrc e.xh (fX w)
    let y ← vSrc e.yh (fY w)
    .ok (.vperm d x y t)
  | 5 =>
    let d ← vDst e.dh (fD w)
    zeroX w e
    zeroY w e
    .ok (.viota d t)
  | _ => .error .minor

/-- R21, R168: MSK. -/
def decMsk (w : Nat) (e : Ext) : Except DecodeErr Instr := do
  e.plain
  zeroT w
  zeroY w e
  match fMin w with
  | 0 => do zeroD w e; let x ← vSrc e.xh (fX w); .ok (.mpush x)
  | 1 => do zeroD w e; zeroX w e; .ok .minv
  | 2 => do zeroD w e; zeroX w e; .ok .mpop
  | 3 => do zeroD w e; zeroX w e; .ok .mall
  | 4 => do zeroX w e; let d ← vDst e.dh (fD w); .ok (.mget d)
  | 5 => do zeroD w e; let x ← vSrc e.xh (fX w); .ok (.mset x)
  | _ => .error .minor

/-- R29, R178: VMEM. -/
def decVmem (w : Nat) (e : Ext) : Except DecodeErr Instr := do
  e.noY
  zeroT w
  let x ← sSrc e.xh (fX w)
  match fld w 3 2 with
  | 0 => do let v ← vDst e.dh (fD w); .ok (.vld v x (extS 9 (fld w 5 9) e))
  | 1 => do let v ← vDst e.dh (fD w); .ok (.vldn v x (extS 9 (fld w 5 9) e))
  | 2 => do let v ← vSrc e.dh (fD w); .ok (.vst v x (extS 9 (fld w 5 9) e))
  | _ => do let v ← vSrc e.dh (fD w); .ok (.vstn v x (extS 9 (fld w 5 9) e))

/-- R29, R180 to R182: VGS. A resumable VLDS is illegal. -/
def decVgs (w : Nat) (e : Ext) : Except DecodeErr Instr := do
  e.plain
  let x ← sSrc e.xh (fX w)
  let t ← ewOf (fld w 0 2)
  match fMin w with
  | 0 =>
    let v ← vDst e.dh (fD w)
    let y ← vSrc e.yh (fY w)
    .ok (.vgath v x y (fBit w 2) t)
  | 1 =>
    let v ← vSrc e.dh (fD w)
    let y ← vSrc e.yh (fY w)
    .ok (.vscat v x y (fBit w 2) t)
  | 2 =>
    let v ← vDst e.dh (fD w)
    let y ← sSrc e.yh (fY w)
    need (!fBit w 2) .operand
    .ok (.vlds v x y t)
  | _ => .error .minor

/-- R30, R197: MMAC and MMUL. -/
def decMmac (w : Nat) (e : Ext) : Except DecodeErr Instr := do
  e.plain
  e.noD
  e.noX
  e.noY
  zeroT w
  let c ← tileOf w
  let a ← aOperandOf w
  need (fld w 12 5 != 0) .operand
  let k ← sSrc false (fld w 6 6)
  if fBit w 3 then .ok (.mmul c a (fld w 12 5) k (fBit w 4)) else .ok (.mmac c a (fld w 12 5) k (fBit w 4))

/-- R30, R198: MCTL. -/
def decMctl (w : Nat) (e : Ext) : Except DecodeErr Instr := do
  e.plain
  zeroT w
  match fMin w with
  | 0 =>
    e.noD
    zeroX w e
    zeroY w e
    need (fld w 20 2 == 0) .unusedField
    let c ← tileOf w
    .ok (.mzero c)
  | 1 =>
    e.noD
    zeroY w e
    let c ← tileOf w
    let f ← lfmtOf (fld w 20 2)
    let x ← sSrc e.xh (fX w)
    .ok (.mloadc c f x)
  | 2 =>
    e.noD
    zeroY w e
    need (fld w 20 2 == 0) .unusedField
    let c ← tileOf w
    let x ← sSrc e.xh (fX w)
    .ok (.mdrain c x)
  | 3 => do zeroD w e; zeroX w e; zeroY w e; .ok .mwait
  | 4 =>
    e.noX
    e.noY
    let d ← sDst e.dh (fD w)
    need (decide (fX w ≤ 1)) .operand
    need (decide (fY w < 8)) .operand
    .ok (.mstat d (fBit w 14) (fY w))
  | 5 =>
    e.noD
    e.noX
    e.noY
    let k ← sSrc false (fD w)
    let a ← pairSel (fX w)
    let b ← pairSel (fY w)
    .ok (.manch k a b)
  | _ => .error .minor

/-- R30, R204: TXP. -/
def decTxp (w : Nat) (e : Ext) : Except DecodeErr Instr := do
  e.plain
  e.noX
  e.noY
  zeroT w
  need (fld w 8 8 == 0) .unusedField
  match fMin w with
  | 0 => do let v ← vSrc e.dh (fD w); .ok (.txpi v (fBit w 19) (fld w 16 3))
  | 1 => do let v ← vDst e.dh (fD w); .ok (.txpo v (fBit w 19) (fld w 16 3))
  | 2 => do zeroD w e; need (fld w 16 3 == 0) .unusedField; .ok (.txpc (fBit w 19))
  | _ => .error .minor

/-- R21, R157: SETF and GETF. -/
def decFmtq (w : Nat) (e : Ext) : Except DecodeErr Instr := do
  e.plain
  zeroY w e
  zeroT w
  match fMin w with
  | 0 => do zeroD w e; let x ← sSrc e.xh (fX w); .ok (.setf x)
  | 1 => do zeroX w e; let d ← sDst e.dh (fD w); .ok (.getf d)
  | _ => .error .minor

/-- R31: EXCH, EXSB, TRAV. The byte of immediate mode holds bits [25:18] of the signal value. -/
def decExg (w : Nat) (e : Ext) : Except DecodeErr Instr := do
  let x ← sSrc e.xh (fX w)
  let y ← sSrc e.yh (fY w)
  match fMin w with
  | 0 => do e.noD; need (fld w 20 2 == 0) .unusedField; zeroT w; need (decide (fld w 22 4 < 14)) .operand; .ok (.exch (fld w 22 4) x y e.byte)
  | 1 => do e.noD; need (fld w 20 2 == 0) .unusedField; zeroT w; need (decide (fld w 22 4 < 14)) .operand; .ok (.exsb (fld w 22 4) x y e.byte)
  | 2 => do let g ← sSrc e.dh (fD w); need (fld w 1 2 == 0) .unusedField; .ok (.trav g x y (dirOf (fld w 0 1)) e.byte)
  | _ => .error .minor

/-- R31: EXCC. -/
def decExcc (w : Nat) (e : Ext) : Except DecodeErr Instr := do
  e.noD
  need (fld w 20 2 == 0) .unusedField
  zeroT w
  need (decide (fld w 22 4 < 14)) .operand
  let x ← sSrc e.xh (fX w)
  let y ← sSrc e.yh (fY w)
  match fMin w with
  | 0 => .ok (.exccFsum (fld w 22 4) x y e.byte)
  | 1 => .ok (.exccIsum (fld w 22 4) x y e.byte)
  | 2 => .ok (.exccLsum (fld w 22 4) x y e.byte)
  | 3 => .ok (.exccFmax (fld w 22 4) x y e.byte)
  | 4 => .ok (.exccFmin (fld w 22 4) x y e.byte)
  | 5 => .ok (.exccImax (fld w 22 4) x y e.byte)
  | 6 => .ok (.exccImin (fld w 22 4) x y e.byte)
  | 7 => .ok (.exccBand (fld w 22 4) x y e.byte)
  | 8 => .ok (.exccBor (fld w 22 4) x y e.byte)
  | _ => .error .minor

/-- R31: EXMD. -/
def decExmd (w : Nat) (e : Ext) : Except DecodeErr Instr := do
  let g ← sSrc e.dh (fD w)
  let x ← sSrc e.xh (fX w)
  let y ← sSrc e.yh (fY w)
  need (fld w 0 1 == 0) .unusedField
  match fld w 6 2 with
  | 0 => do need (fld w 2 4 == 0) .unusedField; .ok (.exmd g x y .exch (fBit w 1) e.byte)
  | 1 => do need (fld w 2 4 == 0) .unusedField; .ok (.exmd g x y .exsb (fBit w 1) e.byte)
  | 2 => do need (decide (fld w 2 4 < 9)) .operand; .ok (.exmd g x y (.excc (fld w 2 4)) (fBit w 1) e.byte)
  | _ => .error .operand

/-- R31: FAB. -/
def decFab (w : Nat) (e : Ext) : Except DecodeErr Instr := do
  e.plain
  match fMin w with
  | 0 => do let g ← sSrc e.dh (fD w); let x ← sSrc e.xh (fX w); let y ← sSrc e.yh (fY w); .ok (.mcast g x y (fTy w))
  | 1 => do let g ← sSrc e.dh (fD w); let x ← sSrc e.xh (fX w); let y ← sSrc e.yh (fY w); .ok (.mcasto g x y (fTy w))
  | 2 => do zeroD w e; zeroT w; let x ← sSrc e.xh (fX w); let y ← sSrc e.yh (fY w); .ok (.probe x y)
  | 3 => do zeroY w e; zeroT w; let d ← sDst e.dh (fD w); let x ← sSrc e.xh (fX w); .ok (.lstat d x)
  | _ => .error .minor

/-- R32: CPY. -/
def decCpy (w : Nat) (e : Ext) : Except DecodeErr Instr := do
  e.plain
  need (fld w 0 2 == 0) .unusedField
  zeroD w e
  let x ← sSrc e.xh (fX w)
  match fMin w with
  | 0 => do zeroY w e; .ok (.cpyl x (fBit w 2))
  | 1 => do zeroY w e; .ok (.cpy2 x (fBit w 2))
  | 2 => do zeroY w e; .ok (.cpyw x (fBit w 2))
  | 3 => do let y ← sSrc e.yh (fY w); .ok (.cpyx x y (fBit w 2))
  | _ => .error .minor

/-- R32: SYNC. -/
def decSync (w : Nat) (e : Ext) : Except DecodeErr Instr := do
  e.plain
  let x ← sSrc e.xh (fX w)
  match fMin w with
  | 0 => do zeroD w e; need (fld w 2 1 == 0) .unusedField; let c ← wcondOf (fld w 0 2); let y ← sSrc e.yh (fY w); .ok (.waita c x y)
  | 1 => do let g ← sSrc e.dh (fD w); let y ← sSrc e.yh (fY w); .ok (.sigw g x y (fTy w))
  | 2 => do zeroD w e; zeroY w e; zeroT w; .ok (.bacq x)
  | 3 => do zeroD w e; zeroY w e; zeroT w; .ok (.brel x)
  | 4 => do zeroD w e; zeroY w e; zeroT w; .ok (.waite x)
  | _ => .error .minor

/-- R32: GRM. GMASK holds a predicate at D. -/
def decGrm (w : Nat) (e : Ext) : Except DecodeErr Instr := do
  e.plain
  zeroT w
  match fMin w with
  | 0 => do zeroD w e; let x ← sSrc e.xh (fX w); let y ← sSrc e.yh (fY w); .ok (.gbind x y)
  | 1 => do e.noD; zeroY w e; let p ← pSel (fD w); let x ← sSrc e.xh (fX w); .ok (.gmask p x)
  | 2 => do zeroY w e; let d ← sDst e.dh (fD w); let x ← sSrc e.xh (fX w); .ok (.gstep d x)
  | 3 => do zeroX w e; zeroY w e; let d ← sDst e.dh (fD w); .ok (.gstat d)
  | _ => .error .minor

/-- R32: SMP. SAMPLE names an even pair at X and a predicate at Y. -/
def decSmp (w : Nat) (e : Ext) : Except DecodeErr Instr := do
  e.plain
  zeroT w
  match fMin w with
  | 0 => do e.noX; e.noY; let d ← sDst e.dh (fD w); let x ← pairSel (fX w); let p ← pSel (fY w); .ok (.sample d x p)
  | 1 => do zeroY w e; let d ← vDst e.dh (fD w); let x ← sSrc e.xh (fX w); .ok (.rand d x)
  | 2 => do zeroY w e; let d ← sDst e.dh (fD w); let x ← sSrc e.xh (fX w); .ok (.rands d x)
  | _ => .error .minor

/-- R32: RGN. -/
def decRgn (w : Nat) (e : Ext) : Except DecodeErr Instr := do
  e.plain
  zeroT w
  match fMin w with
  | 0 => do zeroD w e; let x ← sSrc e.xh (fX w); let y ← sSrc e.yh (fY w); .ok (.rgn x y)
  | 1 => do zeroD w e; zeroX w e; zeroY w e; .ok .cmt
  | 2 => do zeroD w e; zeroX w e; zeroY w e; .ok .rend
  | 3 => do zeroD w e; zeroX w e; zeroY w e; .ok .rabt
  | 4 => do zeroX w e; zeroY w e; let d ← sDst e.dh (fD w); .ok (.rstat d)
  | _ => .error .minor

/-- R32: GRP. -/
def decGrp (w : Nat) (e : Ext) : Except DecodeErr Instr := do
  e.plain
  zeroT w
  zeroD w e
  zeroY w e
  let x ← sSrc e.xh (fX w)
  match fMin w with
  | 0 => .ok (.bar x)
  | 1 => .ok (.gsig x)
  | 2 => .ok (.gwait x)
  | _ => .error .minor

/-- R32: LCH. -/
def decLch (w : Nat) (e : Ext) : Except DecodeErr Instr := do
  e.plain
  zeroT w
  zeroY w e
  match fMin w with
  | 0 => do let d ← sDst e.dh (fD w); let x ← sSrc e.xh (fX w); .ok (.launch d x)
  | 1 => do zeroD w e; let x ← sSrc e.xh (fX w); .ok (.exit x)
  | 2 => do zeroD w e; zeroX w e; .ok .yield
  | _ => .error .minor

/-- R32: SUP. -/
def decSup (w : Nat) (e : Ext) : Except DecodeErr Instr := do
  e.plain
  zeroT w
  match fMin w with
  | 0 => do zeroD w e; zeroX w e; zeroY w e; .ok .rft
  | 1 => do let n ← sSrc e.dh (fD w); let x ← sSrc e.xh (fX w); let y ← sSrc e.yh (fY w); .ok (.shoot n x y)
  | 2 => do zeroY w e; let d ← sDst e.dh (fD w); let x ← sSrc e.xh (fX w); .ok (.selft d x)
  | 3 => do let d ← sDst e.dh (fD w); let x ← sSrc e.xh (fX w); let y ← sSrc e.yh (fY w); .ok (.tlbp d x y)
  | 4 => do zeroD w e; let x ← sSrc e.xh (fX w); let y ← sSrc e.yh (fY w); .ok (.tlbi x y)
  | 5 => do zeroD w e; zeroY w e; let x ← sSrc e.xh (fX w); .ok (.qrst x)
  | 6 => do zeroD w e; let x ← sSrc e.xh (fX w); let y ← sSrc e.yh (fY w); .ok (.ctxs x y)
  | _ => .error .minor

/-- R14: only the all-zero word of major 0x00 is legal; its extension byte is 0x00 (R18). -/
def decNop (w : Nat) (e : Ext) : Except DecodeErr Instr := do
  need (w == 0) .unusedField
  need (decide (e = .none ∨ e = .guard 0 false false false false ∨ e = .imm 0)) .extension
  .ok .nop

/-- R41: the opcode map. -/
def decodeWord (w : Nat) (e : Ext) : Except DecodeErr Instr :=
  match fMaj w with
  | 0x00 => decNop w e
  | 0x01 => decAlu w e
  | 0x02 => decAddi w e
  | 0x03 => decLogi w e
  | 0x04 => decMovi w e
  | 0x05 => decMovk w e
  | 0x06 => decBitf w e
  | 0x07 => decLea w e
  | 0x08 => decCmp w e
  | 0x09 => decCmpi w e
  | 0x0A => decPlog w e
  | 0x0B => decSel w e
  | 0x0C => decSfp w e
  | 0x0D => decKreg w e
  | 0x0E => decLoopq w e
  | 0x10 => decBra w e
  | 0x11 => decCall w e
  | 0x12 => decJmpr w e
  | 0x13 => decLoop w e
  | 0x14 => decLoopi w e
  | 0x15 => decLoopc w e
  | 0x16 => decBrm w e
  | 0x17 => decSys w e
  | 0x18 => decLd w e
  | 0x19 => decSt w e
  | 0x1A => decAmo w e
  | 0x1B => decRed w e
  | 0x1C => decRemote w e
  | 0x1D => decMemc w e
  | 0x1E => decVfa w e
  | 0x1F => decVfx w e
  | 0x20 => decVia w e
  | 0x21 => decVcs w e
  | 0x22 => decVcvt w e
  | 0x23 => decVred w e
  | 0x24 => decVprm w e
  | 0x25 => decMsk w e
  | 0x26 => decVmem w e
  | 0x27 => decVgs w e
  | 0x28 => decMmac w e
  | 0x29 => decMctl w e
  | 0x2A => decTxp w e
  | 0x2B => decFmtq w e
  | 0x2C => decExg w e
  | 0x2D => decExcc w e
  | 0x2E => decExmd w e
  | 0x2F => decFab w e
  | 0x30 => decCpy w e
  | 0x31 => decSync w e
  | 0x32 => decGrm w e
  | 0x33 => decSmp w e
  | 0x34 => decRgn w e
  | 0x35 => decGrp w e
  | 0x36 => decLch w e
  | 0x37 => decSup w e
  | 0x3F => .error .headerPlace
  | _ => .error .major

/-- A slot word with what the header lends it. -/
def decodeSlot (w : Nat) (e : Ext) : Except DecodeErr Slot := do
  let i ← decodeWord w e
  .ok ⟨e.pred, e.neg, i⟩

/-- The extension byte of a slot under the header's mode (R15, R16, R17). -/
def extOf (mode b : Nat) : Ext :=
  if mode = 0 then .guard (fld b 4 4) (fBit b 3) (fBit b 2) (fBit b 1) (fBit b 0) else .imm b

/-- What the four words of a bundle hold: an illegal header mode, or one outcome for each slot in slot order (R15, R35). A header
slot holds no instruction. -/
inductive BundleWords where
  | badMode
  | slots (l : List (Option (Except DecodeErr Slot)))
  deriving Repr

def decodeBundle (w0 w1 w2 w3 : Nat) : BundleWords :=
  if fMaj w0 = 0x3F then
    if fld w0 0 2 < 2 then
      .slots [none, some (decodeSlot w1 (extOf (fld w0 0 2) (fld w0 18 8))), some (decodeSlot w2 (extOf (fld w0 0 2) (fld w0 10 8))),
        some (decodeSlot w3 (extOf (fld w0 0 2) (fld w0 2 8)))]
    else .badMode
  else .slots [some (decodeSlot w0 .none), some (decodeSlot w1 .none), some (decodeSlot w2 .none), some (decodeSlot w3 .none)]

/-- R33, R41: the execution class of an instruction. -/
inductive XClass where
  | none | sa | br | ls | va | vx | vl | mx | tx | xc | en | sy
  deriving DecidableEq, Repr

/-- R33: how many instructions of a class one bundle may hold. -/
def XClass.limit : XClass → Nat
  | .sa | .br | .xc => 2
  | .none => 4
  | _ => 1

/-- The class of a major (R41). -/
def classOfMajor (m : Nat) : XClass :=
  if m = 0 then .none else if m ≤ 0x0E then .sa else if m ≤ 0x17 then .br else if m ≤ 0x1D then .ls else if m ≤ 0x20 then .va
  else if m ≤ 0x25 then .vx else if m ≤ 0x27 then .vl else if m ≤ 0x29 then .mx else if m = 0x2A then .tx else if m = 0x2B then .sa
  else if m ≤ 0x2F then .xc else if m ≤ 0x33 then .en else if m ≤ 0x37 then .sy else .none

/-- R34, R124: the instructions whose region class is boundary. -/
def Instr.isBoundary : Instr → Bool
  | .amoAdd .. | .amoSmin .. | .amoSmax .. | .amoZmin .. | .amoZmax .. | .amoAnd .. | .amoOr .. | .amoXor .. | .amoSwap ..
  | .amoCas .. | .amoFadd .. | .amoFmin .. | .amoFmax .. | .amx .. | .gstep .. => true
  | _ => false

/-! The encoder: the same tables, read the other way. -/

/-- A register field and its high bit. -/
structure Opr where
  f : Nat
  h : Bool
  deriving DecidableEq, Repr

/-- The words of one slot: its 32 bits, its high bits, and the byte that immediate mode must lend it, if any. -/
structure Raw where
  word : Nat
  dh : Bool
  xh : Bool
  yh : Bool
  ib : Option Nat
  deriving DecidableEq, Repr

def Opr.zero : Opr := ⟨0, false⟩
def regOpr (n : Nat) : Opr := if n < 48 then ⟨n, false⟩ else ⟨n - 48, true⟩
def SSrc.opr : SSrc → Opr | .reg n => regOpr n | .q n => ⟨48 + n, false⟩
def SDst.opr : SDst → Opr | .reg n => regOpr n | .queue => ⟨48, false⟩
def VSrc.opr : VSrc → Opr | .reg n => regOpr n | .q n => ⟨48 + n, false⟩
def VDst.opr : VDst → Opr | .reg n => regOpr n | .queue => ⟨48, false⟩
def numOpr (n : Nat) : Opr := ⟨n, false⟩

def ITy.code : ITy → Nat | .i32 => 0 | .z32 => 1 | .i64 => 2 | .z64 => 3
def Ty.code : Ty → Nat | .i32 => 0 | .z32 => 1 | .i64 => 2 | .z64 => 3 | .f32 => 4 | .bf => 5 | .e4 => 6 | .e5 => 7
def FTy.code : FTy → Nat | .f32 => 4 | .bf => 5
def CTy.code : CTy → Nat | .i32 => 0 | .z32 => 1 | .i64 => 2 | .z64 => 3 | .f32 => 4
def VTy.code : VTy → Nat | .i32 => 0 | .z32 => 1 | .f32 => 4 | .bf => 5
def PTy.code : PTy → Nat | .w32 => 0 | .w16 => 5 | .w8 => 6
def ATy.code : ATy → Nat | .i32 => 0 | .z32 => 1 | .i64 => 2 | .z64 => 3 | .f32 => 4
def EW.code : EW → Nat | .w4 => 0 | .w2 => 1 | .w1 => 2
def Combine.code : Combine → Nat | .set => 0 | .and => 1 | .or => 2
def LFmt.code : LFmt → Nat | .lc => 0 | .f32 => 1 | .bf => 2
def WCond.code : WCond → Nat | .eq => 0 | .ne => 1 | .ge => 2
def Dir.code : Dir → Nat | .fwd => 0 | .bwd => 1
def AmoOp.code : AmoOp → Nat
  | .add => 0 | .smin => 1 | .smax => 2 | .zmin => 3 | .zmax => 4 | .and => 5 | .or => 6 | .xor => 7 | .swap => 8 | .cas => 9
  | .fadd => 10 | .fmin => 11 | .fmax => 12
/-- CMPI's type field (R80). -/
def cmpiTyCode : ITy → Nat | .i64 => 0 | .z64 => 1 | .i32 => 2 | .z32 => 3
def sgCode (g : Bool) : Nat := if g then 0 else 1
def bit (b : Bool) : Nat := if b then 1 else 0
/-- Bits [25:22] of a matrix word: the ring bit and the tile. -/
def TileSel.code : TileSel → Nat | .ring => 8 | .tile n => n
def AOperand.num : AOperand → Nat | .pair p => p | .vec p => p
def AOperand.av : AOperand → Nat | .pair _ => 0 | .vec _ => 1

/-- The low n bits of a signed immediate. -/
def immF (n : Nat) (v : Int) : Nat := (v % 2 ^ n).toNat
/-- The byte that must extend a signed field of n bits, if the value does not fit it (R17). -/
def immB (n : Nat) (v : Int) : Option Nat := if wfInt n v then none else some (v / 2 ^ n % 256).toNat
/-- The same for an unsigned field. -/
def immBU (n : Nat) (v : Nat) : Option Nat := if v < 2 ^ n then none else some (v / 2 ^ n)

/-- A word with its three register positions; `lo` is bits [7:0]. -/
def raw3 (maj : Nat) (d x y : Opr) (lo : Nat) : Raw :=
  ⟨maj * 2 ^ 26 + d.f * 2 ^ 20 + x.f * 2 ^ 14 + y.f * 2 ^ 8 + lo, d.h, x.h, y.h, none⟩
/-- A word with two register positions; `lo` is bits [13:0]. -/
def raw2 (maj : Nat) (d x : Opr) (lo : Nat) (ib : Option Nat := none) : Raw :=
  ⟨maj * 2 ^ 26 + d.f * 2 ^ 20 + x.f * 2 ^ 14 + lo, d.h, x.h, false, ib⟩
/-- A word with one register position; `lo` is bits [19:0]. -/
def raw1 (maj : Nat) (d : Opr) (lo : Nat) (ib : Option Nat := none) : Raw :=
  ⟨maj * 2 ^ 26 + d.f * 2 ^ 20 + lo, d.h, false, false, ib⟩
/-- A word without a register position; `lo` is bits [25:0]. -/
def raw0 (maj lo : Nat) (ib : Option Nat := none) : Raw := ⟨maj * 2 ^ 26 + lo, false, false, false, ib⟩

def rawAmo (maj : Nat) (d x y : Opr) (op p : Nat) (w64 : Bool) : Raw := raw3 maj d x y (op * 16 + p * 2 + bit w64)
def rawExg (maj dim : Nat) (x y : SSrc) (minor s : Nat) : Raw :=
  { raw3 maj (numOpr (dim * 4)) x.opr y.opr (minor * 8) with ib := if s = 0 then none else some s }
def withSig (r : Raw) (s : Nat) : Raw := { r with ib := if s = 0 then none else some s }

/-- The encoding of an instruction; a row without an encoding gives none. -/
def encodeInstr : Instr → Option Raw
  | .nop => some (raw0 0 0)
  | .add d x y t => some (raw3 0x01 d.opr x.opr y.opr (0 * 8 + t.code))
  | .sub d x y t => some (raw3 0x01 d.opr x.opr y.opr (1 * 8 + t.code))
  | .mul d x y t => some (raw3 0x01 d.opr x.opr y.opr (2 * 8 + t.code))
  | .mulh d x y t => some (raw3 0x01 d.opr x.opr y.opr (3 * 8 + t.code))
  | .and d x y t => some (raw3 0x01 d.opr x.opr y.opr (4 * 8 + t.code))
  | .or d x y t => some (raw3 0x01 d.opr x.opr y.opr (5 * 8 + t.code))
  | .xor d x y t => some (raw3 0x01 d.opr x.opr y.opr (6 * 8 + t.code))
  | .andn d x y t => some (raw3 0x01 d.opr x.opr y.opr (7 * 8 + t.code))
  | .shl d x y t => some (raw3 0x01 d.opr x.opr y.opr (8 * 8 + t.code))
  | .shr d x y t => some (raw3 0x01 d.opr x.opr y.opr (9 * 8 + t.code))
  | .sar d x y t => some (raw3 0x01 d.opr x.opr y.opr (10 * 8 + t.code))
  | .rot d x y t => some (raw3 0x01 d.opr x.opr y.opr (11 * 8 + t.code))
  | .min d x y t => some (raw3 0x01 d.opr x.opr y.opr (12 * 8 + t.code))
  | .max d x y t => some (raw3 0x01 d.opr x.opr y.opr (13 * 8 + t.code))
  | .div d x y t => some (raw3 0x01 d.opr x.opr y.opr (14 * 8 + t.code))
  | .rem d x y t => some (raw3 0x01 d.opr x.opr y.opr (15 * 8 + t.code))
  | .clz d x t => some (raw3 0x01 d.opr x.opr .zero (16 * 8 + t.code))
  | .popc d x t => some (raw3 0x01 d.opr x.opr .zero (17 * 8 + t.code))
  | .brev d x t => some (raw3 0x01 d.opr x.opr .zero (18 * 8 + t.code))
  | .addi d x i => some (raw2 0x02 d.opr x.opr (immF 14 i) (immB 14 i))
  | .andi d x i => some (raw2 0x03 d.opr x.opr (0 * 2 ^ 11 + immF 11 i) (immB 11 i))
  | .ori d x i => some (raw2 0x03 d.opr x.opr (1 * 2 ^ 11 + immF 11 i) (immB 11 i))
  | .xori d x i => some (raw2 0x03 d.opr x.opr (2 * 2 ^ 11 + immF 11 i) (immB 11 i))
  | .shli d x n => some (raw2 0x03 d.opr x.opr (3 * 2 ^ 11 + n))
  | .shri d x n => some (raw2 0x03 d.opr x.opr (4 * 2 ^ 11 + n))
  | .sari d x n => some (raw2 0x03 d.opr x.opr (5 * 2 ^ 11 + n))
  | .roti d x n => some (raw2 0x03 d.opr x.opr (6 * 2 ^ 11 + n))
  | .movi d i => some (raw1 0x04 d.opr (immF 20 i) (immB 20 i))
  | .movk d p i => some (raw1 0x05 (regOpr d) (p * 2 ^ 18 + i))
  | .bext d x p w => some (raw2 0x06 d.opr x.opr (p * 2 ^ 8 + (w - 1) * 4 + 0))
  | .bexs d x p w => some (raw2 0x06 d.opr x.opr (p * 2 ^ 8 + (w - 1) * 4 + 1))
  | .bins d x p w => some (raw2 0x06 (regOpr d) x.opr (p * 2 ^ 8 + (w - 1) * 4 + 2))
  | .lea d x y s i => some ({ raw3 0x07 d.opr x.opr y.opr (s * 2 ^ 6 + immF 6 i) with ib := immB 6 i })
  | .cmpEq c p x y t => some (raw3 0x08 (numOpr (c.code * 16 + p)) x.opr y.opr (0 * 8 + t.code))
  | .cmpNe c p x y t => some (raw3 0x08 (numOpr (c.code * 16 + p)) x.opr y.opr (1 * 8 + t.code))
  | .cmpLt c p x y t => some (raw3 0x08 (numOpr (c.code * 16 + p)) x.opr y.opr (2 * 8 + t.code))
  | .cmpLe c p x y t => some (raw3 0x08 (numOpr (c.code * 16 + p)) x.opr y.opr (3 * 8 + t.code))
  | .cmpGt c p x y t => some (raw3 0x08 (numOpr (c.code * 16 + p)) x.opr y.opr (4 * 8 + t.code))
  | .cmpGe c p x y t => some (raw3 0x08 (numOpr (c.code * 16 + p)) x.opr y.opr (5 * 8 + t.code))
  | .cmpUn c p x y => some (raw3 0x08 (numOpr (c.code * 16 + p)) x.opr y.opr (6 * 8 + 4))
  | .cmpOrd c p x y => some (raw3 0x08 (numOpr (c.code * 16 + p)) x.opr y.opr (7 * 8 + 4))
  | .cmpiEq c p x i t => some (raw2 0x09 (numOpr (c.code * 16 + p)) x.opr (0 * 2 ^ 11 + cmpiTyCode t * 2 ^ 9 + immF 9 i) (immB 9 i))
  | .cmpiNe c p x i t => some (raw2 0x09 (numOpr (c.code * 16 + p)) x.opr (1 * 2 ^ 11 + cmpiTyCode t * 2 ^ 9 + immF 9 i) (immB 9 i))
  | .cmpiLt c p x i t => some (raw2 0x09 (numOpr (c.code * 16 + p)) x.opr (2 * 2 ^ 11 + cmpiTyCode t * 2 ^ 9 + immF 9 i) (immB 9 i))
  | .cmpiLe c p x i t => some (raw2 0x09 (numOpr (c.code * 16 + p)) x.opr (3 * 2 ^ 11 + cmpiTyCode t * 2 ^ 9 + immF 9 i) (immB 9 i))
  | .cmpiGt c p x i t => some (raw2 0x09 (numOpr (c.code * 16 + p)) x.opr (4 * 2 ^ 11 + cmpiTyCode t * 2 ^ 9 + immF 9 i) (immB 9 i))
  | .cmpiGe c p x i t => some (raw2 0x09 (numOpr (c.code * 16 + p)) x.opr (5 * 2 ^ 11 + cmpiTyCode t * 2 ^ 9 + immF 9 i) (immB 9 i))
  | .pand d x y => some (raw3 0x0A (numOpr d) (numOpr x) (numOpr y) (0 * 8))
  | .por d x y => some (raw3 0x0A (numOpr d) (numOpr x) (numOpr y) (1 * 8))
  | .pxor d x y => some (raw3 0x0A (numOpr d) (numOpr x) (numOpr y) (2 * 8))
  | .pandn d x y => some (raw3 0x0A (numOpr d) (numOpr x) (numOpr y) (3 * 8))
  | .pnot d x => some (raw3 0x0A (numOpr d) (numOpr x) .zero (4 * 8))
  | .pmov d x => some (raw3 0x0A (numOpr d) (numOpr x) .zero (5 * 8))
  | .pset d => some (raw3 0x0A (numOpr d) .zero .zero (6 * 8))
  | .pclr d => some (raw3 0x0A (numOpr d) .zero .zero (7 * 8))
  | .sel d p n x y => some (raw3 0x0B d.opr x.opr y.opr (p * 16 + bit n * 8))
  | .sfadd d x y => some (raw3 0x0C d.opr x.opr y.opr (0 * 8 + 4))
  | .sfsub d x y => some (raw3 0x0C d.opr x.opr y.opr (1 * 8 + 4))
  | .sfmul d x y => some (raw3 0x0C d.opr x.opr y.opr (2 * 8 + 4))
  | .sfmin d x y => some (raw3 0x0C d.opr x.opr y.opr (4 * 8 + 4))
  | .sfmax d x y => some (raw3 0x0C d.opr x.opr y.opr (5 * 8 + 4))
  | .sfma d x y => some (raw3 0x0C (regOpr d) x.opr y.opr (3 * 8 + 4))
  | .sfcvt d x s t => some (raw3 0x0C d.opr x.opr (numOpr s) (6 * 8 + t.code))
  | .sfabs d x => some (raw3 0x0C d.opr x.opr .zero (7 * 8 + 4))
  | .sfneg d x => some (raw3 0x0C d.opr x.opr .zero (8 * 8 + 4))
  | .getk d k => some (raw1 0x0D d.opr (k * 2 ^ 8 + 0))
  | .setk k x => some (raw1 0x0D x.opr (k * 2 ^ 8 + 8))
  | .lidx d n => some (raw3 0x0E d.opr (numOpr n) .zero 0)
  | .lcnt d n => some (raw3 0x0E d.opr (numOpr n) .zero 8)
  | .bra p n o => some (raw0 0x10 (p * 2 ^ 22 + bit n * 2 ^ 21 + immF 21 o) (immB 21 o))
  | .call o => some (raw0 0x11 (immF 26 o) (immB 26 o))
  | .bri x => some (raw3 0x12 .zero x.opr .zero 0)
  | .calli d x => some (raw3 0x12 d.opr x.opr .zero 8)
  | .ret x => some (raw3 0x12 .zero x.opr .zero 16)
  | .loop x o => some (raw1 0x13 x.opr (o % 2 ^ 20) (immBU 20 o))
  | .loopi n o => some (raw0 0x14 (n * 2 ^ 12 + o % 2 ^ 12) (immBU 12 o))
  | .leave => some (raw0 0x15 0)
  | .brmNone o => some (raw0 0x16 (0 * 2 ^ 24 + immF 21 o) (immB 21 o))
  | .brmAll o => some (raw0 0x16 (1 * 2 ^ 24 + immF 21 o) (immB 21 o))
  | .brmAny o => some (raw0 0x16 (2 * 2 ^ 24 + immF 21 o) (immB 21 o))
  | .trap i => some (raw0 0x17 (i % 2 ^ 18 * 2 ^ 8 + 0 * 8) (immBU 18 i))
  | .delay i => some (raw0 0x17 (i % 2 ^ 18 * 2 ^ 8 + 1 * 8) (immBU 18 i))
  | .brk i => some (raw0 0x17 (i % 2 ^ 18 * 2 ^ 8 + 2 * 8) (immBU 18 i))
  | .ld d x o p t => some (raw2 0x18 d.opr x.opr (p * 2 ^ 11 + immF 8 o * 8 + t.code) (immB 8 o))
  | .st d x o p t => some (raw2 0x19 d.opr x.opr (p * 2 ^ 11 + immF 8 o * 8 + t.code) (immB 8 o))
  | .amoAdd d x y p w => some (rawAmo 0x1A d.opr x.opr y.opr 0 p w)
  | .amoSmin d x y p w => some (rawAmo 0x1A d.opr x.opr y.opr 1 p w)
  | .amoSmax d x y p w => some (rawAmo 0x1A d.opr x.opr y.opr 2 p w)
  | .amoZmin d x y p w => some (rawAmo 0x1A d.opr x.opr y.opr 3 p w)
  | .amoZmax d x y p w => some (rawAmo 0x1A d.opr x.opr y.opr 4 p w)
  | .amoAnd d x y p w => some (rawAmo 0x1A d.opr x.opr y.opr 5 p w)
  | .amoOr d x y p w => some (rawAmo 0x1A d.opr x.opr y.opr 6 p w)
  | .amoXor d x y p w => some (rawAmo 0x1A d.opr x.opr y.opr 7 p w)
  | .amoSwap d x y p w => some (rawAmo 0x1A d.opr x.opr y.opr 8 p w)
  | .amoCas d x y p w => some (rawAmo 0x1A d.opr x.opr (regOpr y) 9 p w)
  | .amoFadd d x y p => some (rawAmo 0x1A d.opr x.opr y.opr 10 p false)
  | .amoFmin d x y p => some (rawAmo 0x1A d.opr x.opr y.opr 11 p false)
  | .amoFmax d x y p => some (rawAmo 0x1A d.opr x.opr y.opr 12 p false)
  | .redAdd x y p w => some (rawAmo 0x1B .zero x.opr y.opr 0 p w)
  | .redSmin x y p w => some (rawAmo 0x1B .zero x.opr y.opr 1 p w)
  | .redSmax x y p w => some (rawAmo 0x1B .zero x.opr y.opr 2 p w)
  | .redZmin x y p w => some (rawAmo 0x1B .zero x.opr y.opr 3 p w)
  | .redZmax x y p w => some (rawAmo 0x1B .zero x.opr y.opr 4 p w)
  | .redAnd x y p w => some (rawAmo 0x1B .zero x.opr y.opr 5 p w)
  | .redOr x y p w => some (rawAmo 0x1B .zero x.opr y.opr 6 p w)
  | .redXor x y p w => some (rawAmo 0x1B .zero x.opr y.opr 7 p w)
  | .redSwap x y p w => some (rawAmo 0x1B .zero x.opr y.opr 8 p w)
  | .redCas x y p w => some (rawAmo 0x1B .zero x.opr (regOpr y) 9 p w)
  | .redFadd x y p => some (rawAmo 0x1B .zero x.opr y.opr 10 p false)
  | .redFmin x y p => some (rawAmo 0x1B .zero x.opr y.opr 11 p false)
  | .redFmax x y p => some (rawAmo 0x1B .zero x.opr y.opr 12 p false)
  | .ldx d x y p t => some (raw3 0x1C d.opr x.opr y.opr (0 * 64 + p * 8 + t.code))
  | .stx d x y p t => some (raw3 0x1C d.opr x.opr y.opr (1 * 64 + p * 8 + t.code))
  | .amx op d x y p t => some ({ raw3 0x1C d.opr (numOpr x) y.opr (2 * 64 + p * 8 + t.code) with ib := some (op.code * 16) })
  | .redx op x y p t => some ({ raw3 0x1C .zero (numOpr x) y.opr (3 * 64 + p * 8 + t.code) with ib := some (op.code * 16) })
  | .fence m s => some (raw0 0x1D (m * 2 ^ 10 + s * 2 ^ 8))
  | .pref x y p => some (raw3 0x1D .zero x.opr y.opr (1 * 8 + p))
  | .pin x y p => some (raw3 0x1D .zero x.opr y.opr (2 * 8 + p))
  | .unpin x y p => some (raw3 0x1D .zero x.opr y.opr (3 * 8 + p))
  | .flush x y p => some (raw3 0x1D .zero x.opr y.opr (4 * 8 + p))
  | .inval x y p => some (raw3 0x1D .zero x.opr y.opr (5 * 8 + p))
  | .vadd d x y t => some (raw3 0x1E d.opr x.opr y.opr (0 * 8 + t.code))
  | .vsub d x y t => some (raw3 0x1E d.opr x.opr y.opr (1 * 8 + t.code))
  | .vmul d x y t => some (raw3 0x1E d.opr x.opr y.opr (2 * 8 + t.code))
  | .vmin d x y t => some (raw3 0x1E d.opr x.opr y.opr (5 * 8 + t.code))
  | .vmax d x y t => some (raw3 0x1E d.opr x.opr y.opr (6 * 8 + t.code))
  | .vcpys d x y t => some (raw3 0x1E d.opr x.opr y.opr (9 * 8 + t.code))
  | .vfma d x y t => some (raw3 0x1E (regOpr d) x.opr y.opr (3 * 8 + t.code))
  | .vfms d x y t => some (raw3 0x1E (regOpr d) x.opr y.opr (4 * 8 + t.code))
  | .vabs d x t => some (raw3 0x1E d.opr x.opr .zero (7 * 8 + t.code))
  | .vneg d x t => some (raw3 0x1E d.opr x.opr .zero (8 * 8 + t.code))
  | .vrcp d x t => some (raw3 0x1F d.opr x.opr .zero (0 * 8 + t.code))
  | .vrsq d x t => some (raw3 0x1F d.opr x.opr .zero (1 * 8 + t.code))
  | .vsqrt d x t => some (raw3 0x1F d.opr x.opr .zero (2 * 8 + t.code))
  | .vexp2 d x t => some (raw3 0x1F d.opr x.opr .zero (3 * 8 + t.code))
  | .vlog2 d x t => some (raw3 0x1F d.opr x.opr .zero (4 * 8 + t.code))
  | .vflr d x t => some (raw3 0x1F d.opr x.opr .zero (5 * 8 + t.code))
  | .vrnd d x t => some (raw3 0x1F d.opr x.opr .zero (6 * 8 + t.code))
  | .vdiv d x y t => some (raw3 0x1F d.opr x.opr y.opr (7 * 8 + t.code))
  | .viadd d x y g => some (raw3 0x20 d.opr x.opr y.opr (0 * 8 + sgCode g))
  | .visub d x y g => some (raw3 0x20 d.opr x.opr y.opr (1 * 8 + sgCode g))
  | .vimul d x y g => some (raw3 0x20 d.opr x.opr y.opr (2 * 8 + sgCode g))
  | .vand d x y g => some (raw3 0x20 d.opr x.opr y.opr (3 * 8 + sgCode g))
  | .vor d x y g => some (raw3 0x20 d.opr x.opr y.opr (4 * 8 + sgCode g))
  | .vxor d x y g => some (raw3 0x20 d.opr x.opr y.opr (5 * 8 + sgCode g))
  | .vshl d x y g => some (raw3 0x20 d.opr x.opr y.opr (6 * 8 + sgCode g))
  | .vshr d x y g => some (raw3 0x20 d.opr x.opr y.opr (7 * 8 + sgCode g))
  | .vimin d x y g => some (raw3 0x20 d.opr x.opr y.opr (8 * 8 + sgCode g))
  | .vimax d x y g => some (raw3 0x20 d.opr x.opr y.opr (9 * 8 + sgCode g))
  | .viabs d x => some (raw3 0x20 d.opr x.opr .zero (10 * 8))
  | .vcmpeq x y t => some (raw3 0x21 .zero x.opr y.opr (0 * 8 + t.code))
  | .vcmpne x y t => some (raw3 0x21 .zero x.opr y.opr (1 * 8 + t.code))
  | .vcmplt x y t => some (raw3 0x21 .zero x.opr y.opr (2 * 8 + t.code))
  | .vcmple x y t => some (raw3 0x21 .zero x.opr y.opr (3 * 8 + t.code))
  | .vcmpgt x y t => some (raw3 0x21 .zero x.opr y.opr (4 * 8 + t.code))
  | .vcmpge x y t => some (raw3 0x21 .zero x.opr y.opr (5 * 8 + t.code))
  | .vcmpun x y t => some (raw3 0x21 .zero x.opr y.opr (6 * 8 + t.code))
  | .vsel d x y t => some (raw3 0x21 d.opr x.opr y.opr (7 * 8 + t.code))
  | .vcvt d x s t part m => some (raw2 0x22 d.opr x.opr (s * 2 ^ 10 + t * 2 ^ 6 + part % 4 * 2 ^ 4 + (match m with | none => 0 | some r => 8 + r)) (immBU 2 part))
  | .vxsum d x t => some (raw3 0x23 d.opr x.opr .zero (0 * 8 + t.code))
  | .vscan d x t => some (raw3 0x23 d.opr x.opr .zero (1 * 8 + t.code))
  | .vrmax d x t => some (raw3 0x23 d.opr x.opr .zero (2 * 8 + t.code))
  | .vrmin d x t => some (raw3 0x23 d.opr x.opr .zero (3 * 8 + t.code))
  | .vargmax d x t => some (raw3 0x23 d.opr x.opr .zero (4 * 8 + t.code))
  | .visum d x g => some (raw3 0x23 d.opr x.opr .zero (5 * 8 + sgCode g))
  | .vpopm d => some (raw3 0x23 d.opr .zero .zero (6 * 8))
  | .vbcst d x t => some (raw3 0x24 d.opr x.opr .zero (0 * 8 + t.code))
  | .vext d x y t => some (raw3 0x24 d.opr x.opr y.opr (1 * 8 + t.code))
  | .vins d x y t => some (raw3 0x24 (regOpr d) x.opr y.opr (2 * 8 + t.code))
  | .vrot d x y t => some (raw3 0x24 d.opr x.opr y.opr (3 * 8 + t.code))
  | .vperm d x y t => some (raw3 0x24 d.opr x.opr y.opr (4 * 8 + t.code))
  | .viota d t => some (raw3 0x24 d.opr .zero .zero (5 * 8 + t.code))
  | .mpush x => some (raw3 0x25 .zero x.opr .zero 0)
  | .minv => some (raw0 0x25 (1 * 8))
  | .mpop => some (raw0 0x25 (2 * 8))
  | .mall => some (raw0 0x25 (3 * 8))
  | .mget d => some (raw3 0x25 d.opr .zero .zero (4 * 8))
  | .mset x => some (raw3 0x25 .zero x.opr .zero (5 * 8))
  | .vld v x o => some (raw2 0x26 v.opr x.opr (immF 9 o * 2 ^ 5 + 0 * 8) (immB 9 o))
  | .vldn v x o => some (raw2 0x26 v.opr x.opr (immF 9 o * 2 ^ 5 + 1 * 8) (immB 9 o))
  | .vst v x o => some (raw2 0x26 v.opr x.opr (immF 9 o * 2 ^ 5 + 2 * 8) (immB 9 o))
  | .vstn v x o => some (raw2 0x26 v.opr x.opr (immF 9 o * 2 ^ 5 + 3 * 8) (immB 9 o))
  | .vgath v x y r w => some (raw3 0x27 v.opr x.opr y.opr (0 * 8 + bit r * 4 + w.code))
  | .vscat v x y r w => some (raw3 0x27 v.opr x.opr y.opr (1 * 8 + bit r * 4 + w.code))
  | .vlds v x y w => some (raw3 0x27 v.opr x.opr y.opr (2 * 8 + w.code))
  | .mmac c a b k r => some (raw0 0x28 (c.code * 2 ^ 22 + a.num * 2 ^ 17 + b * 2 ^ 12 + k.opr.f * 2 ^ 6 + a.av * 32 + bit r * 16 + 0 * 8))
  | .mmul c a b k r => some (raw0 0x28 (c.code * 2 ^ 22 + a.num * 2 ^ 17 + b * 2 ^ 12 + k.opr.f * 2 ^ 6 + a.av * 32 + bit r * 16 + 1 * 8))
  | .mzero c => some (raw0 0x29 (c.code * 2 ^ 22))
  | .mloadc c f x => some (raw2 0x29 (numOpr (c.code * 4 + f.code)) x.opr (1 * 8))
  | .mdrain c x => some (raw2 0x29 (numOpr (c.code * 4)) x.opr (2 * 8))
  | .mwait => some (raw0 0x29 (3 * 8))
  | .mstat d clr c => some (raw3 0x29 d.opr (numOpr (bit clr)) (numOpr c) (4 * 8))
  | .manch k a b => some (raw3 0x29 (numOpr k.opr.f) (numOpr a) (numOpr b) (5 * 8))
  | .txpi v b g => some (raw1 0x2A v.opr (bit b * 2 ^ 19 + g * 2 ^ 16 + 0 * 8))
  | .txpo v b g => some (raw1 0x2A v.opr (bit b * 2 ^ 19 + g * 2 ^ 16 + 1 * 8))
  | .txpc b => some (raw0 0x2A (bit b * 2 ^ 19 + 2 * 8))
  | .setf x => some (raw3 0x2B .zero x.opr .zero 0)
  | .getf d => some (raw3 0x2B d.opr .zero .zero 8)
  | .exch n x y s => some (rawExg 0x2C n x y 0 s)
  | .exsb n x y s => some (rawExg 0x2C n x y 1 s)
  | .trav g x y d s => some (withSig (raw3 0x2C g.opr x.opr y.opr (2 * 8 + d.code)) s)
  | .exccFsum n x y s => some (rawExg 0x2D n x y 0 s)
  | .exccIsum n x y s => some (rawExg 0x2D n x y 1 s)
  | .exccLsum n x y s => some (rawExg 0x2D n x y 2 s)
  | .exccFmax n x y s => some (rawExg 0x2D n x y 3 s)
  | .exccFmin n x y s => some (rawExg 0x2D n x y 4 s)
  | .exccImax n x y s => some (rawExg 0x2D n x y 5 s)
  | .exccImin n x y s => some (rawExg 0x2D n x y 6 s)
  | .exccBand n x y s => some (rawExg 0x2D n x y 7 s)
  | .exccBor n x y s => some (rawExg 0x2D n x y 8 s)
  | .exmd g x y k r s => some (withSig (raw3 0x2E g.opr x.opr y.opr ((match k with | .exch => 0 | .exsb => 64 | .excc op => 128 + op * 4) + bit r * 2)) s)
  | .mcast g x y p => some (raw3 0x2F g.opr x.opr y.opr (0 * 8 + p))
  | .mcasto g x y p => some (raw3 0x2F g.opr x.opr y.opr (1 * 8 + p))
  | .probe x y => some (raw3 0x2F .zero x.opr y.opr (2 * 8))
  | .lstat d x => some (raw3 0x2F d.opr x.opr .zero (3 * 8))
  | .cpyl x r => some (raw3 0x30 .zero x.opr .zero (0 * 8 + bit r * 4))
  | .cpy2 x r => some (raw3 0x30 .zero x.opr .zero (1 * 8 + bit r * 4))
  | .cpyw x r => some (raw3 0x30 .zero x.opr .zero (2 * 8 + bit r * 4))
  | .cpyx x y r => some (raw3 0x30 .zero x.opr y.opr (3 * 8 + bit r * 4))
  | .waita c x y => some (raw3 0x31 .zero x.opr y.opr (0 * 8 + c.code))
  | .sigw g x y p => some (raw3 0x31 g.opr x.opr y.opr (1 * 8 + p))
  | .bacq x => some (raw3 0x31 .zero x.opr .zero (2 * 8))
  | .brel x => some (raw3 0x31 .zero x.opr .zero (3 * 8))
  | .waite x => some (raw3 0x31 .zero x.opr .zero (4 * 8))
  | .gbind x y => some (raw3 0x32 .zero x.opr y.opr 0)
  | .gmask p x => some (raw3 0x32 (numOpr p) x.opr .zero 8)
  | .gstep d x => some (raw3 0x32 d.opr x.opr .zero 16)
  | .gstat d => some (raw3 0x32 d.opr .zero .zero 24)
  | .sample d x p => some (raw3 0x33 d.opr (numOpr x) (numOpr p) 0)
  | .rand d x => some (raw3 0x33 d.opr x.opr .zero 8)
  | .rands d x => some (raw3 0x33 d.opr x.opr .zero 16)
  | .rgn x y => some (raw3 0x34 .zero x.opr y.opr 0)
  | .cmt => some (raw0 0x34 (1 * 8))
  | .rend => some (raw0 0x34 (2 * 8))
  | .rabt => some (raw0 0x34 (3 * 8))
  | .rstat d => some (raw3 0x34 d.opr .zero .zero 32)
  | .bar x => some (raw3 0x35 .zero x.opr .zero (0 * 8))
  | .gsig x => some (raw3 0x35 .zero x.opr .zero (1 * 8))
  | .gwait x => some (raw3 0x35 .zero x.opr .zero (2 * 8))
  | .launch d x => some (raw3 0x36 d.opr x.opr .zero 0)
  | .exit x => some (raw3 0x36 .zero x.opr .zero 8)
  | .yield => some (raw0 0x36 16)
  | .rft => some (raw0 0x37 0)
  | .shoot n x y => some (raw3 0x37 n.opr x.opr y.opr 8)
  | .selft d x => some (raw3 0x37 d.opr x.opr .zero 16)
  | .tlbp d x y => some (raw3 0x37 d.opr x.opr y.opr 24)
  | .tlbi x y => some (raw3 0x37 .zero x.opr y.opr 32)
  | .qrst x => some (raw3 0x37 .zero x.opr .zero 40)
  | .ctxs x y => some (raw3 0x37 .zero x.opr y.opr 48)
  | .resultLanding | .resultArrival | .branchRedirectDue | .outsideRegionLimit | .regionCommit | .chunkCommit
  | .bufferEntryDrain | .mmacExecute | .manchExecute | .mzeroExecute | .mloadcExecute | .mdrainExecute | .scatterComplete
  | .copyAdmission | .copyComplete | .engineError | .vaultAcquisitionGrant | .vaultReleaseComplete | .scrubComplete
  | .exchangePostArrival | .exchangeDataArrival | .exchangeAckArrival | .linkPacketArrival | .linkDown | .linkRepair | .route
  | .flowPacketArrival | .sequenceAckSend | .sequenceAckArrival | .retransmitTimeout | .flowRetire | .remoteResponseArrival
  | .suspectTimeout | .pilotTokenArrival | .ejectionReportArrival | .tokenLossTimeout | .waitProbeArrival | .probeTimeout
  | .shootDownArrival | .shootDownAcknowledge | .shootDownAckArrival | .gmaskExecute | .sampleExecute | .slotWrite | .queueStart
  | .graceExpiry | .presenceNoticeArrival | .serviceHoldTimeout | .watchdogExpiry | .barrierArrival | .barrierStepArrival
  | .fenceNoticeArrival | .releaseNoticeArrival | .quarantineNoticeArrival | .uncorrectableError | .correctableError
  | .selftComplete | .hostInterrupt | .hostMemoryWrite | .hostMemoryRead | .nodeReset | .traceOn | .dataMode
  | .breakpointHaltsEnabled | .releaseHalt | .trrdWrite | .elrdWrite | .fencerel | .migrq | .featack | .hintClear | .hintenWrite
  | .msixUnmask | .pstateWrite | .powerStateChange | .flashBlockWrite | .flashWriteDone | .flashSlotSelect | .attestationRequest
  | .attestationComplete | .hostRegisterWrite | .powerOn | .throttle | .thermalTrip | .illegalEncoding
  | .translationWalkComplete | .telemetryRefresh | .powerLoss => none

/-- What a slot's header must lend it: nothing, the byte of immediate mode, or a guard with its high bits (R16, R17, R18). -/
def extFor (g : Nat) (neg : Bool) (r : Raw) : Ext :=
  match r.ib with
  | some b => .imm b
  | none => if g = 0 && !neg && !r.dh && !r.xh && !r.yh then .none else .guard g neg r.dh r.xh r.yh

/-- The word and the extension of a slot. -/
def encodeSlot (s : Slot) : Option (Nat × Ext) := (encodeInstr s.instr).map fun r => (r.word, extFor s.guard s.neg r)

/-- The slots that some bundle holds: R17 forbids a guard and a high bit in immediate mode, R18 an extension byte on NOP. -/
def Slot.wf (s : Slot) : Bool :=
  s.instr.wf && decide (s.guard < 16) && (match encodeInstr s.instr with
    | none => false
    | some r => (r.ib.isNone || (decide (s.guard = 0) && !s.neg && !r.dh && !r.xh && !r.yh))
        && (decide (s.instr ≠ .nop) || (decide (s.guard = 0) && !s.neg)))

/-- The extension byte that a header in guard mode or immediate mode holds for a slot (R16, R17). -/
def Ext.toByte : Ext → Nat
  | .none => 0
  | .imm b => b
  | .guard p n d x y => p * 16 + bit n * 8 + bit d * 4 + bit x * 2 + bit y

/-- The decoder on a table word: the slot without a header, or, for AMX and REDX, with the byte 0x00 that a header in immediate mode
lends them (R27). -/
def tableExt (w : Nat) : Ext := if fMaj w = 0x1C ∧ 2 ≤ fld w 6 2 then .imm 0 else .none

def decodeTableWord (nbits w : Nat) : Option Instr :=
  if nbits ≤ 32 ∧ w < 2 ^ 32 then
    match decodeSlot w (tableExt w) with
    | .ok s => some s.instr
    | .error _ => none
  else none

end Sys2Proof
end

