-- ==== Sys2Proof/Machine/Operands.lean ====
section
/-! DEFINITION. Operands: what each register selector reads (02_registers R51 to R58, R64), which registers each instruction names as
sources and destinations (R119), and the scoreboard (01_bundles R37). -/

namespace Sys2Proof.Machine

/-- The registers an instruction names: sources, destinations, and the units of R119 that its opcode implies. -/
structure Uses where
  s  : List SSrc := []
  v  : List VSrc := []
  p  : List Nat := []
  sd : Option SDst := none
  vd : Option VDst := none
  pd : Option Nat := none
  /-- writes its vector destination under the mask (R166) -/
  masked : Bool := false
  y  : List Nat := []
  ring : Bool := false
  lv : Option Nat := none
  tpR : Option Bool := none
  tpW : Option Bool := none
  deriving DecidableEq, Repr

def regS (n : Nat) : SSrc := .reg n
def regV (n : Nat) : VSrc := .reg n

/-- A tile selector that reads MRING (R69). -/
def tileIsRing : TileSel → Bool
  | .ring => true
  | .tile _ => false

/-- The scalar registers of an A operand; its vectors are named by its descriptor (R197). -/
def aSregs : AOperand → List SSrc
  | .pair p => [regS (2 * p), regS (2 * p + 1)]
  | .vec _ => []

def combReads : Combine → Bool
  | .set => false
  | _ => true

/-- The bytes of an element of a format that VCVT names (R138). -/
def cvtWidth (code : Nat) : Nat :=
  match code with
  | 0 => 4 | 1 => 2 | 2 => 1 | 3 => 1 | 6 => 1 | 7 => 4 | 8 => 4 | _ => 8

/-- The source registers and destinations of every encoded row. -/
def usesOf : Instr → Uses
  | .add d x y _ | .sub d x y _ | .mul d x y _ | .mulh d x y _ | .and d x y _ | .or d x y _ | .xor d x y _ | .andn d x y _
  | .shl d x y _ | .shr d x y _ | .sar d x y _ | .rot d x y _ | .min d x y _ | .max d x y _ | .div d x y _ | .rem d x y _ =>
    { s := [x, y], sd := some d }
  | .clz d x _ | .popc d x _ | .brev d x _ => { s := [x], sd := some d }
  | .addi d x _ | .andi d x _ | .ori d x _ | .xori d x _ => { s := [x], sd := some d }
  | .shli d x _ | .shri d x _ | .sari d x _ | .roti d x _ => { s := [x], sd := some d }
  | .movi d _ => { sd := some d }
  | .movk d _ _ => { s := [regS d], sd := some (.reg d) }
  | .bext d x _ _ | .bexs d x _ _ => { s := [x], sd := some d }
  | .bins d x _ _ => { s := [x, regS d], sd := some (.reg d) }
  | .lea d x y _ _ => { s := [x, y], sd := some d }
  | .cmpEq c p x y _ | .cmpNe c p x y _ | .cmpLt c p x y _ | .cmpLe c p x y _ | .cmpGt c p x y _ | .cmpGe c p x y _
  | .cmpUn c p x y | .cmpOrd c p x y => { s := [x, y], p := if combReads c then [p] else [], pd := some p }
  | .cmpiEq c p x _ _ | .cmpiNe c p x _ _ | .cmpiLt c p x _ _ | .cmpiLe c p x _ _ | .cmpiGt c p x _ _ | .cmpiGe c p x _ _ =>
    { s := [x], p := if combReads c then [p] else [], pd := some p }
  | .pand d x y | .por d x y | .pxor d x y | .pandn d x y => { p := [x, y], pd := some d }
  | .pnot d x | .pmov d x => { p := [x], pd := some d }
  | .pset d | .pclr d => { pd := some d }
  | .sel d p _ x y => { s := [x, y], p := [p], sd := some d }
  | .sfadd d x y | .sfsub d x y | .sfmul d x y | .sfmin d x y | .sfmax d x y => { s := [x, y], sd := some d }
  | .sfma d x y => { s := [x, y, regS d], sd := some (.reg d) }
  | .sfcvt d x _ _ => { s := [x], sd := some d }
  | .sfabs d x | .sfneg d x => { s := [x], sd := some d }
  | .getk d k => { sd := some d, y := if 0x100 ≤ k ∧ k ≤ 0x107 then [k - 0x100] else [], ring := k == 0x051 }
  | .setk _ x => { s := [x] }
  | .lidx d n | .lcnt d n => { sd := some d, lv := some n }
  | .bra p _ _ => { p := [p] }
  | .call _ => { sd := some (.reg 62) }
  | .bri x | .ret x => { s := [x] }
  | .calli d x => { s := [x], sd := some d }
  | .loop x _ => { s := [x] }
  | .loopi .. | .leave | .brmNone _ | .brmAll _ | .brmAny _ | .trap _ | .delay _ | .brk _ | .nop => {}
  | .ld d x _ p _ => { s := [x], sd := some d, y := [p] }
  | .st d x _ p _ => { s := [x, d], y := [p] }
  | .amoAdd d x y p _ | .amoSmin d x y p _ | .amoSmax d x y p _ | .amoZmin d x y p _ | .amoZmax d x y p _ | .amoAnd d x y p _
  | .amoOr d x y p _ | .amoXor d x y p _ | .amoSwap d x y p _ => { s := [x, y], sd := some d, y := [p] }
  | .amoCas d x y p _ => { s := [x, regS y, regS (y + 1)], sd := some d, y := [p] }
  | .amoFadd d x y p | .amoFmin d x y p | .amoFmax d x y p => { s := [x, y], sd := some d, y := [p] }
  | .redAdd x y p _ | .redSmin x y p _ | .redSmax x y p _ | .redZmin x y p _ | .redZmax x y p _ | .redAnd x y p _
  | .redOr x y p _ | .redXor x y p _ | .redSwap x y p _ => { s := [x, y], y := [p] }
  | .redCas x y p _ => { s := [x, regS y, regS (y + 1)], y := [p] }
  | .redFadd x y p | .redFmin x y p | .redFmax x y p => { s := [x, y], y := [p] }
  | .ldx d x y p _ => { s := [x, y], sd := some d, y := [p] }
  | .stx d x y p _ => { s := [x, y, d], y := [p] }
  | .amx op d x y p _ =>
    { s := [regS x, regS (x + 1), y] ++ (match op, d with | .cas, .reg n => [regS n] | _, _ => []), sd := some d, y := [p] }
  | .redx _ x y p _ => { s := [regS x, regS (x + 1), y], y := [p] }
  | .fence .. => {}
  | .pref x y p | .pin x y p | .unpin x y p | .flush x y p | .inval x y p => { s := [x, y], y := [p] }
  | .vadd d x y _ | .vsub d x y _ | .vmul d x y _ | .vmin d x y _ | .vmax d x y _ | .vcpys d x y _ | .vdiv d x y _ =>
    { v := [x, y], vd := some d, masked := true }
  | .vfma d x y _ | .vfms d x y _ => { v := [x, y, regV d], vd := some (.reg d), masked := true }
  | .vabs d x _ | .vneg d x _ | .vrcp d x _ | .vrsq d x _ | .vsqrt d x _ | .vexp2 d x _ | .vlog2 d x _ | .vflr d x _
  | .vrnd d x _ => { v := [x], vd := some d, masked := true }
  | .viadd d x y _ | .visub d x y _ | .vimul d x y _ | .vand d x y _ | .vor d x y _ | .vxor d x y _ | .vshl d x y _
  | .vshr d x y _ | .vimin d x y _ | .vimax d x y _ => { v := [x, y], vd := some d, masked := true }
  | .viabs d x => { v := [x], vd := some d, masked := true }
  | .vcmpeq x y _ | .vcmpne x y _ | .vcmplt x y _ | .vcmple x y _ | .vcmpgt x y _ | .vcmpge x y _ => { v := [x, y] }
  | .vcmpun x y _ => { v := [x, y] }
  | .vsel d x y _ => { v := [x, y], vd := some d }
  | .vcvt d x a b _ _ => { v := x :: (match d with | .reg n => if cvtWidth b < cvtWidth a then [regV n] else [] | .queue => []), vd := some d, masked := true }
  | .vxsum d x _ | .vrmax d x _ | .vrmin d x _ | .vargmax d x _ => { v := [x], vd := some d }
  | .vscan d x _ => { v := [x], vd := some d, masked := true }
  | .visum d x _ => { v := [x], vd := some d }
  | .vpopm d => { vd := some d }
  | .vbcst d x _ => { s := [x], vd := some d, masked := true }
  | .vext d x y _ => { s := [y], v := [x], sd := some d }
  | .vins d x y _ => { s := [x, y], v := [regV d], vd := some (.reg d) }
  | .vrot d x y _ => { s := [y], v := [x], vd := some d, masked := true }
  | .vperm d x y _ => { v := [x, y], vd := some d, masked := true }
  | .viota d _ => { vd := some d, masked := true }
  | .mpush x | .mset x => { v := [x] }
  | .minv | .mpop | .mall => {}
  | .mget d => { vd := some d }
  | .vld v x _ | .vldn v x _ => { s := [x], vd := some v }
  | .vst v x _ | .vstn v x _ => { s := [x], v := [v] }
  | .vgath v x y _ _ => { s := [x], v := [y], vd := some v, masked := true }
  | .vscat v x y _ _ => { s := [x], v := [v, y] }
  | .vlds v x y _ => { s := [x, y], vd := some v, masked := true }
  | .mmac c a b k _ | .mmul c a b k _ =>
    { s := aSregs a ++ [regS (2 * b), regS (2 * b + 1), k], ring := tileIsRing c }
  | .mzero c => { ring := tileIsRing c }
  | .mloadc c _ x | .mdrain c x => { s := [x], ring := tileIsRing c }
  | .mwait => {}
  | .mstat d _ _ => { sd := some d }
  | .manch k a b => { s := [k, regS a, regS (a + 1), regS b, regS (b + 1)] }
  | .txpi v b _ => { v := [v], tpW := some b }
  | .txpo v b _ => { vd := some v, tpR := some b }
  | .txpc b => { tpW := some b }
  | .setf x => { s := [x] }
  | .getf d => { sd := some d }
  | .exch _ x y _ | .exsb _ x y _ | .exccFsum _ x y _ | .exccIsum _ x y _ | .exccLsum _ x y _ | .exccFmax _ x y _
  | .exccFmin _ x y _ | .exccImax _ x y _ | .exccImin _ x y _ | .exccBand _ x y _ | .exccBor _ x y _ => { s := [x, y] }
  | .trav g x y _ _ => { s := [g, x, y] }
  | .exmd g x y _ _ _ => { s := [g, x, y] }
  | .mcast g x y p | .mcasto g x y p => { s := [g, x, y], y := [p] }
  | .probe x y => { s := [x, y] }
  | .lstat d x => { s := [x], sd := some d }
  | .cpyl x _ | .cpy2 x _ | .cpyw x _ => { s := [x] }
  | .cpyx x y _ => { s := [x, y] }
  | .waita _ x y => { s := [x, y] }
  | .sigw g x y p => { s := [g, x, y], y := [p] }
  | .bacq x | .brel x | .waite x => { s := [x] }
  | .gbind x y => { s := [x, y] }
  | .gmask p x => { s := [x], pd := some p }
  | .gstep d x => { s := [x], sd := some d }
  | .gstat d => { sd := some d }
  | .sample d x p => { s := [regS x, regS (x + 1)], sd := some d, pd := some p }
  | .rand d x => { s := [x], vd := some d, masked := true }
  | .rands d x => { s := [x], sd := some d }
  | .rgn x y => { s := [x, y] }
  | .cmt | .rend | .rabt => {}
  | .rstat d => { sd := some d }
  | .bar x | .gsig x | .gwait x | .exit x | .qrst x => { s := [x] }
  | .launch d x | .selft d x => { s := [x], sd := some d }
  | .yield | .rft => {}
  | .shoot n x y => { s := [n, x, y] }
  | .tlbp d x y => { s := [x, y], sd := some d }
  | .tlbi x y | .ctxs x y => { s := [x, y] }
  | .resultLanding | .resultArrival | .branchRedirectDue | .outsideRegionLimit | .regionCommit | .chunkCommit | .bufferEntryDrain
  | .mmacExecute | .manchExecute | .mzeroExecute | .mloadcExecute | .mdrainExecute | .scatterComplete | .copyAdmission
  | .copyComplete | .engineError | .vaultAcquisitionGrant | .vaultReleaseComplete | .scrubComplete | .exchangePostArrival
  | .exchangeDataArrival | .exchangeAckArrival | .linkPacketArrival | .linkDown | .linkRepair | .route | .flowPacketArrival
  | .sequenceAckSend | .sequenceAckArrival | .retransmitTimeout | .flowRetire | .remoteResponseArrival | .suspectTimeout
  | .pilotTokenArrival | .ejectionReportArrival | .tokenLossTimeout | .waitProbeArrival | .probeTimeout | .shootDownArrival
  | .shootDownAcknowledge | .shootDownAckArrival | .gmaskExecute | .sampleExecute | .slotWrite | .queueStart | .graceExpiry
  | .presenceNoticeArrival | .serviceHoldTimeout | .watchdogExpiry | .barrierArrival | .barrierStepArrival | .fenceNoticeArrival
  | .releaseNoticeArrival | .quarantineNoticeArrival | .uncorrectableError | .correctableError | .selftComplete | .hostInterrupt
  | .hostMemoryWrite | .hostMemoryRead | .nodeReset | .traceOn | .dataMode | .breakpointHaltsEnabled | .releaseHalt | .trrdWrite
  | .elrdWrite | .fencerel | .migrq | .featack | .hintClear | .hintenWrite | .msixUnmask | .pstateWrite | .powerStateChange
  | .flashBlockWrite | .flashWriteDone | .flashSlotSelect | .attestationRequest | .attestationComplete | .hostRegisterWrite
  | .powerOn | .throttle | .thermalTrip | .illegalEncoding | .translationWalkComplete | .telemetryRefresh | .powerLoss => {}

/-! ## Reading -/

/-- R54, R64: S0 reads zero; in supervisor mode S48-S63 are the supervisor's copy. -/
def Regs.readS (r : Regs) (sup : Bool) (n : Nat) : DWord :=
  if n = 0 then 0
  else if sup && decide (48 ≤ n) then (r.sup[n - 48]?).getD 0
  else (r.s[n]?).getD 0

/-- R61: P0 reads true. -/
def Regs.readP (r : Regs) (n : Nat) : Bool := n == 0 || r.p.getLsbD n

/-- R58: an empty entry reads zero. -/
def QEntry.value {w : Nat} : QEntry (BitVec w) → BitVec w
  | .full v => v
  | _ => 0

def QEntry.isPending {α : Type} : QEntry α → Bool
  | .pending _ => true
  | _ => false

def State.srcS (s : State) : SSrc → DWord
  | .reg n => s.regs.readS s.k.priv n
  | .q n => (s.regs.q[n]?.getD .empty).value

def State.srcV (s : State) : VSrc → VReg
  | .reg n => (s.regs.v[n]?).getD 0
  | .q n => (s.regs.qv[n]?.getD .empty).value

def State.srcP (s : State) (n : Nat) : Bool := s.regs.readP n

/-- A policy register (R63). -/
def State.srcY (s : State) (n : Nat) : BitVec 32 := (s.regs.y[n]?).getD 0

def polClass (y : BitVec 32) : Nat := bits y 0 4
def polScope (y : BitVec 32) : Nat := bits y 4 2
def polAcquire (y : BitVec 32) : Bool := y.getLsbD 6
def polRelease (y : BitVec 32) : Bool := y.getLsbD 7
def polT1 (y : BitVec 32) : Nat := bits y 16 8
def polT2 (y : BitVec 32) : Nat := bits y 24 8

/-! ## The scoreboard (R37) -/

def Wait.outstanding (w : Wait) : Bool := w.arrived == .no

/-- A scalar register is pending: some variable-latency result for it has not arrived. S48-S63 are one register in each mode. -/
def State.pendS (s : State) (n : Nat) : Bool :=
  n != 0 && s.pipe.waits.any fun w => w.outstanding && w.sd == some (.reg n) && (decide (n < 48) || w.sup == s.k.priv)

def State.pendV (s : State) (n : Nat) : Bool := s.pipe.waits.any fun w => w.outstanding && w.vd == some (.reg n)

def State.pendP (s : State) (n : Nat) : Bool := n != 0 && s.pipe.waits.any fun w => w.outstanding && w.pd == some n

def State.srcPending (s : State) : SSrc → Bool
  | .reg n => s.pendS n
  | .q _ => false

def State.vsrcPending (s : State) : VSrc → Bool
  | .reg n => s.pendV n
  | .q _ => false

def State.queuePending (s : State) (u : Uses) : Bool :=
  (u.s.any fun x => match x with | .q n => (s.regs.q[n]?.getD .empty).isPending | _ => false)
    || (u.v.any fun x => match x with | .q n => (s.regs.qv[n]?.getD .empty).isPending | _ => false)

/-- The stall cause (R111) of a slot whose operands are not all there: a pending source (the guard among them), a pending destination,
a pending queue entry. A slot that `acts` not keeps the interlocks on its sources alone (R19). Where several hold at once, the spec names no
order: the source comes first, then the destination, then the queue entry, and the lowest slot before the others (log 81). -/
def State.interlock (s : State) (acts : Bool) (guard : Nat) (u : Uses) : Option Nat :=
  if s.pendP guard || u.s.any s.srcPending || u.v.any s.vsrcPending || u.p.any s.pendP then some 0x01
  else if acts && ((match u.sd with | some (.reg n) => s.pendS n | _ => false) || (match u.vd with | some (.reg n) => s.pendV n | _ => false)
      || (match u.pd with | some n => s.pendP n | none => false)) then some 0x02
  else if s.queuePending u then some 0x03
  else none

/-! ## The units of R119 -/

def sSrcUnits : SSrc → List TUnit
  | .reg n => if n = 0 then [] else [.s n]
  | .q _ => []

def vSrcUnits : VSrc → List TUnit
  | .reg n => [.v n]
  | .q _ => []

def sDstUnits : SDst → List TUnit
  | .reg n => if n = 0 then [] else [.s n]
  | .queue => []

def vDstUnits : VDst → List TUnit
  | .reg n => [.v n]
  | .queue => []

def predUnits (n : Nat) : List TUnit := if n = 0 then [] else [.p n]

/-- What an executing instruction reads (R119, R166, R69); `deep` says that the mask depth is 1 or more. -/
def Uses.readUnits (u : Uses) (deep : Bool) : List TUnit :=
  u.s.flatMap sSrcUnits ++ u.v.flatMap vSrcUnits ++ u.p.flatMap predUnits ++ u.y.map TUnit.y
    ++ (if u.ring then [.mring] else []) ++ (u.lv.toList.map TUnit.l) ++ (u.tpR.toList.map TUnit.tp)
    ++ (if deep && u.masked then (u.vd.toList.flatMap vDstUnits) else [])

/-- Units the region reads, and those it writes (R119). -/
def addUnits (l us : List TUnit) : List TUnit := us.foldl (fun acc u => if u ∈ acc then acc else acc ++ [u]) l

def Region.read (r : Region) (us : List TUnit) : Region :=
  { r with reads := addUnits r.reads (us.filter fun u => decide (u ∉ r.writes)) }

def Region.write (r : Region) (us : List TUnit) : Region := { r with writes := addUnits r.writes us }

/-- R119: a write to a unit of the read-first set is an antidependence. -/
def Region.clash (r : Region) (us : List TUnit) : Bool := us.any fun u => decide (u ∈ r.reads)

end Sys2Proof.Machine
end

