-- ==== Sys2Proof/Machine/Ops.lean ====
section
/-! DEFINITION. The named operations over the state: state registers (02_registers R66 to R70), what lands (01_bundles R36 to R40),
regions (04_regions R116 to R131), notices, traces and error records (03 R109, 15 R408), and taking a cause (15_errors R398). -/

namespace Sys2Proof.Machine

/-! ## Causes (R395, R396) -/

def Cause.code : Cause → Nat
  | .bootStart => 0x000
  | .pageNotPresent => 0x001 | .malformedEntry => 0x002 | .writeProtection => 0x003 | .executeProtection => 0x004
  | .remoteTranslation => 0x005
  | .softError => 0x010 | .poison => 0x011 | .signatureMismatch => 0x012 | .duplicateScale => 0x013 | .integrityTag => 0x014
  | .stateLoss => 0x015
  | .illegalEncoding => 0x020 | .privilege => 0x021 | .bundle => 0x022 | .misalignedTarget => 0x023 | .shadow => 0x024
  | .loopStack => 0x025 | .ring => 0x026 | .trapContext => 0x027 | .regionContext => 0x028 | .descriptor => 0x029
  | .antidependence => 0x02A | .budget => 0x02B | .vaultDiscipline => 0x02C | .resumableRegion => 0x02D | .maskStack => 0x02E
  | .scratchpadAddress => 0x02F | .nearVault => 0x030 | .format => 0x031 | .operandFormat => 0x032 | .matrixDescriptor => 0x033
  | .vaultOwnership => 0x034 | .address => 0x037 | .memoryAlignment => 0x038 | .memoryRange => 0x039 | .dimension => 0x03A
  | .exchangeDescriptor => 0x03B | .exchangeMismatch => 0x03C | .exchangeReplay => 0x03D | .partnerLost => 0x03E
  | .fabricOperand => 0x03F | .grammarImage => 0x040 | .grammarContext => 0x041 | .grammarOperand => 0x042
  | .grammarBinding => 0x043 | .launch => 0x044 | .group => 0x045 | .copyDescriptor => 0x046 | .engineMask => 0x047
  | .illegalReturn => 0x048
  | .preemption => 0x060 | .resumeRequest => 0x061 | .softwareTrap => 0x062 | .watchdogExpiry => 0x063 | .noProgress => 0x064
  | .shootDownNotice => 0x065 | .waitCycle => 0x066 | .hostInterrupt => 0x067 | .deliberateAbort => 0x068 | .engineError => 0x069
  | .jobFenced => 0x06A

/-- CLASS of R395: 0 re-enterable, 1 detected error or state loss, 2 program-fatal, 3 event. -/
def Cause.class_ (c : Cause) : Nat :=
  if c.code = 0 then 0 else if c.code < 0x010 then 0 else if c.code < 0x020 then 1 else if c.code < 0x060 then 2 else 3

/-- The CAUSE register's value. -/
def causeWord (cls code : Nat) : BitVec 16 := BitVec.ofNat 16 (cls * 2 ^ 14 + code)

/-- The bits of CAUSE that exist. -/
def causeMask : BitVec 16 := 0xCFFF#16

/-! ## State registers (R66, R67, R70) -/

/-- The value that GETK reads (R70). -/
def State.getK (s : State) (n : Nat) : DWord :=
  let k := s.k
  match n with
  | 0x000 => k.nodeId.setWidth 64 | 0x001 => k.lnode.setWidth 64 | 0x002 => k.subbase.setWidth 64 | 0x003 => k.submask.setWidth 64
  | 0x004 => k.dimmap.setWidth 64 | 0x005 => k.detour.setWidth 64 | 0x006 => k.linkstat.setWidth 64
  | 0x010 => k.rngKey | 0x011 => k.rngCtr
  | 0x020 => k.retrace.setWidth 64 | 0x021 => k.rcount.setWidth 64 | 0x022 => k.rtag.setWidth 64
  | 0x030 => k.cause.setWidth 64 | 0x031 => k.epc.setWidth 64 | 0x032 => k.eva.setWidth 64 | 0x033 => k.einfo
  | 0x034 => k.tvec.setWidth 64 | 0x035 => if k.priv then 1 else 0
  | 0x040 => k.jobtag.setWidth 64 | 0x041 => k.wdbudget.setWidth 64 | 0x042 => k.wdleft.setWidth 64
  | 0x050 => k.status.setWidth 64 | 0x051 => k.mring.setWidth 64 | 0x052 => k.groups
  | 0x060 => k.feat0 | 0x061 => k.feat1 | 0x062 => k.feat2 | 0x063 => k.feat3 | 0x064 => k.featack
  | 0x070 => k.pinorph.setWidth 64
  | n => if 0x100 ≤ n ∧ n ≤ 0x107 then (s.srcY (n - 0x100)).setWidth 64
      else if 0x200 ≤ n ∧ n ≤ 0x20F then (s.regs.s[n - 0x200 + 48]?).getD 0
      else if 0x400 ≤ n ∧ n ≤ 0x4FF then (k.gtable[n - 0x400]?).getD 0
      else 0

/-- R290: LNODE follows SUBBASE, SUBMASK and DIMMAP. -/
def KRegs.derive (k : KRegs) : KRegs := { k with lnode := lnodeOf k.nodeId k.subbase k.submask k.dimmap }

/-- R298 to R300: a link that is down has a usable detour, or is severed. -/
def KRegs.relink (k : KRegs) : KRegs :=
  let st (d : Nat) : Nat :=
    let ls := linkState k.linkstat d
    if ls < 2 then ls
    else
      let e := detourDim k.detour d
      if e < 14 ∧ e ≠ d ∧ linkState k.linkstat e = 1 then 2 else 3
  { k with linkstat := BitVec.ofNat 28 ((List.range 14).foldl (fun a d => a + st d * 4 ^ d) 0) }

def KRegs.setLink (k : KRegs) (d ls : Nat) : KRegs := { k with linkstat := putBits k.linkstat (2 * d) 2 ls }.relink

/-- A group entry that the supervisor writes: bit 62 reads zero, GEN is the node's (R389). -/
def groupWrite (old v : DWord) : DWord := (v &&& 0xBFFFFFFFFFFF0000#64) ||| (old &&& 0xFFFF#64)

/-- SETK at its landing (R67, R68, R70): the low bits up to the register's width; reserved fields stay zero. EINFO
keeps all its bits (log 90). -/
def KRegs.set (k : KRegs) (n : Nat) (v : DWord) : KRegs :=
  match n with
  | 0x002 => { k with subbase := v.setWidth 14 }.derive
  | 0x003 => { k with submask := v.setWidth 14 }.derive
  | 0x004 => { k with dimmap := v.setWidth 56 }.derive
  | 0x005 => { k with detour := v.setWidth 56 }.relink
  | 0x010 => { k with rngKey := v }
  | 0x011 => { k with rngCtr := v }
  | 0x020 => { k with retrace := v.setWidth 8 }
  | 0x030 => { k with cause := v.setWidth 16 &&& causeMask }
  | 0x031 => { k with epc := v.setWidth 48 }
  | 0x032 => { k with eva := v.setWidth 48 }
  | 0x033 => { k with einfo := v }
  | 0x034 => { k with tvec := v.setWidth 48 }
  | 0x040 => { k with jobtag := v.setWidth 16 }
  | 0x041 => { k with wdbudget := v.setWidth 48 }
  | 0x050 => { k with status := (k.status &&& ~~~(v.setWidth 32)) &&& statusMask }
  | 0x051 => { k with mring := v.setWidth 16 &&& 0x1FF#16 }
  | 0x052 => { k with groups := v &&& 0x80FF80FF80FF80FF#64 }
  | 0x070 => { k with pinorph := v.setWidth 32 }
  | n => if 0x400 ≤ n ∧ n ≤ 0x4FF then { k with gtable := k.gtable.set (n - 0x400) (groupWrite ((k.gtable[n - 0x400]?).getD 0) v) } else k

/-- The bits of a policy register that exist (R63). -/
def polMask : BitVec 32 := 0xFFFF00FF#32

def Regs.setY (r : Regs) (n : Nat) (v : DWord) : Regs := { r with y := r.y.set n (v.setWidth 32 &&& polMask) }

def State.setK (s : State) (n : Nat) (v : DWord) : State :=
  if 0x100 ≤ n ∧ n ≤ 0x107 then { s with regs := s.regs.setY (n - 0x100) v }
  else if 0x200 ≤ n ∧ n ≤ 0x20F then { s with regs := { s.regs with s := s.regs.s.set (n - 0x200 + 48) v } }
  else { s with k := s.k.set n v }

/-- R66, R67: the access of a state register in program mode (0 none, 1 read, 2 read and write) and in supervisor mode. -/
def kAccess (sup : Bool) (n : Nat) : Nat :=
  if n ∈ [0x000, 0x001, 0x006, 0x021, 0x022, 0x035, 0x042, 0x060, 0x061, 0x062, 0x063, 0x064] then 1
  else if n ∈ [0x010, 0x011, 0x050, 0x051] ∨ (0x100 ≤ n ∧ n ≤ 0x107) then 2
  else if sup then 2
  else if n ∈ [0x030, 0x031, 0x032, 0x033, 0x034] ∨ (0x200 ≤ n ∧ n ≤ 0x20F) then 0
  else 1

/-! ## What lands (R36 to R40, R54 to R57) -/

def pushQ {α : Type} (q : List (QEntry α)) (e : QEntry α) : List (QEntry α) := (e :: q).take 16

/-- R54, R64. -/
def Regs.writeS (r : Regs) (sup : Bool) (n : Nat) (v : DWord) : Regs :=
  if n = 0 then r
  else if sup && decide (48 ≤ n) then { r with sup := r.sup.set (n - 48) v }
  else { r with s := r.s.set n v }

def Regs.writeP (r : Regs) (n : Nat) (b : Bool) : Regs :=
  if n = 0 then r else { r with p := if b then r.p ||| BitVec.twoPow 16 n else r.p &&& ~~~(BitVec.twoPow 16 n) }

/-- R165: the written lanes over the register as it stands. -/
def mergeV (old v lanes : VReg) : VReg := (old &&& ~~~lanes) ||| (v &&& lanes)

def Regs.landS (r : Regs) (sup : Bool) (d : SDst) (v : DWord) : Regs :=
  match d with
  | .reg n => { r.writeS sup n v with q := pushQ r.q (.full v) }
  | .queue => { r with q := pushQ r.q (.full v) }

def Regs.landV (r : Regs) (d : VDst) (v lanes : VReg) : Regs :=
  match d with
  | .reg n => let x := mergeV ((r.v[n]?).getD 0) v lanes; { r with v := r.v.set n x, qv := pushQ r.qv (.full x) }
  | .queue => { r with qv := pushQ r.qv (.full (v &&& lanes)) }

/-- R163: every lane of the base is active. -/
def fullMask : Mask := BitVec.allOnes 2048

def topMask (l : List Mask) : Mask := l.headD fullMask
def parentMask (l : List Mask) : Mask := topMask l.tail

/-- R163, R168, R172: a change applies to the stack as it stands; no level leaves its parent, no stack is deeper than 8. A pop, an inversion or
a set of an empty stack changes nothing (log 109). -/
def applyMask (l : List Mask) : MaskChange → List Mask
  | .push m => if l.length < 8 then (m &&& topMask l) :: l else l
  | .inv => match l with | [] => [] | t :: r => (topMask r &&& ~~~t) :: r
  | .pop => l.tail
  | .all => []
  | .set m => match l with | [] => [] | _ :: r => (m &&& topMask r) :: r

/-- R167: the depth after every change in flight. -/
def depthAfter (d : Nat) : MaskChange → Nat
  | .push _ => d + 1
  | .pop => d - 1
  | .all => 0
  | _ => d

/-- The mask changes in flight, in the order in which they apply: by the bundle at whose end they land, and in issue order within
it (R167). -/
def insertFlight (f : InFlight) : List InFlight → List InFlight
  | [] => [f]
  | x :: l => if f.left < x.left then f :: x :: l else x :: insertFlight f l

def landingOrder (l : List InFlight) : List InFlight := l.foldl (fun acc f => insertFlight f acc) []

def State.projectedDepth (s : State) : Nat :=
  (landingOrder s.pipe.inflight).foldl (fun d f => match f.what with | .mask c => depthAfter d c | _ => d) s.regs.masks.length

/-- R204: a group of 16 rows of a transposer block. -/
def tpFill (t : TBlock) (g : Nat) (v : VReg) : TBlock :=
  let lo := 65536 * g
  BitVec.ofNat 524288 (t.toNat - bits t lo 65536 * 2 ^ lo + v.toNat * 2 ^ lo)

def Regs.setTp (r : Regs) (b : Bool) (t : TBlock) : Regs := if b then { r with tp1 := t } else { r with tp0 := t }
def Regs.tp (r : Regs) (b : Bool) : TBlock := if b then r.tp1 else r.tp0

/-- The units that a landing writes (R119). -/
def landingUnits : Landing → List TUnit
  | .scalar d _ => sDstUnits d
  | .vector d _ _ => vDstUnits d
  | .pred p _ => predUnits p
  | .kreg k _ => if 0x100 ≤ k ∧ k ≤ 0x107 then [.y (k - 0x100)] else if k = 0x051 then [.mring] else if k = 0x010 then [.rngkey] else []
  | .tpGroup b _ _ => [.tp b]
  | .tpClear b => [.tp b]
  | _ => []

def State.setStatus (s : State) (f : Flags) : State := { s with k := { s.k with status := setFlags s.k.status f } }

/-- One landing; its STATUS bits are set at the end of the bundle. -/
def State.land (s : State) (f : InFlight) : State :=
  match f.what with
  | .scalar d v => { s with regs := s.regs.landS f.sup d v }
  | .vector d v lanes => { s with regs := s.regs.landV d v lanes }
  | .pred p b => { s with regs := s.regs.writeP p b }
  | .mask c => { s with regs := { s.regs with masks := applyMask s.regs.masks c } }
  | .fmt v => { s with regs := { s.regs with fmt := v } }
  | .kreg k v => s.setK k v
  | .store a v => { s with sp := Memory.write s.sp a (vregBytes v) }
  | .tpGroup b g v => { s with regs := s.regs.setTp b (tpFill (s.regs.tp b) g v) }
  | .tpClear b => { s with regs := s.regs.setTp b 0 }
  | .sticky m => { s with mat := { s.mat with sticky := s.mat.sticky &&& ~~~m } }

/-! ## The open region -/

def Region.resum (r : Region) : Bool := r.desc.getLsbD 16
def Region.check (r : Region) : Bool := r.desc.getLsbD 15
def Region.sigidx (r : Region) : Nat := bits r.desc 17 15
/-- R114: the store budget in entries; 0 means 1,024. -/
def Region.budget (r : Region) : Nat := if bits r.desc 8 7 = 0 then 1024 else 8 * bits r.desc 8 7

def State.inRegion (s : State) : Bool := s.rgn.isSome

/-- The port numbers of the job in JOBTAG (R305, R311). -/
def State.xseqs (s : State) : List (BitVec 12) :=
  s.xch.ports.map fun js => ((js.find? fun j => j.job == s.k.jobtag).map fun j => j.xseq).getD 0

def setXseq (js : List PortJob) (job : BitVec 16) (x : BitVec 12) : List PortJob :=
  if js.any (fun j => j.job == job) then js.map fun j => if j.job = job then { j with xseq := x } else j
  else if x = 0 then js else js ++ [⟨job, x, [], []⟩]

def State.restoreXseqs (s : State) (l : List (BitVec 12)) : Xch :=
  { s.xch with ports := s.xch.ports.zipWith (fun js x => setXseq js s.k.jobtag x) (l ++ List.replicate 14 0) }

/-- R57: both queues emptied; the positions of pending results are lost. -/
def Regs.emptyQueues (r : Regs) : Regs := { r with q := List.replicate 16 .empty, qv := List.replicate 16 .empty }

/-- The snapshot of R118 as the machine stands. -/
def State.snap (s : State) (entry : VAddr) : Snap :=
  ⟨entry, s.seq.loops, s.regs.masks, s.k.rngCtr, s.regs.fmt, s.xseqs, s.eng.bind⟩

/-- R116, R118, R137: a region opens. Its entry is the opening bundle, or the bundle after it. -/
def State.openRegion (s : State) (o : Opening) (entry : VAddr) : State :=
  let r : Region :=
    { snap := s.snap entry, rmask := o.rmask, wmask := o.wmask, desc := o.desc, byBoundary := o.byBoundary,
      again := false, tagged := true, committing := false, waiting := none, reads := [], writes := [], counted := 0, crc := 0xFFFFFFFF#32, used := 0,
      prog := o.prog, pushed := 0, resIssued := false,
      id := s.regions, seq := s.seq.count }
  { s with
    rgn := some r
    regions := s.regions + 1
    mat := { s.mat with aanch := 0 }
    k := if o.fresh then { s.k with rcount := 0, rtag := o.desc.setWidth 8 } else s.k
    seq := { s.seq with outside := 0 } }

/-- R406: the serial numbers of the current job. -/
def Window.fresh (job : BitVec 16) : Window := ⟨job, 0, List.replicate 7 0, List.replicate 7 0⟩

def Errs.window (e : Errs) (job : BitVec 16) : Window := (e.windows.find? fun w => w.job == job).getD (.fresh job)

def Errs.setWindow (e : Errs) (w : Window) : Errs :=
  { e with windows := if e.windows.any (fun x => x.job == w.job) then e.windows.map (fun x => if x.job = w.job then w else x)
      else e.windows ++ [w] }

/-- The logical dimensions over which a copy command pushes data (R406). -/
def CopyCmd.pushes (c : CopyCmd) : BitVec 14 := if c.kind = .lattice ∧ !((c.desc[5]?).getD 0).getLsbD 0 then c.set else 0

/-- OUTD of every unit class takes a set of dimensions. -/
def Window.pushes (w : Window) (dims : BitVec 14) : Window := { w with outd := w.outd.map (· ||| dims) }

/-- R406: a commit advances CSN, and what its region has sent counts from now on. -/
def State.serial (s : State) (r : Region) : Errs :=
  let w := s.err.window s.k.jobtag
  s.err.setWindow ({ w with csn := w.csn + 1 }.pushes r.pushed)

/-- R406: data of a job leaves the node over a set of logical dimensions. That of a region which has not committed counts at its commit, or at
that of its chunk (log 123). -/
def State.dataLeaves (s : State) (job : BitVec 16) (region : Option Nat) (dims : BitVec 14) : State :=
  let mine (r : Region) : Bool := region == some r.id
  let mark (r : Region) : Region := if mine r then { r with pushed := r.pushed ||| dims } else r
  if dims = 0 then s
  else if s.rgn.any mine then { s with rgn := s.rgn.map mark }
  else if s.sch.queues.any fun q => q.region.any mine then
    { s with sch := { s.sch with queues := s.sch.queues.map fun q => { q with region := q.region.map mark } } }
  else { s with err := s.err.setWindow ((s.err.window job).pushes dims) }

/-- R212, R213: what BACQ and BREL do at the commit, one vault at a time, in ascending order. -/
def acquireOne (job : BitVec 16) (v : Vault) : Vault :=
  if (v.state = .owned ∨ v.state = .releasing) ∧ v.owner = job then { v with state := .owned } else v

/-- Whether an acquisition of a vault must wait (R212): it is neither the job's own nor scrubbing for it. -/
def acquireWaits (job : BitVec 16) (v : Vault) : Bool :=
  !(v.owner == job && (v.state == .owned || v.state == .releasing || v.state == .scrubbing))

def releaseOne (job : BitVec 16) (v : Vault) : Vault :=
  if v.state = .owned ∧ v.owner = job then { v with state := .releasing } else v

def maskVaults (m : BitVec 32) : List Nat := (List.range 32).filter fun i => m.getLsbD i

def mapVaults (vs : List Vault) (m : BitVec 32) (f : Vault → Vault) : List Vault :=
  vs.zipIdx.map fun (v, i) => if m.getLsbD i then f v else v

/-- The current program's priority (R374). -/
def recPrio (r : Record) : Nat := bits r 48 4

def State.curRecord (s : State) : Option Record := do
  let q ← s.sch.running
  let lq ← s.sch.queues[q]?
  lq.recs.head?

def State.curPrio (s : State) : Nat := (s.curRecord.map recPrio).getD 0

/-- The commit of one entry (R122, R230): ownership changes act now; every other entry starts to drain. -/
def State.commitEntry (s : State) (e : BufEntry) : State :=
  match e.op with
  | .acquire m =>
    let job := e.job
    let waiting := (maskVaults m).filter fun i => match s.vaults[i]? with | some v => acquireWaits job v | none => false
    let new : List Acq := waiting.zipIdx.map fun (i, j) => ⟨s.nextId + j, job, s.curPrio, false, BitVec.twoPow 32 i, 64⟩
    { s with vaults := mapVaults s.vaults m (acquireOne job), acqs := s.acqs ++ new, nextId := s.nextId + new.length }
  | .release m => { s with vaults := mapVaults s.vaults m (releaseOne e.job) }
  | .cache .inval va len _ =>
    let mark (c : CopyCmd) : CopyCmd := if c.job = e.job then { c with invals := c.invals ++ [(va.toNat, len)] } else c
    { s with
      eng := { s.eng with copies := s.eng.copies.map mark }
      buf := (s.buf.map fun x => match x.op with | .copy c => if x.state = .opened then x else { x with op := .copy (mark c) } | _ => x)
        ++ [{ e with state := .draining }] }
  | _ => { s with buf := s.buf ++ [{ e with state := .draining }] }

/-- The committed part of R128: tiles, entries in program order, RCOUNT, CSN; the trap request comes due (R106). -/
def State.commitRegion (s : State) : State :=
  match s.rgn with
  | none => s
  | some r =>
    let opened := s.buf.filter fun e => e.state == .opened
    let s1 := { s with err := s.serial r, buf := s.buf.filter (fun e => e.state != .opened) }
    let s2 := opened.foldl State.commitEntry s1
    { s2 with
      rgn := none
      mat := { s2.mat with comm := s2.mat.work }
      k := { s2.k with rcount := 0 }
      fab := { s2.fab with peeks := s2.fab.peeks.filter fun p => p.unit_ != 1 }
      xch := { s2.xch with ports := s2.xch.ports.map fun js => js.map fun j =>
        { j with recs := (j.recs.map fun x => if x.region = some r.id then { x with commits := true } else x).filter fun x => !(x.commits && x.phase == .done) } }
      seq := { s2.seq with trapReq := none, dueTrap := s2.seq.trapReq } }

/-! ## Notices, error records, traces -/

/-- An event for the supervisor (R394, R396). -/
def State.notice (s : State) (n : Notice) : State := { s with sch := { s.sch with notices := s.sch.notices ++ [n] } }

/-- HINT bits: setting an enabled bit that was clear sends its vector's message, or leaves it pending (R413). -/
def hintVector (b : Nat) : Nat :=
  if b = 0 ∨ b = 7 then 0 else if b = 1 then 1 else if b = 2 ∨ b = 3 then 2 else if b = 4 then 3 else if b = 5 ∨ b = 6 then 4 else 5

/-- R413: the first of the eight vectors of the function that belong to a node. -/
def KRegs.vector (k : KRegs) : Nat := 8 * (k.nodeId.toNat % 4)

/-- Vector `j` of the node defers its message while it or the function is masked. -/
def Hst.masked (h : Hst) (j : Nat) : Bool := h.msixFun || (h.msixMask[j]?).getD false

def Hst.message (h : Hst) (base j : Nat) : Hst :=
  if h.masked j then { h with msixPend := h.msixPend.set j true } else { h with msixSent := h.msixSent ++ [base + j] }

def Hst.setHint (h : Hst) (base b : Nat) : Hst :=
  if h.hint.getLsbD b then h
  else
    let h := { h with hint := h.hint ||| BitVec.twoPow 9 b }
    if h.hinten.getLsbD b then h.message base (hintVector b) else h

def State.setHint (s : State) (b : Nat) : State := { s with hst := s.hst.setHint s.k.vector b }

/-! ## Release tags (R279) -/

/-- The aligned words that an extent touches. -/
def wordsOf (a n : Nat) : List Nat := (List.range (((a + n + 7) / 8) - a / 8)).map fun i => 8 * (a / 8 + i)

def locAt (l : Loc) (a : Nat) : Loc := match l with | .spad _ => .spad a | _ => .here a
def locAddr : Loc → Nat | .here a => a | .peer _ a => a | .remote _ va => va.toNat | .spad a => a

/-- A write leaves the tag of its release, or none. -/
def tagWrite (rs : List RelTag) (l : Loc) (n : Nat) (rel : Option (BitVec 14 × Nat)) : List RelTag :=
  let ws := (wordsOf (locAddr l) n).map (locAt l)
  let kept := rs.filter fun r => !ws.contains r.loc
  match rel with
  | some (node, scope) => kept ++ ws.map fun w => ⟨w, node, scope⟩
  | none => kept

/-- Bytes of the HBM; what lies above it holds nothing (R233), and a write there is lost. A write that is no release clears the tags of
its words (R279). -/
def State.writeHbm (s : State) (pa : Nat) (bs : List Byte) : State :=
  { s with hbm := Memory.write s.hbm pa (bs.take (hbmEnd - pa)), rtags := tagWrite s.rtags (.here pa) bs.length none }

/-- R408: the log is full when advancing ELWR by 64 would make it equal to ELRD. -/
def Hst.nextEl (h : Hst) : DWord := if h.ellen.toNat ≤ h.elwr.toNat + 64 then 0 else h.elwr + 64

/-- R408: one error record. `named` is the set of logical dimensions that the fault itself names (R301), `csn` the CSN at an error that
is recorded later than it was met. -/
def State.errorRecord (s : State) (kind : Nat) (job cause : BitVec 16) (queue uclass unit_ : Nat) (epc eva : VAddr) (einfo : DWord)
    (windowed : Bool) (named : BitVec 14 := 0) (csn : Option (BitVec 48) := none) : State :=
  let w := s.err.window job
  let base := if uclass < 7 then (w.cpass[uclass]?).getD 0 else 0
  let start : Nat := if windowed then base.toNat + 1 else 0
  let dims : Nat := if windowed ∧ uclass < 7 then ((w.outd[uclass]?).getD 0).toNat else named.toNat
  let d0 := BitVec.ofNat 64 (job.toNat * 2 ^ 48 + cause.toNat * 2 ^ 32 + s.k.nodeId.toNat * 2 ^ 18 + queue % 64 * 2 ^ 12 + kind * 2 ^ 8 + uclass)
  let d7 := BitVec.ofNat 64 (s.err.records.toNat * 2 ^ 32 + unit_ * 2 ^ 16 + dims)
  let bs := toBytes 64 (ofDws [d0, epc.setWidth 64, eva.setWidth 64, einfo, BitVec.ofNat 64 s.clock, BitVec.ofNat 64 start,
    (csn.getD w.csn).setWidth 64, d7]).toNat
  let s := { s with err := { s.err with records := s.err.records + 1 } }
  if s.hst.nextEl = s.hst.elrd then
    { s with hst := { s.hst with ellost := if s.hst.ellost = BitVec.allOnes 32 then s.hst.ellost else s.hst.ellost + 1 } }
  else
    let s := s.writeHbm (s.hst.elbase.toNat + s.hst.elwr.toNat) bs
    { s with hst := { s.hst with elwr := s.hst.nextEl } }.setHint 1

/-- R109, R110: tracing is on, and in data mode. -/
def State.tracing (s : State) : Bool := s.hst.nctl.getLsbD 1
def State.dataMode (s : State) : Bool := s.hst.nctl.getLsbD 1 && s.hst.nctl.getLsbD 2

def Hst.nextTr (h : Hst) : DWord := if h.trlen.toNat ≤ h.trwr.toNat + 16 then 0 else h.trwr + 16
def Hst.traceFull (h : Hst) : Bool := h.nextTr == h.trrd

/-- Records move from the wait into the buffer while it has room (R109). -/
def State.flushTrace (s : State) : Nat → State
  | 0 => s
  | n + 1 =>
    match s.hst.traceQ with
    | [] => s
    | (a, b) :: rest =>
      if s.hst.traceFull then s.setHint 2
      else
        let s1 := s.writeHbm (s.hst.trbase.toNat + s.hst.trwr.toNat) (toBytes 8 a.toNat ++ toBytes 8 b.toNat)
        State.flushTrace { s1 with hst := { s1.hst with trwr := s1.hst.nextTr, traceQ := rest } } n

/-- R110: one trace record, of an event at which `issued` bundles had issued. -/
def State.traceAt (s : State) (issued : BitVec 48) (kind detail : Nat) (w1 : DWord) : State :=
  if s.tracing then
    let w0 := BitVec.ofNat 64 (kind * 2 ^ 60 + detail % 2 ^ 12 * 2 ^ 48 + issued.toNat)
    let s := { s with hst := { s.hst with traceQ := s.hst.traceQ ++ [(w0, w1)] } }
    s.flushTrace s.hst.traceQ.length
  else s

/-- The same, of an event of this moment. -/
def State.trace (s : State) (kind detail : Nat) (w1 : DWord) : State := s.traceAt s.seq.issued kind detail w1

/-- R88, R110: branch outcomes are recorded once no DELAY block can turn them into losers: their redirect has been taken, or no earlier one
is pending. -/
def Seq.undecided (q : Seq) (x : BranchRec) : Bool :=
  q.redirects.any (fun r => r.seq == x.seq) && q.redirects.any fun r => decide (r.seq < x.seq)

def State.traceBranch (s : State) (x : BranchRec) : State := s.traceAt x.issued 1 x.taken x.word

/-- R88, R110: the record of a branch whose bundle a loser may still mark waits until its redirects are decided, and keeps its own count
(log 100). -/
def State.traceBranches (s : State) : State :=
  ((s.seq.held.filter fun x => !s.seq.undecided x).foldl State.traceBranch { s with seq := { s.seq with held := s.seq.held.filter s.seq.undecided } })

/-- Pending redirects are dropped: what is held is recorded as it stands. -/
def State.dropBranches (s : State) : State := s.seq.held.foldl State.traceBranch { s with seq := { s.seq with held := [] } }

/-- R110: raw records that follow a vector's. -/
def State.traceRaw (s : State) (l : List (DWord × DWord)) : State :=
  if s.tracing then
    let s := { s with hst := { s.hst with traceQ := s.hst.traceQ ++ l } }
    s.flushTrace s.hst.traceQ.length
  else s

/-! ## Discards (R130, R131) -/

/-- The check of an atomic, and a word that a unit reads on a peer, answer to nobody once their region is dropped; the number `id` is then
no entry's. -/
def Req.orphan (id : Nat) (q : Req) : Req :=
  match q.who with
  | .atomicCheck | .peek .. => { q with who := .bufCheck id }
  | _ => q

/-- R130, steps 1 and 2, and R131: the region is dropped and its snapshot restored; the region stays to be re-entered. A halt ends with the
bundle that it stalls (log 79). -/
def State.dropRegion (s : State) (r : Region) : State :=
  let s := s.dropBranches
  { s with
    rgn := some { r with again := !r.byBoundary, committing := false, reads := [], writes := [], counted := 0, crc := 0xFFFFFFFF#32, used := 0, resIssued := false }
    regs := { s.regs.emptyQueues with masks := r.snap.masks, fmt := r.snap.fmt }
    k := { s.k with rngCtr := r.snap.rngCtr, rcount := if s.k.rcount = 255 then 255 else s.k.rcount + 1 }
    seq := { s.seq with
      pc := r.snap.entry, loops := r.snap.loops, redirects := [], delay := 0, delayEnd := .none, trapReq := none, halted := false, perform := none, words := [], waited := 0, stall := none, direct := [], bun := .start }
    pipe := ⟨[], s.pipe.waits.filter (fun w => !w.inRgn), []⟩
    buf := s.buf.filter fun e => e.state != .opened
    mat := { s.mat with work := s.mat.comm, queue := [], aanch := 0 }
    eng := { copies := s.eng.copies.filter (fun c => !(c.res && c.region == some r.id)), bind := r.snap.bind, gram := [] }
    xch := s.restoreXseqs r.snap.xseq
    fab := { s.fab with
      reqs := s.fab.reqs.map (Req.orphan s.nextId), peeks := []
      answers := s.fab.answers.filter fun a => !(a.job == s.k.jobtag && a.who == .atomicCheck) }
    nextId := s.nextId + 1 }

/-- R110 kind 3: RCOUNT after the discard, and EPC. -/
def State.traceDiscard (s : State) (code : Nat) (epc : VAddr) : State :=
  s.trace 3 code (BitVec.ofNat 64 (s.k.rcount.toNat * 2 ^ 48 + epc.toNat))

/-! ## Links (R297, R300) -/

def updLink (f : Fab) (d : Nat) (g : Link → Link) : Fab := { f with links := f.links.zipIdx.map fun (l, i) => if i = d then g l else l }

/-- R324: the buffers of one lane at one input of the next router. -/
def laneRoom : Nat → Nat | 0 => 4 | 1 => 8 | 2 => 2 | 3 => 16 | _ => 1

/-- The buffers of the next router that a lane has in use. -/
def Link.inUse (l : Link) (lane : Nat) : Nat := (l.used[lane]?).getD 0
def Link.take (l : Link) (lane : Nat) : Link := { l with used := l.used.modify lane (· + 1) }
def Link.give (l : Link) (lane : Nat) : Link := { l with used := l.used.modify lane (· - 1) }

/-- A packet is handed to a link, in order; one of the adaptive lane takes its buffer of the next router now (R329), one of another lane
when it leaves. -/
def Link.send (l : Link) (lane : Nat) (p : Packet) (held : Option (Nat × Nat) := none) (wait : Nat × Bool := (0, false)) : Link :=
  let l1 := { l with ready := l.ready ++ [⟨lane, p, held, wait.1, wait.2⟩] }
  if lane = 0 then l1.take 0 else l1

/-- One hop across a physical dimension: the packet waits at the port until it can leave (R299, R300). `wait` says since when it has stood at
the head of the buffer that it holds, and whether it is suspect (R338). -/
def State.hop (s : State) (d lane : Nat) (p : Packet) (held : Option (Nat × Nat) := none) (wait : Nat × Bool := (0, false)) : State :=
  { s with fab := updLink s.fab d (·.send lane p held wait) }

/-- A packet leaves on a link: its lane and LSEQ are set, its tag made, and the last 64 are kept for replay (R297). -/
def Link.put (l : Link) (o : Outbound) : Link :=
  let t := putBits (putBits o.packet.trailer 57 3 o.lane) 0 8 l.lseq.toNat
  let q := Packet.seal { o.packet with trailer := t }
  let l1 := { l with
    lseq := l.lseq + 1, out := l.out ++ [q], replay := (l.replay ++ [q]).drop (l.replay.length + 1 - 64), ready := l.ready.erase o
    ctlLast := o.lane == 3
    detRow := if o.lane = 2 then l.detRow + 1 else if o.lane < 2 then 0 else l.detRow
    exLast := if o.lane < 2 then o.lane == 1 else l.exLast }
  if o.lane = 0 then l1 else l1.take o.lane

/-- A message of the link protocol (log 88): it has no LSEQ, takes no buffer and is never replayed. -/
def Link.tell (l : Link) (p : Packet) : Link := { l with out := l.out ++ [p.seal] }

/-- R385: the neighbour across a physical dimension. -/
def State.neighbour (s : State) (d : Nat) : BitVec 14 := s.k.nodeId ^^^ BitVec.twoPow 14 d

/-- A link-control packet across one physical dimension. -/
def State.control (s : State) (d : Nat) (job : BitVec 16) (d2 : DWord) : State :=
  s.hop d 3 (controlPacket s.k.nodeId (s.neighbour d) job d2)

/-- A message of the link protocol across one physical dimension (log 88): CTYPE 9 acknowledges an LSEQ, 10 asks for a replay from one,
11 gives a buffer of a lane back, 13 goes before a replay, 14 says how many buffers of a lane are in use when the link comes up. -/
def State.tellLink (s : State) (d ctype v : Nat) : State :=
  { s with fab := updLink s.fab d (·.tell (controlPacket s.k.nodeId (s.neighbour d) 0 (BitVec.ofNat 64 (ctype + v * 2 ^ 8)))) }

/-- R324: a packet gives its router buffer up; the neighbour that sent it learns so over the link, or when it is repaired (log 88). -/
def State.release (s : State) : Option (Nat × Nat) → State
  | some (lane, d) => if d < 14 ∧ linkState s.k.linkstat d = 1 then s.tellLink d 11 lane else s
  | none => s

/-- R385: this node's presence in a job, to its own map and across every logical dimension. -/
def presenceCode : Presence → Nat
  | .absent => 0 | .present => 0 | .out => 1 | .service => 2 | .reset => 3

def presenceOf (n : Nat) : Presence := match n with | 0 => .present | 1 => .out | 2 => .service | _ => .reset

def setPresence (l : List (BitVec 16 × Nat × Presence)) (job : BitVec 16) (node : Nat) (p : Presence) :
    List (BitVec 16 × Nat × Presence) :=
  l.filter (fun x => !(x.1 == job && x.2.1 == node)) ++ [(job, node, p)]

/-- The subcube of a launch record (R376). -/
def recSubcube (r : Record) : Subcube := ⟨BitVec.ofNat 14 (bits r 272 14), BitVec.ofNat 14 (bits r 256 14), BitVec.ofNat 56 (bits r 320 56)⟩
def recJob (r : Record) : BitVec 16 := BitVec.ofNat 16 (bits r 112 16)
def recVaults (r : Record) : BitVec 32 := BitVec.ofNat 32 (bits r 288 32)

/-- The subcube of a job: that of a record that this node holds. -/
def State.jobCube (s : State) (job : BitVec 16) : Option Subcube :=
  ((s.sch.queues.flatMap fun q => q.recs).find? fun r => recJob r == job).map recSubcube

/-- The registers of R289 and R290 as a job's program has them. -/
def KRegs.withCube (k : KRegs) (c : Subcube) : KRegs := { k with submask := c.submask, subbase := c.subbase, dimmap := c.dimmap }.derive
def KRegs.cube (k : KRegs) : Subcube := ⟨k.submask, k.subbase, k.dimmap⟩

/-- The subcube of a job that this node knows: this moment's if it is the current one, else as its record gives it. -/
def State.cubeOf (s : State) (job : BitVec 16) : Option Subcube := if job = s.k.jobtag then some s.k.cube else s.jobCube job

/-- The registers of a job: this moment's if it is the current one, else as its record gives them. -/
def State.kOf (s : State) (job : BitVec 16) : KRegs :=
  if job = s.k.jobtag then s.k else match s.jobCube job with | some c => s.k.withCube c | none => s.k

/-- R385: announce a state of a job, across every logical dimension of its subcube. -/
def State.announce (s : State) (job : BitVec 16) (p : Presence) : State :=
  match s.jobCube job with
  | none => s
  | some c =>
    let l := logicalOf s.k.nodeId c.submask c.dimmap
    let s := { s with sch := { s.sch with presence := setPresence s.sch.presence job l p } }
    let d2 := BitVec.ofNat 64 (0x02 + presenceCode p * 2 ^ 8 + l * 2 ^ 16)
    (mapDims c.dimmap (popc c.submask)).foldl (fun s d => s.control d job d2) s

/-- The jobs that the node runs or holds (R401, R405). -/
def State.jobsHere (s : State) : List (BitVec 16) :=
  ((s.sch.queues.filter fun q => q.state == .running || q.state == .held || q.state == .saved).filterMap fun q =>
    q.recs.head?.map recJob).dedup

/-! ## Taking a cause (R394, R398, R400, R401) -/

def updQueue (sc : Sched) (q : Nat) (g : LQueue → LQueue) : Sched :=
  { sc with queues := sc.queues.zipIdx.map fun (x, i) => if i = q then g x else x }

/-- R398: entry to the supervisor. The running queue is held in the way `h` says, with the region to re-enter; the
count of bundles outside region mode starts anew (log 97). -/
def State.enter (s : State) (cause : BitVec 16) (epc eva : VAddr) (einfo : DWord) (h : Hold) (r : Option Region) : State :=
  let s := s.dropBranches
  { s with
    rgn := none
    regs := s.regs.emptyQueues
    k := { s.k with cause := cause &&& causeMask, epc := epc, eva := eva, einfo := einfo, priv := true }
    seq := { s.seq with
      pc := s.k.tvec &&& ~~~0xF#48, redirects := [], delay := 0, delayEnd := .none, outside := 0, dueTrap := none, perform := none, words := [], waited := 0, stall := none, direct := [], bun := .start }
    sch := match s.sch.running with
      | none => { s.sch with serving := none, entered := cause &&& causeMask }
      | some q => { updQueue s.sch q (fun x => { x with state := .held, hold := h, region := r, epc := epc, since := s.clock, cause := cause, overdue := false })
          with serving := some q, entered := cause &&& causeMask } }

/-- R397: EINFO of a fault, a detected error or state loss. -/
def State.einfoOf (s : State) (t : Trap) : DWord :=
  let boff := match s.rgn with | some r => Nat.min r.counted 65535 | none => 0
  let slot := if t.slotless then 0 else s.seq.bun.slot % 4
  BitVec.ofNat 64 (boff * 2 ^ 48 + slot * 2 ^ 46 + t.detail.toNat * 2 ^ 16 + t.unit % 256 * 2 ^ 8 + t.uclass % 16)

def State.curQueue (s : State) : Nat := s.sch.running.getD 0

/-- R401: a fault in supervisor mode stops the node. -/
def State.supervisorFault (s : State) (cause : BitVec 16) (eva : VAddr) (einfo : DWord) : State :=
  let s1 := s.errorRecord 5 s.k.jobtag cause (s.sch.serving.getD 0) (bits einfo 0 4) (bits einfo 8 8) s.seq.pc eva einfo false
  let s2 := s1.jobsHere.foldl (fun s j => s.announce j .service) s1
  { s2 with err := { s2.err with stopped := true } }.setHint 0

/-- R408: a detected error or a state loss is recorded when its unit's self-test lands. -/
def State.untested (s : State) (t : Trap) (cause : BitVec 16) (epc : VAddr) (einfo : DWord) : Errs :=
  { s.err with untested := s.err.untested ++ [⟨s.k.jobtag, cause, s.curQueue, epc, t.eva, einfo, t.uclass, t.unit, (s.err.window s.k.jobtag).csn⟩] }

/-- R394, R398: what the node does when an instruction, a landing or a check raises a cause of class 00, 01 or 10; and RABT, which
re-enters directly (R130, R137). -/
def State.takeTrap (s : State) (t : Trap) : State :=
  let einfo := s.einfoOf t
  if s.k.priv then
    { s.supervisorFault (causeWord (if t.cause.class_ = 1 then 1 else 2) t.cause.code) t.eva einfo with
      seq := { s.seq with bun := { s.seq.bun with trapped := some t } } }
  else
    let s' := match s.rgn with
      | some r =>
        let d := s.dropRegion r
        let stuck := decide (t.cause.class_ ≠ 2) && decide (t.cause ≠ Cause.stateLoss) && decide (d.k.retrace < d.k.rcount)
        let d := d.traceDiscard (if stuck then Cause.noProgress.code else t.cause.code) r.snap.entry
        if t.cause.class_ = 2 then
          let c := causeWord 2 t.cause.code
          let e := d.errorRecord 0 s.k.jobtag c s.curQueue t.uclass t.unit r.snap.entry t.eva einfo false t.dims
          e.enter c r.snap.entry t.eva einfo .fatal d.rgn
        else
          let c := causeWord t.cause.class_ t.cause.code
          let d := if t.cause.class_ = 1 then { d with err := d.untested t c r.snap.entry einfo } else d
          let h : Hold := if t.cause = Cause.stateLoss then .loss else .region
          if t.cause = Cause.deliberateAbort ∧ d.k.rcount ≤ s.k.retrace then d else
          if stuck then
            d.enter (causeWord 3 Cause.noProgress.code) r.snap.entry 0 0 h d.rgn
          else d.enter c r.snap.entry t.eva einfo h d.rgn
      | none =>
        if t.eva = s.seq.pc ∧ (t.cause = Cause.pageNotPresent ∨ t.cause = Cause.malformedEntry ∨ t.cause = Cause.executeProtection) then
          s.enter (causeWord 0 t.cause.code) s.seq.pc t.eva einfo .outside none
        else
          let c := causeWord 2 t.cause.code
          let d := if t.cause.class_ = 1 then { s with err := s.untested t c s.seq.pc einfo } else s
          let e := d.errorRecord 0 s.k.jobtag c s.curQueue t.uclass t.unit s.seq.pc t.eva einfo false t.dims
          { e.enter c s.seq.pc t.eva einfo .fatal none with pipe := ⟨[], [], []⟩ }
    { s' with seq := { s'.seq with bun := { Bundle.start with slot := s.seq.bun.slot, trapped := some t } } }

/-- R129, R135: a region is closing, or a boundary instruction whose region has committed performs: what comes now is taken at the boundary. -/
def State.closing (s : State) : Bool := !s.k.priv && (s.seq.perform.isSome || s.rgn.any fun r => r.committing)

/-- A cause that waits for the boundary; a program-fatal one goes before another (R135). -/
def State.pended (s : State) (t : Trap) (einfo : DWord) : State :=
  if s.seq.pend.isNone || t.cause.class_ == 2 then { s with seq := { s.seq with pend := some (t, einfo) } } else s

/-- A cause that no instruction of the bundle at the program counter raises. -/
def State.strike (s : State) (t : Trap) : State := if s.closing then s.pended t (s.einfoOf t) else s.takeTrap t

/-- R129: such a cause is taken at a boundary: nothing is discarded, and the region that is to open is held. -/
def State.faultAt (s : State) (t : Trap) (einfo : DWord) (epc : VAddr) : State :=
  let c := causeWord t.cause.class_ t.cause.code
  let s1 := { s with seq := { s.seq with pend := none } }
  let s2 := if t.cause.class_ = 1 then { s1 with err := s1.untested t c epc einfo }
    else if t.cause.class_ = 2 then s1.errorRecord 0 s1.k.jobtag c s1.curQueue t.uclass t.unit epc t.eva einfo false t.dims else s1
  let h : Hold := if t.cause.class_ = 2 then .fatal else if t.cause = Cause.stateLoss then .loss else if s.rgn.isSome then .boundary else .outside
  s2.enter c epc t.eva einfo h (s.rgn.map fun r => { r with again := !r.byBoundary })

end Sys2Proof.Machine
end

