-- ==== Sys2Proof/Machine/Issue.lean ====
section
/-! DEFINITION. How an instruction acts: what it leaves when it issues, stalls or raises a cause; the end of a bundle (01_bundles R36 to
R40, 03_sequencer R88, R89, R107); boundaries (04_regions R129); and the checks that many instructions share (R113, R117, R120, R128,
08_scratchpad R207, R214). -/

namespace Sys2Proof.Machine

/-- One thing that an instruction or a step does to the state. -/
inductive Effect where
  /-- a fixed-latency result: it lands at the end of bundle t + left (R36) -/
  | land (left : Nat) (flags : Flags) (what : Landing)
  /-- a variable-latency result (R37) -/
  | wait (w : Wait)
  | reads (us : List TUnit)
  | writes (us : List TUnit)
  | pushLoop (l : LoopLevel)
  | skip (fin : VAddr)
  | leave
  | delay (n : Nat)
  | brk
  | draw (n : Nat)
  | redirect (left : Nat) (target : VAddr)
  | trapReq (imm : BitVec 26)
  | buffer (e : BufEntry)
  | commit
  /-- the closing bundle of the region has been met, and its commit is under way (R129, R135) -/
  | committing
  | opens (o : Opening)
  | rend
  | yields
  /-- a boundary instruction's region has committed and it begins to perform; `none` when it has performed (R124) -/
  | perform (o : Option Opening)
  /-- how far a supervisor instruction that acts directly on other nodes has come (R224, R251) -/
  | direct (n : Nat)
  /-- a branch-class instruction has been taken (R110) -/
  | taken (w1 : DWord)
  | resumes
  | status (f : Flags)
  | trace (kind detail : Nat) (w1 : DWord)
  | traceRaw (l : List (DWord × DWord))
  /-- a scratchpad access of the sequencer uses these banks for so many clocks (R208, R210) -/
  | banks (l : List Nat) (clocks : Nat)
  | arrive (id : Nat) (a : Arrived) (flags : Flags)
  | sp (a : Nat) (bs : List Byte)
  | hbm (pa : Nat) (bs : List Byte)
  | rngCtr (v : DWord)
  | setBuf (b : List BufEntry)
  | setMat (m : Mat)
  | sticky (m : BitVec 6)
  | setVaults (v : List Vault)
  | setAcqs (a : List Acq)
  | setEng (e : Eng)
  | setPoison (p : List Nat)
  | setL2 (l : List L2Line)
  | setTlb (t : Tlb)
  | setRtags (r : List RelTag)
  | setXch (x : Xch)
  | setFab (f : Fab)
  | setSch (s : Sched)
  | setErr (e : Errs)
  | setHst (h : Hst)
  | ids (n : Nat)
  /-- pinned lines that were dropped (R267) -/
  | orphans (n : Nat)
  /-- an error record that is no fault's (R408) -/
  | record (kind : Nat) (cause : Cause) (uclass : Nat) (eva : VAddr) (einfo : DWord)
  | notify (n : Notice)
  deriving DecidableEq, Repr

/-- What an instruction does at its issue: its effects, a stall with a cause of R111, a cause of R396, or a stop of the machine. -/
inductive Issue where
  | done (es : List Effect)
  | stall (cause : Nat)
  /-- the instruction has begun: these effects stay, and it stalls until it can go on (R124, R251) -/
  | pause (es : List Effect) (cause : Nat)
  | trap (t : Trap)
  | halt (f : Fault)
  deriving DecidableEq, Repr

def Issue.cause (c : Cause) : Issue := .trap { cause := c }

/-- A check that must hold, or the instruction raises a cause. -/
def check (b : Bool) (c : Cause) : Except Issue Unit := if b then .ok () else .error (.cause c)
def checkAt (b : Bool) (c : Cause) (eva : VAddr) : Except Issue Unit := if b then .ok () else .error (.trap { cause := c, eva := eva })
/-- A condition that the instruction waits for. -/
def await (b : Bool) (cause : Nat) : Except Issue Unit := if b then .ok () else .error (.stall cause)

/-- An instruction written as checks that end in its effects. -/
def issueOf (m : Except Issue (List Effect)) : Issue :=
  match m with
  | .ok es => .done es
  | .error i => i

def State.fin (s : State) : BundleEnd := s.seq.bun.fin
def State.setFin (s : State) (f : BundleEnd) : State := { s with seq := { s.seq with bun := { s.seq.bun with fin := f } } }

/-- A variable-latency value arrives (R37, R68): its destination is written, its scoreboard bit cleared, the queue position that it
holds filled. -/
def fillQ {α : Type} (q : List (QEntry α)) (id : Nat) (v : α) : List (QEntry α) :=
  q.map fun e => match e with | .pending i => if i = id then .full v else .pending i | e => e

def State.arriveS (s : State) (w : Wait) (v : DWord) : Regs :=
  let r := match w.sd with | some (.reg n) => s.regs.writeS w.sup n v | _ => s.regs
  { r with q := fillQ r.q w.id v }

def State.arriveV (s : State) (w : Wait) (v : VReg) : Regs × VReg :=
  match w.vd with
  | some (.reg n) =>
    let x := mergeV ((s.regs.v[n]?).getD 0) v w.lanes
    ({ s.regs with v := s.regs.v.set n x, qv := fillQ s.regs.qv w.id x }, x)
  | _ => ({ s.regs with qv := fillQ s.regs.qv w.id (v &&& w.lanes) }, v &&& w.lanes)

/-- A wait whose value has arrived and whose position has been taken is over. -/
def Wait.over (w : Wait) : Bool := w.placed && !w.outstanding

def State.arrive (s : State) (id : Nat) (a : Arrived) (flags : Flags) : State :=
  match s.pipe.waits.find? fun w => w.id == id && w.outstanding with
  | none => s
  | some w =>
    let s := s.setStatus flags
    let (regs, a) := match a with
      | .scalar v => (s.arriveS w v, Arrived.scalar v)
      | .vector v => let (r, x) := s.arriveV w v; (r, .vector x)
      | a => (s.regs, a)
    { s with
      regs := regs
      pipe := { s.pipe with waits := (s.pipe.waits.map fun x => if x.id = id then { x with arrived := a } else x).filter fun x => !x.over } }

/-- R201: the array sets sticky bits; an MSTAT that has issued and would clear them no longer does. -/
def strikeSticky (m : BitVec 6) (f : InFlight) : InFlight :=
  match f.what with
  | .sticky c => { f with what := .sticky (c &&& ~~~m) }
  | _ => f

def State.setSticky (s : State) (m : BitVec 6) : State :=
  { s with mat := { s.mat with sticky := s.mat.sticky ||| m }, pipe := { s.pipe with inflight := s.pipe.inflight.map (strikeSticky m) } }

/-- R122: an entry as it enters the buffer. The supervisor has no region whose commit would release it, so its entry drains at once
(log 26), and its synchronisation bits are ignored (R286). -/
def State.entered (s : State) (e : BufEntry) : BufEntry :=
  let pol := if s.k.priv then e.pol &&& 0xFFFFFF3F#32 else e.pol
  let e := { e with id := s.nextId, slot := s.seq.bun.slot, seq := s.seq.count, job := s.k.jobtag, cube := s.k.cube, pol := pol, sup := s.k.priv }
  if s.inRegion then { e with state := .opened } else { e with state := .draining, out := [] }

/-- One effect. -/
def Effect.apply (e : Effect) (s : State) : State :=
  match e with
  | .land left flags what =>
    { s with pipe := { s.pipe with inflight := s.pipe.inflight ++ [⟨left, s.seq.bun.slot, s.seq.count, s.k.priv, flags, what⟩] } }
  | .wait w =>
    { s with
      pipe := { s.pipe with waits := s.pipe.waits ++ [{ w with id := s.nextId, slot := s.seq.bun.slot, seq := s.seq.count, sup := s.k.priv, inRgn := s.inRegion }] }
      nextId := s.nextId + 1 }
  | .reads us => { s with rgn := s.rgn.map fun r => r.read us }
  | .writes us => { s with rgn := s.rgn.map fun r => r.write us }
  | .pushLoop l => s.setFin { s.fin with pushed := some l }
  | .skip a => s.setFin { s.fin with skip := some a }
  | .leave => s.setFin { s.fin with leaves := s.fin.leaves + 1 }
  | .delay n => s.setFin { s.fin with delay := max s.fin.delay n }
  | .brk => s.setFin { s.fin with brk := true }
  | .draw n => s.setFin { s.fin with draws := s.fin.draws + n }
  | .redirect left t => { s with seq := { s.seq with redirects := s.seq.redirects ++ [⟨left, s.seq.count, s.seq.bun.slot, t &&& ~~~0xF#48⟩] } }
  | .trapReq i => { s with seq := { s.seq with trapReq := some i } }
  | .buffer e =>
    { s with
      buf := s.buf ++ [s.entered e]
      nextId := s.nextId + 1
      rgn := s.rgn.map fun r => { r with used := r.used + e.cost } }
  | .commit => s.commitRegion
  | .committing => { s with rgn := s.rgn.map fun r => { r with committing := true } }
  | .opens o => s.setFin { s.fin with opens := some o }
  | .rend => s.setFin { s.fin with rend := true }
  | .yields => s.setFin { s.fin with yields := true }
  | .perform o => { s with seq := { s.seq with perform := o } }
  | .direct n => { s with seq := { s.seq with direct := (s.seq.bun.slot, n) :: s.seq.direct.filter fun x => x.1 != s.seq.bun.slot } }
  | .taken w => s.setFin { s.fin with taken := s.fin.taken + 2 ^ s.seq.bun.slot, branchWord := if w = 0 then s.fin.branchWord else w }
  | .resumes => { s with rgn := s.rgn.map fun r => { r with resIssued := true } }
  | .status f => s.setStatus f
  | .trace kd d w => s.trace kd d w
  | .traceRaw l => s.traceRaw l
  | .banks l n => { s with pipe := { s.pipe with banks := (s.pipe.banks.filter fun b => decide (s.clock < b.upto)) ++ [⟨s.seq.count, l, s.clock + n⟩] } }
  | .arrive id a f => s.arrive id a f
  | .sp a bs => { s with sp := Memory.write s.sp a bs }
  | .hbm pa bs => s.writeHbm pa bs
  | .rngCtr v => { s with k := { s.k with rngCtr := v } }
  | .setBuf b => { s with buf := b }
  | .setMat m => { s with mat := m }
  | .sticky m => s.setSticky m
  | .setVaults v => { s with vaults := v }
  | .setAcqs a => { s with acqs := a }
  | .setEng e => { s with eng := e }
  | .setPoison p => { s with poison := p }
  | .setL2 l => { s with l2 := l }
  | .setTlb t => { s with tlb := t }
  | .setRtags r => { s with rtags := r }
  | .setXch x => { s with xch := x }
  | .setFab f => { s with fab := f }
  | .setSch c => { s with sch := c }
  | .setErr e => { s with err := e }
  | .setHst h => { s with hst := h }
  | .ids n => { s with nextId := s.nextId + n }
  | .orphans n => { s with k := { s.k with pinorph := BitVec.ofNat 32 (min (2 ^ 32 - 1) (s.k.pinorph.toNat + n)) } }
  | .record k c u a i => s.errorRecord k s.k.jobtag (causeWord 3 c.code) s.curQueue u 0 0 a i false
  | .notify n => s.notice n

/-- Effects in order. -/
def applyAll (s : State) (es : List Effect) : State := es.foldl (fun s e => e.apply s) s

/-- From what an instruction does to the machine's answer: its effects; a stalled bundle; the cause taken; a stop. -/
def State.settle (s : State) (i : Issue) : Host.Outcome State Fault Refusal :=
  match i with
  | .done es => .next (applyAll s es)
  | .stall c => .next { s with seq := { s.seq with bun := { s.seq.bun with stalled := some c } } }
  | .pause es c =>
    let s1 := applyAll s es
    .next { s1 with seq := { s1.seq with bun := { s1.seq.bun with stalled := some c, kept := true } } }
  | .trap t => .next (s.takeTrap t)
  | .halt f => .fault f

/-! ## The end of a bundle -/

/-- What comes due at the end of a bundle: a landing, or the queue position of a variable-latency result (R37). -/
inductive Due where
  | land (f : InFlight)
  | place (w : Wait)
  deriving DecidableEq, Repr

def Due.slot : Due → Nat
  | .land f => f.slot
  | .place w => w.slot

def Due.seq : Due → Nat
  | .land f => f.seq
  | .place w => w.seq

/-- Mask changes and stores apply in issue order (R167, R179); everything else in slot order, and within one slot in issue order
(R39, R40, R70). -/
def Due.inIssueOrder : Due → Bool
  | .land f => match f.what with | .mask _ => true | .store .. => true | _ => false
  | .place _ => false

def insertDue (k : Due → Nat) (d : Due) : List Due → List Due
  | [] => [d]
  | x :: l => if k d < k x then d :: x :: l else x :: insertDue k d l

/-- Stable sort by a key. -/
def sortDue (k : Due → Nat) : List Due → List Due
  | [] => []
  | d :: l => insertDue k d (sortDue k l)

def sortIssue (l : List Due) : List Due := l.foldl (fun acc d => insertDue Due.seq d acc) []
def sortSlot (l : List Due) : List Due := (sortIssue l).foldl (fun acc d => insertDue Due.slot d acc) []

/-- A queue position is taken: with the value if it has arrived, as pending if not (R37), whatever has emptied the queue since (log 93). -/
def State.place (s : State) (w : Wait) : State :=
  let regs := match w.arrived with
    | .scalar v => if w.sd.isSome then { s.regs with q := pushQ s.regs.q (.full v) } else s.regs
    | .vector v => if w.vd.isSome then { s.regs with qv := pushQ s.regs.qv (.full v) } else s.regs
    | _ =>
      let r := if w.sd.isSome then { s.regs with q := pushQ s.regs.q (.pending w.id) } else s.regs
      if w.vd.isSome then { r with qv := pushQ r.qv (.pending w.id) } else r
  { s with
    regs := regs
    pipe := { s.pipe with waits := (s.pipe.waits.map fun x => if x.id = w.id then { x with placed := true } else x).filter fun x => !x.over } }

/-- R119: a landing that writes a unit of the read-first set raises the antidependence fault, and does not take effect; otherwise it
joins the write set. -/
def State.landChecked (s : State) (f : InFlight) : Except Trap State :=
  let us := landingUnits f.what
  match s.rgn with
  | some r => if r.clash us then .error { cause := .antidependence, slotless := true } else .ok ({ s with rgn := some (r.write us) }.land f)
  | none => .ok (s.land f)

def State.takeDue (s : State) (d : Due) : Except Trap State :=
  match d with
  | .land f => s.landChecked f
  | .place w => .ok (s.place w)

def takeAll (s : State) : List Due → Except Trap State
  | [] => .ok s
  | d :: l => do
    let s ← s.takeDue d
    takeAll s l

def Due.flags : Due → Flags
  | .land f => f.flags
  | .place _ => 0

/-- What is due now, in the order in which it takes effect. -/
def State.dueNow (s : State) : List Due :=
  let ds := (s.pipe.inflight.filter fun f => f.left == 0).map Due.land
    ++ (s.pipe.waits.filter fun w => !w.placed && w.left == 0).map Due.place
  sortSlot (ds.filter fun d => !d.inIssueOrder) ++ sortIssue (ds.filter Due.inIssueOrder)

/-- R36, R37, R68: what is due takes effect, and sets its STATUS bits after any SETK has cleared them; what is not due comes one
bundle nearer. A fault found here undoes the whole landing (log 94). -/
def State.landings (s : State) : Except Trap State :=
  let ds := s.dueNow
  let s1 := { s with pipe :=
    { s.pipe with
      inflight := (s.pipe.inflight.filter fun f => f.left != 0).map fun f => { f with left := f.left - 1 },
      waits := s.pipe.waits.map fun w => if !w.placed && w.left != 0 then { w with left := w.left - 1 } else w } }
  match takeAll s1 ds with
  | .error t => .error t
  | .ok s2 => .ok (s2.setStatus (ds.foldl (fun acc d => acc ||| d.flags) 0))

/-- R89: the loop whose end address has just issued. At most six levels end together. -/
def loopEnd (here : VAddr) : Nat → List LoopLevel → VAddr → List LoopLevel × VAddr
  | 0, ls, next => (ls, next)
  | n + 1, ls, next =>
    match ls with
    | [] => ([], next)
    | l :: rest =>
      if l.fin = here then
        if 1 < l.count.toNat then ({ l with index := l.index + 1, count := l.count - 1 } :: rest, l.start)
        else loopEnd here n rest next
      else (ls, next)

/-- R89, R98: LEAVE pops the innermost level; its end address counts as issued. -/
def leaveLoops : Nat → List LoopLevel → Option VAddr → List LoopLevel × Option VAddr
  | 0, ls, here => (ls, here)
  | n + 1, ls, here =>
    match ls with
    | [] => ([], here)
    | l :: rest => leaveLoops n rest (some l.fin)

/-- R89: the loop stack after a bundle, and the next address before any redirect. -/
def nextAddr (a : VAddr) (f : BundleEnd) (loops : List LoopLevel) : List LoopLevel × VAddr :=
  let loops0 := match f.pushed with | some l => if loops.length < 6 then l :: loops else loops | none => loops
  let here0 : Option VAddr := if f.pushed.isSome then none else match f.skip with | some e => some e | none => some a
  let (loops1, here) := leaveLoops f.leaves loops0 here0
  match here with
  | none => (loops1, a + 16)
  | some h => loopEnd h 7 loops1 (h + 16)

/-- R88: among the redirects that are due, the one issued earliest stands, and within one bundle the lowest slot. -/
def pickRedirect : List Redirect → Option Redirect
  | [] => none
  | r :: l =>
    match pickRedirect l with
    | none => some r
    | some x => if r.seq < x.seq ∨ (r.seq = x.seq ∧ r.slot ≤ x.slot) then some r else some x

/-- R88: a redirect that loses is recorded as not taken. -/
def BranchRec.lost (x : BranchRec) (l : List Redirect) : BranchRec :=
  { x with taken := (l.filter fun r => r.seq == x.seq).foldl (fun n r => if n.testBit r.slot then n - 2 ^ r.slot else n) x.taken }

/-- R89: the next address, loop changes and redirects. -/
def State.advance (s : State) (a : VAddr) (f : BundleEnd) : State :=
  let (loops, next) := nextAddr a f s.seq.loops
  let due := s.seq.redirects.filter fun r => r.left == 0
  let win := pickRedirect due
  let pc := match win with | some r => r.target | none => next
  let losers := due.filter fun r => some r != win
  { s with seq := { s.seq with
    loops := loops, pc := pc &&& ~~~0xF#48, redirects := s.seq.redirects.filter (fun r => r.left != 0), held := s.seq.held.map fun x => x.lost losers } }

/-! ## Boundaries (R106, R129, R379) -/

/-- The entry of an event that is taken at a boundary: the region about to open is held, or the program resumes outside region mode. -/
def State.enterAt (s : State) (c : Cause) (eva : VAddr) (einfo : DWord) (epc : VAddr) : State :=
  let r := s.rgn.map fun r => { r with again := !r.byBoundary }
  s.enter (causeWord 3 c.code) epc eva einfo (if c = .jobFenced then .fenced else if s.rgn.isSome then .boundary else .outside) r

/-- Something is to be taken at this boundary. -/
def State.boundaryDue (s : State) (yields : Bool) : Bool :=
  s.seq.dueTrap.isSome || (!s.k.priv && (s.seq.pend.isSome || s.sch.preempt.isSome || yields || !s.sch.notices.isEmpty))

/-- R129, R137: the event is taken before the region opens, so RTAG and RCOUNT are still those of `old`. -/
def State.unopened (s old : State) : State :=
  { s with
    k := { s.k with rtag := old.k.rtag, rcount := old.k.rcount }
    rgn := s.rgn.map fun r => { r with tagged := false } }

/-- R137: the region that a re-entry opens at last sets RTAG and RCOUNT. -/
def State.tagOpened (s : State) : State :=
  match s.rgn with
  | some r => if r.tagged then s else { s with rgn := some { r with tagged := true }, k := { s.k with rcount := 0, rtag := r.desc.setWidth 8 } }
  | none => s

/-- R129, R135: a trap request, a cause, an urgent event, a pre-emption and then any other event are taken, one at a time. -/
def State.boundary (s : State) (epc : VAddr) (yields : Bool) : State :=
  match s.seq.dueTrap with
  | some i => s.enterAt .softwareTrap 0 (i.setWidth 64) epc
  | none =>
    if s.k.priv then s
    else
      match s.seq.pend, s.sch.notices.find? fun n => n.urgent with
      | some (t, einfo), _ => s.faultAt t einfo epc
      | none, some n => { s with sch := { s.sch with notices := s.sch.notices.erase n } }.enterAt n.cause n.eva n.einfo epc
      | none, none =>
        if s.sch.preempt.isSome || yields then { s with sch := { s.sch with preempt := none } }.enterAt .preemption 0 0 epc
        else
          match s.sch.notices with
          | n :: rest => { s with sch := { s.sch with notices := rest } }.enterAt n.cause n.eva n.einfo epc
          | [] => s

/-- The bundle has issued: counts, and redirects one bundle nearer (R13, R88, R110, R113). -/
def State.counted (s : State) : State :=
  let out := if s.k.priv || s.inRegion || s.fin.rend then 0 else s.seq.outside + 1
  { s with
    rgn := s.rgn.map fun r => { r with counted := r.counted + 1 }
    seq := { s.seq with
      issued := s.seq.issued + 1, count := s.seq.count + 1, outside := out, direct := [], words := [], waited := 0,
      redirects := s.seq.redirects.map fun r => { r with left := r.left - 1 } } }

/-- The end of a bundle that returned from the supervisor: results land; the next address and the mode are already set. What the
supervisor still has in flight stays so (log 92). -/
def State.endReturn (s : State) : State :=
  match { s with seq := { s.seq with count := s.seq.count + 1 } }.landings with
  | .error t => s.takeTrap t
  | .ok s1 => { s1 with seq := { s1.seq with bun := .start } }

/-- The end of a fetched bundle at address `a` (R39, R57, R68, R70, R89, R107, R116, R118, R129). A region that this bundle
opens keeps the loop stack from before its loop-end action (log 98). -/
def State.endBundle (s : State) (a : VAddr) : State :=
  let f := s.fin
  if f.returns then s.endReturn else
  let s0 := { s with k := { s.k with rngCtr := s.k.rngCtr + BitVec.ofNat 64 f.draws } }
  let s1 := if f.opens.isSome then { s0 with regs := s0.regs.emptyQueues } else s0
  let s1 := if f.record then { s1 with seq := { s1.seq with held := s1.seq.held ++ [⟨s.seq.count, s.seq.issued, f.taken, f.branchWord⟩] } } else s1
  match s1.counted.landings with
  | .error t => s1.takeTrap t
  | .ok s2 =>
    let s3 := { s2 with seq := { s2.seq with halted := s2.seq.halted || (f.brk && s2.hst.nctl.getLsbD 3), bun := .start } }
    let s3 := if s3.seq.halted && !s2.seq.halted then s3.setHint 3 else s3
    match f.opens with
    | some o =>
      if o.byBoundary then
        let s4 := (s3.advance a f).traceBranches
        (s4.openRegion o s4.seq.pc).boundary s4.seq.pc f.yields
      else
        let s4 := ((s3.openRegion o a).advance a f).traceBranches
        (if o.fresh && s4.boundaryDue f.yields then s4.unopened s3 else s4).boundary a f.yields
    | none =>
      if 0 < f.delay then { s3 with seq := { s3.seq with delay := f.delay, delayEnd := { f with delay := 0 } } }.traceBranches
      else
        let s4 := (s3.advance a f).traceBranches
        if f.rend then s4.boundary s4.seq.pc false
        else if f.yields && !s4.k.priv then s4.enterAt .preemption 0 0 s4.seq.pc
        else s4

/-- One empty bundle of a DELAY block (R107). -/
def State.emptyBundle (s : State) : State :=
  match s.counted.landings with
  | .error t => s.takeTrap t
  | .ok s1 =>
    let s2 := { s1 with seq := { s1.seq with delay := s1.seq.delay - 1, bun := .start } }
    if s2.seq.delay = 0 then
      let s3 := s2.advance s2.seq.pc s2.seq.delayEnd
      { s3 with seq := { s3.seq with delayEnd := .none } }.traceBranches
    else s2

/-- How far a supervisor instruction in this slot that acts directly on other nodes has come (R224, R251). -/
def State.directOf (s : State) : Nat := ((s.seq.direct.find? fun x => x.1 == s.seq.bun.slot).map (·.2)).getD 0

/-! ## Shared checks -/

/-- R397: a cause found by an operation after its issue is reported with the slot and the bundle that issued it. -/
def State.asOf (s : State) (slot seq : Nat) : State :=
  { s with
    seq := { s.seq with bun := { s.seq.bun with slot := slot } }
    rgn := s.rgn.map fun r => { r with counted := seq - r.seq } }

/-- R113: a program outside region mode issues only classes SA, BR and SY. The supervisor never runs in region mode and issues every
class (R251, R224, R304). A boundary instruction whose region has committed belongs to that region still. -/
def State.needRegion (s : State) : Except Issue Unit := check (s.k.priv || s.inRegion || s.seq.perform.isSome) .regionContext

/-- R203: a matrix instruction belongs to region mode, whoever issues it. -/
def State.needOpen (s : State) : Except Issue Unit := check s.inRegion .regionContext

/-- R43, R403: SUP instructions are the supervisor's. -/
def State.needSup (s : State) : Except Issue Unit := check s.k.priv .privilege

/-- R36, R88, R157: nothing with a fixed latency is in flight and no redirect is pending (R91, R117). -/
def State.quiet (s : State) : Bool := s.pipe.inflight.isEmpty && s.seq.redirects.isEmpty

/-- R214: the vault of an address is owned by the job. -/
def State.vaultOwned (s : State) (v : Nat) : Bool :=
  match s.vaults[v]? with
  | some x => x.state == .owned && x.owner == s.k.jobtag && !x.quarantined
  | none => false

/-- R214: an acquisition by this job waits for the vault, or the vault is scrubbing for it. -/
def State.vaultComing (s : State) (job : BitVec 16) (v : Nat) : Bool :=
  (s.acqs.any fun a => a.job == job && a.vaults.getLsbD v)
    || (match s.vaults[v]? with | some x => x.state == .scrubbing && x.owner == job | none => false)

inductive VUse where
  | read | write | neither
  deriving DecidableEq, Repr

/-- R120: the vault of an extent is one that the open region allows for this use. -/
def State.discipline (s : State) (v : Nat) (u : VUse) : Bool :=
  match s.rgn with
  | none => true
  | some r =>
    match u with
    | .read => r.rmask.getLsbD v
    | .write => r.wmask.getLsbD v
    | .neither => !r.rmask.getLsbD v && !r.wmask.getLsbD v

/-- R403: a unit of this class, or this vault, is under test. -/
def State.testing (s : State) (c : Nat) : Bool := match s.err.selft with | some t => t.uclass == c | none => false
def State.testingVault (s : State) (v : Nat) : Bool := match s.err.selft with | some t => t.uclass == 3 && t.unit_ == v | none => false

/-- R207, R120, for an access of a program to a read or write vault; the supervisor is checked under R207 alone. -/
def State.spCheck (s : State) (a n : Nat) (u : VUse) : Except Issue Unit := do
  check (spExtent a n) .scratchpadAddress
  await (!s.k.priv || !s.testingVault (vaultOf a)) 0x04
  check (s.k.priv || s.discipline (vaultOf a) u) .vaultDiscipline

/-- R214: an engine extent or signal word in neither mask: owned, or an acquisition by the job waits. -/
def State.ownOrWait (s : State) (a : Nat) : Except Issue Unit :=
  check (s.k.priv || s.vaultOwned (vaultOf a) || s.vaultComing s.k.jobtag (vaultOf a)) .vaultOwnership

/-- Copy commands of the open region that its buffer holds. -/
def State.heldCopies (s : State) : List CopyCmd :=
  s.buf.filterMap fun e => match e.op with | .copy c => if e.state = .opened then some c else none | _ => none

/-- R132: the resumable operation of the region has not finished. -/
def State.resUnfinished (s : State) (r : Region) : Bool :=
  !s.mat.queue.isEmpty || s.pipe.waits.any Wait.outstanding
    || (s.heldCopies ++ s.eng.copies).any (fun c => c.res && c.region == some r.id)
    || s.xch.ports.any fun js => js.any fun j => j.recs.any fun x => x.res && x.region == some r.id && x.phase != .done

def State.closeWaits (s : State) (id : Nat) : Option Nat :=
  let unmet := s.xch.ports.flatMap fun js => js.flatMap fun j =>
    (j.recs.filter fun x => x.region == some id && x.phase == .posted && !x.again).map fun x => j.posts.any fun p => p.xseq == x.xseq
  if !s.mat.queue.isEmpty then some 0x05
  else if s.pipe.waits.any Wait.outstanding then some 0x09
  else if unmet.contains false then some 0x07
  else if unmet.contains true then some 0x0F
  else if (s.buf.any fun e => e.state == .opened && !e.out.isEmpty) then some 0x09
  else
    match (s.heldCopies ++ s.eng.copies).find? fun c => c.region == some id && !c.admitted with
    | some c => if c.waitsVault then some 0x0F else some 0x09
    | none => none

/-- R128, R117: what the closing region still waits for, as a stall cause: 0x09 for the operation of a resumable region (R132), also while it stands in
the matrix queue, where R193 has 0x05 (log 113). -/
def State.regionWaits (s : State) : Option Nat :=
  match s.rgn with
  | some r => if r.resum && s.resUnfinished r then some 0x09 else s.closeWaits r.id
  | none => if !s.mat.queue.isEmpty then some 0x05 else if s.pipe.waits.any Wait.outstanding then some 0x09 else none

/-- R124, R125: the region that follows a commit under the same descriptor. -/
def Region.next (r : Region) (byBoundary : Bool) : Opening := ⟨r.rmask, r.wmask, r.desc, byBoundary, false, 0⟩

/-- R119: a variable-latency destination is written at issue. -/
def State.varWrite (s : State) (us : List TUnit) : Except Issue (List Effect) :=
  match s.rgn with
  | some r => if r.clash us then .error (.cause .antidependence) else .ok [.writes us]
  | none => .ok []

/-- R134: the entry of the signature table that a checkable region names. -/
def State.signatureOk (s : State) (count crc : Nat) : Bool :=
  match s.rgn with
  | none => true
  | some r => !r.check || (decide (r.counted + 1 = count) && decide ((r.crc ^^^ 0xFFFFFFFF#32).toNat = crc))

end Sys2Proof.Machine
end

