-- ==== Sys2Proof/Machine/Walk.lean ====
section
/-! DEFINITION. Virtual addresses and translation (09_memory R232 to R241, R246, R248, R250), the policy of cache lines (R243), and the
lines that the L2 holds (R242, R244, R245, R259). -/

namespace Sys2Proof.Machine

/-! ## Walks (R236 to R239) -/

inductive WalkFail where
  | notPresent | malformed | hole (pa : Nat)
  deriving DecidableEq, Repr

def WalkFail.issue (f : WalkFail) (va : VAddr) : Issue :=
  match f with
  | .notPresent => .trap { cause := .pageNotPresent, eva := va }
  | .malformed => .trap { cause := .malformedEntry, eva := va }
  | .hole pa => .halt (.hbmHole pa)

/-- A leaf that R237 and R239 allow at level `lvl`. -/
def leafOk (e : DWord) (lvl : Nat) : Bool :=
  decide (3 ≤ lvl) && !(lvl == 3 && bits e 16 5 != 0) && decide (bits e 16 21 * 2 ^ 16 < hbmEnd) && bits e 5 2 != 3 && bits e 9 2 != 3
    && !(e.getLsbD 4 && bits e 40 14 != 0)

/-- The reserved bits of a leaf and of a non-leaf entry. -/
def entryReserved (e : DWord) : Bool :=
  if e.getLsbD 1 then bits e 54 10 != 0 || bits e 37 3 != 0 || bits e 11 5 != 0 else bits e 37 27 != 0 || bits e 2 6 != 0

/-- The index into the table of level `lvl`. -/
def walkIndex (va : VAddr) (lvl : Nat) : Nat :=
  if lvl = 1 then bits va 39 9 else if lvl = 2 then bits va 30 9 else if lvl = 3 then bits va 21 9 else bits va 16 5

/-- The levels from `lvl` on, `fuel` of them. -/
def walkFrom (m : Memory) (va : VAddr) : Nat → Nat → Nat → Except WalkFail (DWord × Nat)
  | 0, _, _ => .error .malformed
  | fuel + 1, lvl, t =>
    let a := t + 8 * walkIndex va lvl
    if hbmEnd < a + 8 then .error (.hole a)
    else
      let e := m.dword a
      if !e.getLsbD 0 then .error .notPresent
      else if entryReserved e then .error .malformed
      else if e.getLsbD 1 then (if leafOk e lvl then .ok (e, lvl) else .error .malformed)
      else if lvl = 4 || (decide (lvl < 3) && bits e 8 4 != 0) then .error .malformed
      else walkFrom m va fuel (lvl + 1) (bits e 8 29 * 2 ^ 8)

/-- R236, R237: WALK. -/
def walk (m : Memory) (jtbase : DWord) (job : BitVec 16) (va : VAddr) : Except WalkFail (DWord × Nat) :=
  let a := jtbase.toNat + 16 * job.toNat
  if hbmEnd < a + 16 then .error (.hole a)
  else
    let d0 := m.dword a
    let d1 := m.dword (a + 8)
    if !d0.getLsbD 0 then .error .notPresent
    else if bits d0 37 27 != 0 || bits d0 1 11 != 0 || d1 != 0 then .error .malformed
    else walkFrom m va 4 1 (bits d0 12 25 * 2 ^ 12)

/-! ## TLBs (R241, R246) -/

def pageOf (va : VAddr) : Nat := va.toNat / 65536

def TlbEntry.covers (t : TlbEntry) (job : BitVec 16) (va : VAddr) : Bool :=
  t.job == job && decide (t.page ≤ pageOf va ∧ pageOf va < t.page + t.pages)

/-- A requester finds the entry in its first-level TLB or in the second level. -/
def TlbEntry.seenBy (t : TlbEntry) (rq : Requester) : Bool := t.first.contains rq || t.second

/-- The entry that a leaf fills. -/
def tlbOf (job : BitVec 16) (va : VAddr) (e : DWord) (lvl : Nat) (rq : Requester) : TlbEntry :=
  if lvl = 3 then ⟨job, pageOf va / 32 * 32, 32, e, 3, [rq], true⟩ else ⟨job, pageOf va, 1, e, 4, [rq], true⟩

/-- The entry numbered `i` of those that pass the test is given up in the way `drop` says. -/
def tlbDrop (test : TlbEntry → Bool) (drop : TlbEntry → TlbEntry) : Nat → List TlbEntry → List TlbEntry
  | _, [] => []
  | i, t :: l => if test t then (if i = 0 then drop t :: l else t :: tlbDrop test drop (i - 1) l) else t :: tlbDrop test drop i l

/-- Room in one level of `cap` entries. -/
def tlbRoom (test : TlbEntry → Bool) (drop : TlbEntry → TlbEntry) (cap pick : Nat) (l : List TlbEntry) : List TlbEntry :=
  if l.countP test < cap then l
  else (tlbDrop test drop (pick % cap) l).filter fun t => !t.first.isEmpty || t.second

/-- R246: room for one entry in a first-level TLB of 256. -/
def tlbRoomFirst (rq : Requester) (pick : Nat) (l : List TlbEntry) : List TlbEntry :=
  tlbRoom (fun t => t.first.contains rq) (fun t => { t with first := t.first.erase rq }) 256 pick l

/-- R246: room for one entry in the second level of 16,384. -/
def tlbRoomSecond (pick : Nat) (l : List TlbEntry) : List TlbEntry := tlbRoom (·.second) (fun t => { t with second := false }) 16384 pick l

/-- The physical address that a leaf gives. -/
def leafPa (e : DWord) (lvl : Nat) (va : VAddr) : Nat :=
  bits e 16 21 * 2 ^ 16 + (if lvl = 3 then bits va 0 21 else bits va 0 16)

/-- R248: the poison bit of the block of a physical address is looked up: its line of the bitmap is in the bitmap cache, of 512 lines (log 101). -/
def Tlb.lookUp (t : Tlb) (pick pa : Nat) : Tlb :=
  let l := pa / 0x400000
  if t.bitmap.contains l then t
  else { t with bitmap := (if t.bitmap.length < 512 then t.bitmap else t.bitmap.eraseIdx (pick % 512)) ++ [l] }

/-- A cached leaf, or the walk's (log 6, log 7). The poison bit of a block that lies here is looked up with it (R248). -/
def State.leaf (s : State) (rq : Requester) (job : BitVec 16) (va : VAddr) : Except WalkFail (DWord × Nat × Tlb) :=
  let pick := Config.tlbVictim s.clock (pageOf va)
  let l := s.tlb.entries
  let found (e : DWord) (lvl : Nat) (es : List TlbEntry) : DWord × Nat × Tlb :=
    let t : Tlb := { s.tlb with entries := es }
    (e, lvl, if bits e 40 14 = 0 then t.lookUp pick (leafPa e lvl va) else t)
  match l.find? fun t => t.covers job va && t.seenBy rq with
  | some t =>
    .ok (found t.entry t.level
      (if t.first.contains rq then l else (tlbRoomFirst rq pick l).map fun x => if x = t then { x with first := x.first ++ [rq] } else x))
  | none =>
    match walk s.hbm s.hst.jtbase job va with
    | .ok (e, lvl) => .ok (found e lvl (tlbRoomSecond pick (tlbRoomFirst rq pick l) ++ [tlbOf job va e lvl rq]))
    | .error f => .error f

/-- R243. -/
def lineHash (va : VAddr) : BitVec 8 :=
  let l (lo n : Nat) : BitVec 8 := BitVec.ofNat 8 (bits va (7 + lo) n)
  l 0 8 ^^^ l 8 8 ^^^ l 16 8 ^^^ l 24 8 ^^^ l 32 8 ^^^ l 40 1

def prioOf (e : DWord) (pol : BitVec 32) (va : VAddr) : Prio :=
  let h := (lineHash va).toNat
  let p : Prio :=
    if polT2 pol = 0 then (if bits e 9 2 = 0 then .evictFirst else if bits e 9 2 = 1 then .normal else .keep)
    else if h < polT1 pol then .evictFirst else if h < polT2 pol then .normal else .keep
  if bits e 5 2 = 1 ∧ p = .keep then .normal else p

def leafAttr (e : DWord) (pol : BitVec 32) (va : VAddr) : Attr := ⟨bits e 5 2, e.getLsbD 7, prioOf e pol va, e.getLsbD 4⟩

/-- R233: the physical window is cached at level L2, write-back, with normal priority. -/
def physAttr : Attr := ⟨1, false, .normal, false⟩

/-- A translated access. -/
structure Xlat where
  loc  : Loc
  attr : Attr
  tlb  : Tlb
  deriving DecidableEq, Repr

/-- R239, R240: where a leaf's page lies. A HOME that is no dimension set of the subcube raises the dimension fault (R293). -/
def KRegs.homeOf (k : KRegs) (e : DWord) (lvl : Nat) (va : VAddr) : Except Issue Loc :=
  let home := bits e 40 14
  if home = 0 then .ok (.here (leafPa e lvl va))
  else if k.consistent && decide (home < 2 ^ k.m) then .ok (.peer (k.peer home) (leafPa e lvl va))
  else .error (.trap { cause := .dimension, eva := va })

/-- R250: protection. -/
def protection (e : DWord) (acc : Access) (va : VAddr) : Except Issue Unit :=
  match acc with
  | .read => .ok ()
  | .write => checkAt (e.getLsbD 2 && !e.getLsbD 4) .writeProtection va
  | .exec => checkAt (e.getLsbD 3) .executeProtection va

/-- R248, R249: the block of a physical address is poisoned. -/
def State.poisoned (s : State) (pa : Nat) : Bool := s.poison.contains (pa / 4096)

/-- R249, R404: a poison consumption implicates the L2 and HBM controllers. -/
def poisonTrap (va : VAddr) : Trap := { cause := .poison, eva := va, uclass := 6 }

def State.poisonCheck (s : State) (l : Loc) (va : VAddr) : Except Issue Unit :=
  match l with
  | .here pa => if s.poisoned pa then .error (.trap (poisonTrap va)) else .ok ()
  | _ => .ok ()

/-- Translation of a page for a job, without the address ranges of R232. -/
def State.page (s : State) (rq : Requester) (job : BitVec 16) (va : VAddr) (acc : Access) (pol : BitVec 32) : Except Issue Xlat :=
  match s.leaf rq job va with
  | .error f => .error (f.issue va)
  | .ok (e, lvl, tlb) => do
    protection e acc va
    let loc ← (s.kOf job).homeOf e lvl va
    .ok ⟨loc, leafAttr e pol va, tlb⟩

/-- R232: the 48-bit address that an instruction forms. -/
def formVa (a : DWord) : Except Issue VAddr := do
  checkAt (bits a 48 16 = 0) .address (a.setWidth 48)
  .ok (a.setWidth 48)

/-- R232, R233, R250: an access of a requester of the node itself, translated and checked for poison. -/
def State.translateBy (s : State) (rq : Requester) (va : VAddr) (acc : Access) (pol : BitVec 32) : Except Issue Xlat :=
  if va.getLsbD 47 then do
    checkAt (s.k.priv && bits va 37 10 == 0 && decide (bits va 0 37 < hbmEnd)) .address va
    .ok ⟨.here (bits va 0 37), physAttr, s.tlb⟩
  else do
    checkAt (decide (0x10000000 ≤ va.toNat)) .address va
    let x ← s.page rq s.k.jobtag va acc pol
    s.poisonCheck x.loc va
    .ok x

/-- The same for the fetch path and the LS class. -/
def State.translate (s : State) (va : VAddr) (acc : Access) (pol : BitVec 32) : Except Issue Xlat :=
  s.translateBy (if acc = .exec then .fetch else .ls) va acc pol

/-! ## The L2 (R242 to R245, R259) -/

/-- R242: the set of a line. -/
def l2Set (line : Nat) : Nat := line % 32768 ^^^ line / 32768 % 32768

def L2Line.rank (l : L2Line) : Nat := match l.prio with | .evictFirst => 0 | .normal => 1 | .keep => 2

/-- R244: the victim is, among the unpinned ways, the one of lowest priority, and of those the least recently used, which is listed first. -/
def pickVictim : List L2Line → Option L2Line
  | [] => none
  | x :: l =>
    match pickVictim l with
    | none => if x.pins = 0 then some x else none
    | some y => if x.pins = 0 ∧ x.rank ≤ y.rank then some x else some y

/-- R244: room for a line in its set. -/
def l2Room (l2 : List L2Line) (line : Nat) : Option (List L2Line) :=
  let ways := l2.filter fun x => l2Set x.line == l2Set line
  if ways.length < 16 then some l2
  else match pickVictim ways with
    | some v => some (l2.erase v)
    | none => none

/-- R243 to R245: an access to a line: it is the one used last. -/
def l2Touch (l2 : List L2Line) (line : Nat) (a : Attr) (write : Bool) : List L2Line :=
  let dirty := write && !a.wt
  match l2.find? fun x => x.line == line with
  | some x =>
    (l2.filter fun y => y.line != line)
      ++ [{ x with prio := if a.clvl = 0 then x.prio else a.prio, dirty := (x.dirty && !(write && a.wt)) || dirty }]
  | none =>
    if a.clvl = 0 then l2
    else
      match l2Room l2 line with
      | some l => l ++ [⟨line, dirty, a.prio, 0⟩]
      | none => l2

def State.touch (s : State) (l : Loc) (a : Attr) (write : Bool) : List L2Line :=
  match l with
  | .here pa => l2Touch s.l2 (pa / 128) a write
  | _ => s.l2

/-- Every line that `n` bytes from `pa` meet. -/
def l2Span (l2 : List L2Line) (pa n : Nat) (a : Attr) (write : Bool) : List L2Line :=
  (List.range (if n = 0 then 0 else (pa + n - 1) / 128 - pa / 128 + 1)).foldl (fun l i => l2Touch l (pa / 128 + i) a write) l2

/-- R259: what a cache operation does to one line at its home; the limit of 12 pinned ways is for lines that are not pinned yet (log 118). -/
def l2Op (s : State) (op : CacheOp) (line : Nat) (a : Attr) : List L2Line × Bool :=
  match op with
  | .pin =>
    if a.clvl = 0 then (s.l2, true)
    else
      let l2 := l2Touch s.l2 line a false
      let pinned := l2.countP fun x => l2Set x.line == l2Set line && decide (0 < x.pins)
      match l2.find? fun x => x.line == line with
      | none => (l2, true)
      | some x =>
        if 0 < x.pins ∨ pinned < 12 then (l2.map fun y => if y.line = line then { y with pins := Nat.min (y.pins + 1) 255 } else y, false)
        else (l2, true)
  | .unpin => (s.l2.map fun y => if y.line = line then { y with pins := y.pins - 1 } else y, false)
  | .flush => (s.l2.map fun y => if y.line = line then { y with dirty := false } else y, false)
  | .inval => (s.l2.filterMap fun y => if y.line = line then (if y.pins = 0 then none else some { y with dirty := false }) else some y, false)

/-! ## Fetch (R90, R113) -/

/-- The four slot words of the bundle at a virtual address: its physical address, or what stops the fetch. -/
def State.fetchAt (s : State) (va : VAddr) : Except Issue Xlat := s.translate va .exec 0

def State.wordsAt (s : State) (pa : Nat) : List (BitVec 32) :=
  [BitVec.ofNat 32 (Memory.word s.hbm pa 4), BitVec.ofNat 32 (Memory.word s.hbm (pa + 4) 4), BitVec.ofNat 32 (Memory.word s.hbm (pa + 8) 4),
    BitVec.ofNat 32 (Memory.word s.hbm (pa + 12) 4)]

end Sys2Proof.Machine
end

