-- ==== Sys2Proof/Machine/Flow.lean ====
section
/-! DEFINITION. What a node sends into the routed fabric: flows and their numbers (12_fabric R326, R331), requests and their tags, and
words of pages homed on a peer (09_memory R240). -/

namespace Sys2Proof.Machine

/-! ## The sender's side (R331) -/

def TxFlow.fresh (job : BitVec 16) (dst : BitVec 14) (flow : Nat) : TxFlow := ⟨job, dst, flow, 0, [], 0, 0, false, false⟩

def TxFlow.is (t : TxFlow) (job : BitVec 16) (dst : BitVec 14) (flow : Nat) : Bool := t.job == job && t.dst == dst && t.flow == flow

def Fab.flowTo (f : Fab) (job : BitVec 16) (dst : BitVec 14) (flow : Nat) : TxFlow :=
  (f.tx.find? fun t => t.is job dst flow).getD (.fresh job dst flow)

def Fab.putTx (f : Fab) (t : TxFlow) : Fab :=
  { f with tx := if f.tx.any (fun x => x.is t.job t.dst t.flow) then f.tx.map fun x => if x.is t.job t.dst t.flow then t else x else f.tx ++ [t] }

/-- R331: at most 32 packets of one flow are unacknowledged; one that is being retired takes none. -/
def Fab.hasRoom (f : Fab) (job : BitVec 16) (dst : BitVec 14) (flow : Nat) : Bool :=
  decide ((f.flowTo job dst flow).unacked.length < 32) && !(f.flowTo job dst flow).retiring

/-- A packet that enters the router of this node (R329). -/
def Fab.inject (f : Fab) (clock : Nat) (p : Packet) : Fab := { f with bufs := f.bufs ++ [⟨0, 14, clock, p, false⟩] }

/-- A sequenced packet (R331). -/
def Fab.sendFlow (f : Fab) (clock : Nat) (src : BitVec 14) (kind : Nat) (dst : BitVec 14) (job : BitVec 16) (r : RouteInfo)
    (payload : List Byte) : Fab :=
  let t := f.flowTo job dst r.flow
  let p := routedPacket kind 0 src dst job { r with eseq := t.next.toNat } payload
  let t' := { t with
    next := t.next + 1, unacked := t.unacked ++ [(t.next, p)],
    since := if t.unacked.isEmpty then clock else t.since, tries := if t.unacked.isEmpty then 0 else t.tries }
  (f.putTx t').inject clock p

/-- A fresh request tag of 15 bits (R326). -/
def freeTag (used : List Nat) : Nat → Nat → Nat
  | 0, t => t
  | n + 1, t => if used.contains t then freeTag used n ((t + 1) % 32768) else t

/-- A request and its packet. -/
def Fab.request (f : Fab) (clock : Nat) (src : BitVec 14) (who : ReqFor) (kind : Nat) (dst : BitVec 14) (job : BitVec 16) (r : RouteInfo)
    (payload : List Byte) : Fab × Nat :=
  let tag := freeTag (f.reqs.map (·.rtag)) f.reqs.length f.nextTag
  let f : Fab := { f with nextTag := (tag + 1) % 32768, reqs := f.reqs ++ [⟨tag, job, dst, r.va.getD r.addr, who, [], r.va.isSome⟩] }
  (f.sendFlow clock src kind dst job { r with rtag := tag } payload, tag)

/-- R333, R337: what a STATUS means to a request of an open region; 6 stands for a target that is unreachable. -/
def statusTrap (st : Nat) (node : BitVec 14) (va : VAddr) : Trap :=
  if st ≤ 3 then { cause := .remoteTranslation, eva := va, unit := st, detail := node.setWidth 16 }
  else if st = 4 then poisonTrap va
  else if st = 6 then { cause := .partnerLost, eva := va }
  else { cause := .vaultOwnership, eva := va }

/-- The answer that an access of a job waits for. -/
def Fab.answerTo (f : Fab) (job : BitVec 16) (who : ReqFor) : Option Answer := f.answers.find? fun a => a.job == job && a.who == who
def Fab.dropAnswer (f : Fab) (job : BitVec 16) (who : ReqFor) : Fab :=
  { f with answers := f.answers.filter fun a => !(a.job == job && a.who == who) }
/-- Its request is under way. -/
def Fab.asking (f : Fab) (job : BitVec 16) (who : ReqFor) : Bool := f.reqs.any fun q => q.job == job && q.who == who

/-- R247: the request is one of the memory's: checks, and words that the fetch path and the sequencer read, hold none; a load holds its own,
and the grammar engine one for each line. -/
def Req.counts (q : Req) : Bool := match q.who with | .wait _ | .bufCheck _ => false | .peek u _ => u == 2 | _ => true

/-- R247: memory requests of this node that are outstanding. -/
def State.requests (s : State) : Nat :=
  (s.pipe.waits.countP fun w => w.outstanding && (match w.op with | .load .. => true | _ => false)) + s.fab.reqs.countP Req.counts

/-- Loads of the running program whose requests are still to enter a flow: each has its place there (R331). -/
def State.loadsFor (s : State) (job : BitVec 16) (dst : BitVec 14) (flow : Nat) : Nat :=
  if job = s.k.jobtag then s.pipe.waits.countP fun w => w.outstanding && (match w.op with
    | .load _ (.peer n _) _ _ pol none | .load _ (.remote n _) _ _ pol none => n == dst && polClass pol == flow
    | _ => false)
  else 0

/-- R331: the flow takes one packet more beside those that are unacknowledged and those of the loads that have issued. -/
def State.flowRoom (s : State) (job : BitVec 16) (dst : BitVec 14) (flow : Nat) : Bool :=
  s.fab.hasRoom job dst flow && decide ((s.fab.flowTo job dst flow).unacked.length + s.loadsFor job dst flow < 32)

/-- R247, R331: a request can be sent now. -/
def State.maySend (s : State) (job : BitVec 16) (dst : BitVec 14) (flow : Nat) : Bool :=
  s.flowRoom job dst flow && decide (s.requests < 8192)

/-- R247: an LS-class instruction stalls while every request is in use. -/
def State.lsRoom (s : State) : Except Issue Unit := await (decide (s.requests < 8192)) 0x0B

/-- R240: a doubleword of a page homed on a peer, for a unit that goes on when it has been read; until then it stalls. The fetch path reads
the flit that holds it, so that a bundle is whole (R90; OP counts the flits, log 85). STATUS 6 stands for a peer that is unreachable. -/
def State.peekWord (s : State) (u : Nat) (node : BitVec 14) (pa : Nat) (pol : BitVec 32) (va : VAddr) (cause : Nat) : Except Issue DWord :=
  match s.fab.peeks.find? fun p => p.unit_ == u && p.node == node && p.pa == pa with
  | some p =>
    if p.status = 0 then .ok p.value
    else if p.status = 6 then .error (.trap { cause := .partnerLost, eva := va })
    else .error (.trap (statusTrap p.status node va))
  | none =>
    if s.fab.reqs.any (fun q => q.who == .peek u pa && q.target == node) || !s.flowRoom s.k.jobtag node (polClass pol)
        || (u == 2 && decide (8192 ≤ s.requests)) then .error (.stall cause)
    else .error (.pause [.setFab (s.fab.request s.clock s.k.nodeId (.peek u pa) 4 node s.k.jobtag
      { flow := polClass pol, space := 1, scope := polScope pol, type := 3, op := if u = 0 then 1 else 0, addr := BitVec.ofNat 48 pa, va := some va } []).1] cause)

/-- A doubleword of memory where a translated access lies. -/
def State.wordAt (s : State) (u : Nat) (l : Loc) (pol : BitVec 32) (va : VAddr) (cause : Nat) : Except Issue DWord :=
  match l with
  | .here pa => .ok (Memory.dword s.hbm pa)
  | .peer node pa => s.peekWord u node pa pol va cause
  | _ => .error (.trap { cause := .address, eva := va })

/-- The unit has used what it read. -/
def Fab.clearPeeks (f : Fab) (u : Nat) : Fab := { f with peeks := f.peeks.filter fun p => p.unit_ != u }

end Sys2Proof.Machine
end

