-- ==== Sys2Proof/Machine/Gate.lean ====
section
/-! DEFINITION. What a bundle must pass before its slots act (01_bundles R33 to R37, R43; 03_sequencer R91, R100; 04_regions R113, R117;
16_host R416), what its guards decide (R19), and the clock (13 R109, 14_launch R386, R387). -/

namespace Sys2Proof.Machine

/-- What the bundle at the program counter may do. -/
inductive Gate where
  | trap (slot : Nat) (t : Trap)
  | stall (cause : Nat)
  | go (slots : List (Nat × Slot))
  deriving DecidableEq, Repr

/-- R34: the instructions that stand alone in their bundle. -/
def standsAlone (word : Nat) (i : Instr) : Bool := classOfMajor (fMaj word) == .sy || i.isBoundary

/-- R43, R403: the SUP major. -/
def isSup : Instr → Bool
  | .rft | .shoot .. | .selft .. | .tlbp .. | .tlbi .. | .qrst .. | .ctxs .. => true
  | _ => false

/-- R415, R416: features that the driver has acknowledged. -/
def State.feature (s : State) (b : Nat) : Bool := s.k.feat0.getLsbD b && s.k.featack.getLsbD b

/-- R416: an instruction of a feature that is absent is an illegal encoding. -/
def State.absent (s : State) : Instr → Bool
  | .gbind .. | .gmask .. | .gstep .. | .gstat .. | .sample .. => !s.feature 0
  | .exccIsum .. | .exccLsum .. => !s.feature 1
  | .exmd _ _ _ (.excc op) _ _ => (op == 1 || op == 2) && !s.feature 1
  | _ => false

/-- R35, item 2: an illegal encoding or a privilege violation of one slot. -/
def State.slotFault (s : State) (sl : Option (Except DecodeErr Slot)) : Option Cause :=
  match sl with
  | none => none
  | some (.error _) => some .illegalEncoding
  | some (.ok sl) =>
    if s.absent sl.instr then some .illegalEncoding
    else if isSup sl.instr && !s.k.priv then some .privilege
    else match sl.instr with
      | .getk _ k => if kAccess s.k.priv k = 0 then some .privilege else none
      | .setk k _ => if kAccess s.k.priv k < 2 then some .privilege else none
      | _ => none

/-- The first slot with a defect (R35). -/
def State.firstFault (s : State) : List (Option (Except DecodeErr Slot)) → Nat → Option (Nat × Cause)
  | [], _ => none
  | sl :: l, n => match s.slotFault sl with | some c => some (n, c) | none => State.firstFault s l (n + 1)

/-- The decoded slots by number; only the first four count. -/
def goodSlots : List (Option (Except DecodeErr Slot)) → Nat → List (Nat × Slot)
  | [], _ => []
  | some (.ok sl) :: l, n => (n, sl) :: goodSlots l (n + 1)
  | _ :: l, n => goodSlots l (n + 1)

/-- R33, R34: too many of a class, or company where none is allowed. -/
def badMix (ws : List (BitVec 32)) (l : List (Nat × Slot)) : Bool :=
  let cls (n : Nat) : XClass := classOfMajor (fMaj ((ws[n]?).getD 0).toNat)
  (l.any fun (n, _) => decide ((cls n).limit < l.countP fun (m, _) => cls m == cls n))
    || (l.any fun (n, sl) => standsAlone ((ws[n]?).getD 0).toNat sl.instr && l.any fun (m, o) => m != n && o.instr != .nop)

/-- R100: a LOOP or LOOPI beside another LOOP, LOOPI or LEAVE. -/
def isLoop : Instr → Bool
  | .loop .. | .loopi .. => true
  | _ => false

def loopMix (l : List (Nat × Slot)) : Bool :=
  (l.any fun (_, sl) => isLoop sl.instr) && decide (2 ≤ l.countP fun (_, sl) => isLoop sl.instr || sl.instr == .leave)

/-- R19: the guard holds. -/
def State.guardHolds (s : State) (sl : Slot) : Bool := s.srcP sl.guard != sl.neg

/-- The vector registers that an MMAC or MMUL takes A from (R187): its K count says how many. -/
def State.vecSources (s : State) : Instr → List VSrc
  | .mmac _ (.vec p) _ k _ | .mmul _ (.vec p) _ k _ => (List.range (min 8 (bits (s.srcS k) 0 32))).map fun i => regV (2 * p + i)
  | _ => []

/-- The sources of an instruction with those that its operands' values name. -/
def State.usesNow (s : State) (i : Instr) : Uses :=
  let u := usesOf i
  { u with v := u.v ++ s.vecSources i }

/-- R37: the slots' stall, in slot order; the guard is a source of every slot, the operands of a guarded-off one too (R19). -/
def State.firstStall (s : State) : List (Nat × Slot) → Option Nat
  | [] => none
  | (_, sl) :: l =>
    match s.interlock (s.guardHolds sl) sl.guard (s.usesNow sl.instr) with
    | some c => some c
    | none => State.firstStall s l

/-- R124: boundary instructions, in full. -/
def isBoundaryClass : Instr → Bool
  | .bar .. | .gsig .. | .gwait .. | .launch .. | .exit .. | .yield => true
  | i => i.isBoundary

/-- R91: what must not issue in region mode while a redirect is pending. -/
def isShadowed : Instr → Bool
  | .rgn .. | .cmt | .rend | .rabt | .rstat .. | .trap .. => true
  | i => isBoundaryClass i

/-- R91, R117: an opening bundle with a result or a redirect in flight, or a shadowed instruction under a redirect. -/
def State.shadowFault (s : State) (sl : Slot) : Bool :=
  let acts := s.guardHolds sl
  let opens := match sl.instr with
    | .rgn .. | .cmt => acts
    | .exit .. => !acts && s.inRegion
    | i => isBoundaryClass i && s.inRegion
  !s.k.priv && s.seq.perform.isNone
    && ((opens && !s.quiet) || (s.inRegion && !s.seq.redirects.isEmpty && isShadowed sl.instr && (acts || isBoundaryClass sl.instr)))

/-- R113: the classes that a program may issue outside region mode. The matrix instructions belong to region mode whoever issues them (R203). -/
def State.outsideFault (s : State) (word : Nat) (sl : Slot) : Bool :=
  let c := classOfMajor (fMaj word)
  !s.inRegion && s.guardHolds sl
    && (c == .mx || (!s.k.priv && s.seq.perform.isNone && !(c == .none || c == .sa || c == .br || c == .sy)))

/-- R132: what may stand in a resumable region: one resumable operation, and only waits beside it. -/
def resumBit : Instr → Bool
  | .mmac _ _ _ _ r | .mmul _ _ _ _ r => r
  | .vgath _ _ _ r _ | .vscat _ _ _ r _ => r
  | .cpyl _ r | .cpy2 _ r | .cpyw _ r | .cpyx _ _ r => r
  | .exmd _ _ _ _ r _ => r
  | _ => false

def resumCompany : Instr → Bool
  | .nop | .delay _ | .waite _ | .mwait | .cmt | .rend => true
  | _ => false

/-- R132: a resumable bit outside a resumable region, another instruction inside one, a second operation (`two`: one stands in a slot
before), or a close without any. The supervisor is outside every region. -/
def State.resumFault (s : State) (two : Bool) (sl : Slot) : Bool :=
  match s.rgn with
  | none => resumBit sl.instr && s.guardHolds sl
  | some r =>
    if !s.guardHolds sl then false
    else if r.resum then
      if resumBit sl.instr then r.resIssued || two
      else !resumCompany sl.instr || ((sl.instr == .cmt || sl.instr == .rend) && !r.resIssued)
    else resumBit sl.instr

/-- The checks on slots that execute (log 10): the first slot that fails one. -/
def State.actFault (s : State) (ws : List (BitVec 32)) : Bool → List (Nat × Slot) → Option (Nat × Cause)
  | _, [] => none
  | two, (n, sl) :: l =>
    if s.outsideFault ((ws[n]?).getD 0).toNat sl then some (n, .regionContext)
    else if s.shadowFault sl then some (n, .shadow)
    else if s.resumFault two sl then some (n, .resumableRegion)
    else State.actFault s ws (two || (resumBit sl.instr && s.guardHolds sl)) l

/-- R403: while the vector unit or the engines are under test, what asks for them waits (log 89). -/
def State.testStall (s : State) (word : Nat) (sl : Slot) : Bool :=
  let c := classOfMajor (fMaj word)
  s.guardHolds sl && ((s.testing 1 && (c == .va || c == .vx || c == .vl || c == .tx)) || (s.testing 5 && (c == .xc || c == .en)))

/-- What a bundle of four words may do (R35, R37, R403). -/
def State.gate (s : State) (ws : List (BitVec 32)) : Gate :=
  let w (n : Nat) : Nat := ((ws[n]?).getD 0).toNat
  match decodeBundle (w 0) (w 1) (w 2) (w 3) with
  | .badMode => .trap 0 { cause := .illegalEncoding }
  | .slots l =>
    match s.firstFault l 0 with
    | some (n, c) => .trap n { cause := c }
    | none =>
      let good := goodSlots l 0
      if badMix ws good then .trap 0 { cause := .bundle, slotless := true }
      else if loopMix good then .trap 0 { cause := .loopStack, slotless := true }
      else
        match s.firstStall good <|> (if good.any fun (n, sl) => s.testStall (w n) sl then some 0x0A else none) with
        | some c => .stall c
        | none =>
          match s.actFault ws false good with
          | some (n, c) => .trap n { cause := c }
          | none => .go good

/-- R19, R119: what the slots read: a guard always, the operands when the guard holds. -/
def State.noteReads (s : State) (l : List (Nat × Slot)) : State :=
  match s.rgn with
  | none => s
  | some r =>
    let deep := decide (0 < s.regs.masks.length)
    { s with rgn := some (l.foldl (fun r (_, sl) =>
        r.read (predUnits sl.guard ++ (if s.guardHolds sl then (s.usesNow sl.instr).readUnits deep else []))) r) }

/-- R110: the bundles whose branch outcome is recorded. -/
def branchRecorded (ws : List (BitVec 32)) (l : List (Nat × Slot)) : Bool :=
  l.any fun (n, sl) =>
    match sl.instr with
    | .bra .. | .brmNone _ | .brmAll _ | .brmAny _ | .bri _ | .calli .. | .ret _ | .loop .. | .brk _ => true
    | _ => classOfMajor (fMaj ((ws[n]?).getD 0).toNat) == .br && (sl.guard != 0 || sl.neg)

/-! ## Commits (R128, R133, R134) -/

/-- R133: the entry of the program's signature table that the region names. What stops its read is a cause of the region, which is open
still (log 96). -/
def State.signatureVa (s : State) (r : Region) : VAddr := BitVec.ofNat 48 ((s.curRecord.map fun x => bits x 128 48).getD 0 + 8 * r.sigidx)

def State.signatureAt (s : State) (r : Region) : Except Issue DWord := do
  let va := s.signatureVa r
  let x ← s.page .ls s.k.jobtag va .read 0
  s.poisonCheck x.loc va
  s.wordAt 1 x.loc 0 va 0x09

/-- R243, R246: the line of its signature has been read, and its page translated. -/
def State.signed (s : State) (r : Region) : State :=
  if r.check then
    match s.page .ls s.k.jobtag (s.signatureVa r) .read 0 with
    | .ok x => { s with tlb := x.tlb, l2 := s.touch x.loc x.attr false }
    | .error _ => s
  else s

def State.signEffects (s : State) (r : Region) : List Effect := if r.check then [.setTlb (s.signed r).tlb, .setL2 (s.signed r).l2] else []

/-- R128, R134: the open region may commit now; until then its commit stalls, and a signature that differs is a detected error. -/
def State.commitReady (s : State) (r : Region) : Except Issue Unit :=
  match s.regionWaits with
  | some c => .error (.stall c)
  | none =>
    if r.check then
      match s.signatureAt r with
      | .ok e => if s.signatureOk (bits e 32 32) (bits e 0 32) then .ok () else .error (.trap { cause := .signatureMismatch, uclass := 0 })
      | .error (.pause es c) => .error (.pause (.committing :: es) c)
      | .error i => .error i
    else .ok ()

/-! ## A guarded-off boundary instruction (R19, R125) -/

/-- It commits and reopens all the same. -/
def State.offIssue (s : State) (i : Instr) : Issue :=
  match s.rgn with
  | some r => if isBoundaryClass i then issueOf (do s.commitReady r; .ok (s.signEffects r ++ [.commit, .opens (r.next true)])) else .done []
  | none => .done []

/-! ## The clock -/

/-- A clock passes; `frozen` says that the watchdog does not count in it (R386, R387). -/
def State.tick (s : State) (frozen : Bool) : State :=
  let k := if frozen || s.k.priv || s.sch.running.isNone || s.k.wdleft = 0 then s.k else { s.k with wdleft := s.k.wdleft - 1 }
  { s with clock := s.clock + 1, k := k }

/-- A stalled clock (R110, R111): a stall of another cause begins anew. -/
def State.stallClock (s : State) (cause : Nat) (frozen : Bool) : State :=
  let n := match s.seq.stall with | some (c, n) => if c = cause then n + 1 else 1 | none => 1
  let s := match s.seq.stall with | some (c, m) => if c = cause ∨ c = 0 then s else s.trace 0 c (BitVec.ofNat 64 m) | none => s
  { s with seq := { s.seq with stall := some (cause, n), waited := s.seq.waited + (if cause = 0 then 1 else 0), bun := .start } }.tick frozen

/-- The stall is over: its record is written (R110). WAITA writes a record of its own. -/
def State.endStall (s : State) : State :=
  match s.seq.stall with
  | none => s
  | some (c, n) =>
    if c = 0 then s else { s with seq := { s.seq with stall := none } }.trace 0 c (BitVec.ofNat 64 n)

end Sys2Proof.Machine
end

