-- ==== Sys2Proof/Machine/Access.lean ====
section
/-! DEFINITION. Accesses at their home: atomics (09_memory R252 to R254), release tags (10_ordering R277 to R279), engine errors and
dropped entries (08_scratchpad R220, 15_errors R408, R409). -/

namespace Sys2Proof.Machine

/-! ## Values -/

def atyW64 : ATy → Bool | .i64 | .z64 => true | _ => false
def tyBytes : Ty → Nat | .i64 | .z64 => 8 | .bf => 2 | .e4 | .e5 => 1 | _ => 4

/-- R252: what a load writes to its destination. -/
def loadValue (t : Ty) (n : Nat) : DWord :=
  match t with
  | .i32 => (BitVec.ofNat 32 n).signExtend 64
  | _ => BitVec.ofNat 64 (n % 2 ^ (8 * tyBytes t))

/-- R254: the new word, or none where nothing is written. -/
def amoNew (op : AmoOp) (w64 : Bool) (old v v2 : Nat) : Option Nat :=
  let w := if w64 then 64 else 32
  let sg (n : Nat) : Int := Int.bmod n (2 ^ w)
  let v := v % 2 ^ w
  match op with
  | .add => some ((old + v) % 2 ^ w)
  | .smin => some (if sg v < sg old then v else old)
  | .smax => some (if sg old < sg v then v else old)
  | .zmin => some (min old v)
  | .zmax => some (max old v)
  | .and => some (old &&& v)
  | .or => some (old ||| v)
  | .xor => some (old ^^^ v)
  | .swap => some v
  | .cas => if old = v then some (v2 % 2 ^ w) else none
  | .fadd => some (fpAdd fmtF32 .rne old v).1
  | .fmin => some (fpMin fmtF32 old v)
  | .fmax => some (fpMax fmtF32 old v)

/-- The operation codes of R254. -/
def amoCode : AmoOp → Nat
  | .add => 0 | .smin => 1 | .smax => 2 | .zmin => 3 | .zmax => 4 | .and => 5 | .or => 6 | .xor => 7 | .swap => 8 | .cas => 9
  | .fadd => 10 | .fmin => 11 | .fmax => 12

def amoOf : Nat → Option AmoOp
  | 0 => some .add | 1 => some .smin | 2 => some .smax | 3 => some .zmin | 4 => some .zmax | 5 => some .and | 6 => some .or
  | 7 => some .xor | 8 => some .swap | 9 => some .cas | 10 => some .fadd | 11 => some .fmin | 12 => some .fmax | _ => none

/-- The type codes of R21. -/
def tyCode : Ty → Nat
  | .i32 => 0 | .z32 => 1 | .i64 => 2 | .z64 => 3 | .f32 => 4 | .bf => 5 | .e4 => 6 | .e5 => 7

def tyOf (n : Nat) : Ty :=
  match n with
  | 0 => .i32 | 1 => .z32 | 2 => .i64 | 3 => .z64 | 4 => .f32 | 5 => .bf | 6 => .e4 | _ => .e5

/-! ## Release tags (R279) -/

/-- SYNC of a policy register: bit 0 acquire, bit 1 release (R63). -/
def polSync (y : BitVec 32) : Nat := bits y 6 2

/-- R270: whether node `other` lies in the scope set that node `owner`'s registers give; both run the job whose registers these are. -/
def KRegs.scopeHas (k : KRegs) (owner : BitVec 14) (scope : Nat) (other : BitVec 14) : Bool :=
  match scope with
  | 0 => owner == other
  | 1 => owner.toNat / 4 == other.toNat / 4
  | 2 => k.inScope 2 owner && k.inScope 2 other
  | _ => true

/-- R279, third case: an acquire by `node` of a word whose tag shuts it out; `k` holds the registers of the acquiring job. -/
def State.acquireDrops (s : State) (k : KRegs) (l : Loc) (node : BitVec 14) (scope : Nat) : Bool :=
  s.rtags.any fun r => r.loc == locAt l (8 * (locAddr l / 8))
    && (!k.scopeHas node scope r.node || !k.scopeHas r.node r.scope node)

/-! ## At the home -/

def State.readHome (s : State) (l : Loc) (n : Nat) : List Byte :=
  match l with
  | .here pa => Memory.bytes s.hbm pa n
  | .spad a => Memory.bytes s.sp a n
  | _ => []

/-- A write of bytes at their home: memory, the L2 line, the tags. -/
def State.writeHome (s : State) (l : Loc) (attr : Attr) (bs : List Byte) (rel : Option (BitVec 14 × Nat)) : State :=
  match l with
  | .here pa => { s.writeHbm pa bs with l2 := l2Span s.l2 pa bs.length attr true, rtags := tagWrite s.rtags l bs.length rel }
  | .spad a => { s with sp := Memory.write s.sp a bs, rtags := tagWrite s.rtags l bs.length rel }
  | _ => s

/-- R254: an atomic or a reduction at its home: the old word. -/
def State.atomicHome (s : State) (l : Loc) (attr : Attr) (op : AmoOp) (w64 : Bool) (v v2 : Nat) (rel : Option (BitVec 14 × Nat)) :
    State × Nat :=
  let n := if w64 then 8 else 4
  let old := leNat (s.readHome l n)
  match amoNew op w64 old v v2 with
  | some x => (s.writeHome l attr (toBytes n x) rel, old)
  | none => ({ s with l2 := s.touch l attr false }, old)

/-- The release that a policy register asks for, of this node (R277), unless R279 drops it; the supervisor's synchronisation is ignored
(R286). -/
def State.relOf (s : State) (pol : BitVec 32) (home : BitVec 14) : Option (BitVec 14 × Nat) :=
  if !s.k.priv && polRelease pol && s.k.inScope (polScope pol) home then some (s.k.nodeId, polScope pol) else none

/-- The node that holds a location (R269). -/
def State.homeNode (s : State) : Loc → BitVec 14
  | .here _ | .spad _ => s.k.nodeId
  | .peer n _ | .remote n _ => n

/-! ## Errors outside a region -/

/-- The queue whose current program has a job. -/
def State.queueOf (s : State) (job : BitVec 16) : Option Nat :=
  s.sch.queues.findIdx? fun q => match q.recs.head? with | some r => recJob r == job && q.state != .idle | none => false

/-- R220, R409: an engine error: its record and its event. -/
def State.engineFault (s : State) (job : BitVec 16) (uclass : Nat) (eva : VAddr) : State :=
  let c := causeWord 3 Cause.engineError.code
  let s1 := s.errorRecord 3 job c ((s.queueOf job).getD 0) uclass 0 0 eva (BitVec.ofNat 64 uclass) true
  { s1 with err := { s1.err with engine := s1.err.engine ++ [(job, uclass)] } }.notice ⟨.engineError, eva, BitVec.ofNat 64 uclass, false, s.queueOf job⟩

/-- R249, R333, R337: a dropped entry. -/
def State.droppedEntry (s : State) (job : BitVec 16) (cause : Cause) (eva : VAddr) (einfo : DWord) : State :=
  s.errorRecord 7 job (causeWord 3 cause.code) ((s.queueOf job).getD 0) 15 0 0 eva einfo false

/-- A cause that an operation which issued earlier raises in its region. -/
def State.faultOf (s : State) (slot seq : Nat) (t : Trap) : State :=
  if s.closing then s.pended t ((s.asOf slot seq).einfoOf t) else ((s.asOf slot seq).endStall).takeTrap t

end Sys2Proof.Machine
end

