-- ==== Sys2Proof/Machine/Net.lean ====
section
/-! DEFINITION. Flows and remote access (12_fabric R326, R331 to R336, R345): what this node sends, and what it performs for others. -/

namespace Sys2Proof.Machine

/-- R301, R337: the node is known to be quarantined. -/
def State.lost (s : State) (node : BitVec 14) : Bool := s.fab.dead.contains node

/-- A control packet of the routed fabric: minimal, over the lowest productive usable dimension (R324). `held` is the buffer that it holds
until it has left. -/
def State.sendControl (s : State) (p : Packet) (held : Option (Nat × Nat) := none) : State :=
  let prod := (List.range 14).filter fun i => (s.k.nodeId ^^^ p.dst).getLsbD i
  match prod.find? (fun i => s.fab.rtcfg.getLsbD i), prod.head? with
  | some i, _ => s.hop i 3 p held
  | none, some i => s.hop i 3 p held
  | none, none => s.release held

/-! ## Copies of a run of bytes (R344): whole flits in packets of at most 16, then words -/

def piece (bs : List Byte) : Nat := if 64 ≤ bs.length then min 1024 (bs.length / 64 * 64) else min 4 bs.length

def pieces : Nat → Nat → List Byte → List (Nat × List Byte)
  | 0, _, _ => []
  | n + 1, a, bs => if bs.isEmpty then [] else (a, bs.take (piece bs)) :: pieces n (a + piece bs) (bs.drop (piece bs))

def piecesOf (a : Nat) (bs : List Byte) : List (Nat × List Byte) := pieces (bs.length / 4 + 1) a bs

/-- The same run cut where lines of 128 bytes end, so that each part lies in one page and one line. -/
def lineCut : Nat → Nat → List Byte → List (Nat × List Byte)
  | 0, _, _ => []
  | n + 1, a, bs =>
    if bs.isEmpty then []
    else (a, bs.take (128 - a % 128)) :: lineCut n (a + (128 - a % 128)) (bs.drop (128 - a % 128))

def linesOf (a : Nat) (bs : List Byte) : List (Nat × List Byte) := lineCut (bs.length / 128 + 2) a bs

/-- A write packet's fields for one piece: words travel in doubleword 3. -/
def pieceInfo (r : RouteInfo) (x : Nat × List Byte) : RouteInfo × List Byte :=
  if x.2.length < 64 then ({ r with addr := BitVec.ofNat 48 x.1, type := 1, d3 := BitVec.ofNat 64 (leNat x.2) }, [])
  else ({ r with addr := BitVec.ofNat 48 x.1 }, x.2)

/-! ## At the target (R257, R336) -/

/-- R214: the vault is owned by a job. -/
def State.ownedBy (s : State) (job : BitVec 16) (v : Nat) : Bool :=
  match s.vaults[v]? with
  | some x => x.state == .owned && x.owner == job && !x.quarantined
  | none => false

/-- Where an access that a packet names performs, or the STATUS that it gets. -/
def State.targetLoc (s : State) (job : BitVec 16) (space : Nat) (a : BitVec 48) (n : Nat) (write : Bool) : Except Nat (Loc × Attr × Tlb) :=
  match space with
  | 0 =>
    match s.leaf .remote job a with
    | .error .notPresent => .error 1
    | .error _ => .error 2
    | .ok (e, lvl, tlb) =>
      let pa := leafPa e lvl a
      if bits e 40 14 ≠ 0 then .error 2
      else if write && (!e.getLsbD 2 || e.getLsbD 4) then .error 3
      else if s.poisoned pa then .error 4
      else .ok (.here pa, leafAttr e 0 a, tlb)
  | 1 =>
    let pa := bits a 0 37
    if s.poisoned pa then .error 4 else .ok (.here pa, physAttr, s.tlb.lookUp (Config.tlbVictim s.clock (pageOf a)) pa)
  | _ =>
    let x := bits a 0 28
    if spExtent x n && x % 4 == 0 && s.ownedBy job (vaultOf x) then .ok (.spad x, physAttr, s.tlb) else .error 5

/-- The release that a packet carries (R279). -/
def Packet.release (p : Packet) : Option (BitVec 14 × Nat) := if p.sync / 2 % 2 = 1 then some (p.src, p.scope) else none

/-- How an access of a peer caches here (R243): the priority is its issuer's, and of a physical address the page's attributes too; the
packet has no field for them (log 84). -/
def issuerView (space n : Nat) (a : Attr) : Attr :=
  let p : Prio := match n % 3 with | 0 => .evictFirst | 1 => .normal | _ => .keep
  let clvl : Nat := if space = 1 then n / 3 % 3 else a.clvl
  { a with clvl := clvl, wt := if space = 1 then (n / 9).testBit 0 else a.wt, prio := if clvl == 1 && p == .keep then .normal else p }

/-- Where each part of a run of bytes that a packet names performs, or the STATUS that the packet gets: none of it performs then. -/
def State.targetRun (s : State) (job : BitVec 16) (space : Nat) : List (Nat × List Byte) →
    Except Nat (List (Loc × Attr × List Byte) × Tlb)
  | [] => .ok ([], s.tlb)
  | (a, bs) :: l =>
    match s.targetLoc job space (BitVec.ofNat 48 a) bs.length true with
    | .error st => .error st
    | .ok (x, attr, tlb) =>
      match State.targetRun { s with tlb := tlb } job space l with
      | .error st => .error st
      | .ok (r, tlb') => .ok ((x, attr, bs) :: r, tlb')

/-- The parts of a run are written, as one release or none. -/
def State.writeRun (s : State) (rel : Option (BitVec 14 × Nat)) (l : List (Loc × Attr × List Byte)) : State :=
  l.foldl (fun s (x, attr, bs) => s.writeHome x attr bs rel) s

/-- A response (R326): SYNC keeps the acquire unless the home drops it (R279). -/
def State.respond (s : State) (p : Packet) (status : Nat) (v : DWord) (keep : Bool) (payload : List Byte) : Packet :=
  routedPacket 5 0 s.k.nodeId p.src p.job
    { rtag := p.rtag, status := status, addr := p.addr, scope := p.scope, sync := if keep then p.sync else p.sync / 2 * 2, d3 := v } payload

/-- How a cache operation travels (log 36). -/
def cacheCode : CacheOp → Nat | .pin => 1 | .unpin => 2 | .flush => 3 | .inval => 4
/-- 5 is PREF, which is no entry of the store buffer. -/
def cacheOf : Nat → Option CacheOp | 1 => some .pin | 2 => some .unpin | 3 => some .flush | 4 => some .inval | _ => none

/-- The line was dropped by an unmapping that is over, and its page has been mapped again since. -/
def State.mappedAgain (s : State) (g : Gone) : Bool :=
  let va : VAddr := BitVec.ofNat 48 (g.page * 65536)
  g.unmapped && match walk s.hbm s.hst.jtbase g.job va with
    | .ok (e, lvl) => bits e 40 14 == 0 && leafPa e lvl va / 65536 == g.line / 512
    | .error _ => false

/-- R266: a PIN of the job would not find the line. -/
def State.lineGone (s : State) (job : BitVec 16) (line : Nat) : Bool :=
  s.fab.gone.any fun g => g.job == job && g.line == line && !s.mappedAgain g

/-- R259: a peer's cache operation on a line of this home. A PIN does not find a line that an unmapping has dropped (R266). -/
def State.cacheHome (s : State) (job : BitVec 16) (op : CacheOp) (line : Nat) (a : Attr) : State :=
  let here (l : List L2Line) : Bool := l.any fun x => x.line == line
  if op = .pin ∧ s.lineGone job line ∧ !here s.l2 then s
  else
    let (l2, failed) := l2Op s op line a
    { s with
      l2 := l2, fab := { s.fab with gone := if here l2 then s.fab.gone.filter (fun g => g.line != line) else s.fab.gone }
      hst := if failed then { s.hst with pinFails := s.hst.pinFails + 1 } else s.hst }

/-- R259: a peer's PREF of a line of this home. -/
def State.prefHome (s : State) (line : Nat) (a : Attr) : State :=
  let l2 := l2Touch s.l2 line a false
  { s with l2 := l2, fab := { s.fab with gone := if l2.any (fun x => x.line == line) then s.fab.gone.filter (fun g => g.line != line) else s.fab.gone } }

/-- REMOTE_ACCESS_AT_TARGET: the packet performs; the response, if there is one, or the STATUS of a write that is not done. -/
def State.performAt (s : State) (p : Packet) : State × Option Packet × Nat :=
  let w := tyBytes (tyOf p.type)
  let view := issuerView p.space (Config.issuerAttr s.pickCount)
  let s := { s with pickCount := s.pickCount + 1 }
  if p.kind = 6 ∧ !p.check ∧ p.nflit = 0 ∧ p.op ≠ 0 then
    let line := bits p.addr 0 37 / 128
    let attr : Attr := { view physAttr with clvl := p.type % 3 }
    match cacheOf p.op with
    | some op => (s.cacheHome p.job op line attr, none, 0)
    | none => if p.op = 5 then (s.prefHome line attr, none, 0) else (s, none, 5)
  else if p.kind = 6 ∧ !p.check ∧ p.nflit ≠ 0 then
    match s.targetRun p.job p.space (if p.space = 2 then [(p.addr.toNat, p.payload)] else linesOf p.addr.toNat p.payload) with
    | .error st => (s, none, st)
    | .ok (l, tlb) => ({ s with tlb := tlb }.writeRun p.release (l.map fun (x, a, bs) => (x, view a, bs)), none, 0)
  else
    match s.targetLoc p.job p.space p.addr w (p.kind != 4) with
    | .error st => if p.check || p.kind == 4 || p.kind == 7 then (s, some (s.respond p st 0 true []), 0) else (s, none, st)
    | .ok (l, a, tlb) =>
      let attr := view a
      let s := { s with tlb := tlb }
      if p.check then (s, some (s.respond p 0 0 true []), 0)
      else
        let keep := !(p.sync % 2 == 1 && s.acquireDrops (s.kOf p.job) l p.src p.scope)
        match p.kind with
        | 4 =>
          let flit := if p.op = 0 then [] else s.readHome (match l with | .here pa => .here (pa / 64 * 64) | l => l) (64 * p.op)
          ({ s with l2 := s.touch l attr false }, some (s.respond p 0 (BitVec.ofNat 64 (leNat (s.readHome l w))) keep flit), 0)
        | 6 => (s.writeHome l attr (toBytes w (p.dw 3).toNat) p.release, none, 0)
        | _ =>
          match amoOf p.op with
          | none => if p.kind = 7 then (s, some (s.respond p 5 0 keep []), 0) else (s, none, 5)
          | some op =>
            let (s1, old) := s.atomicHome l attr op (w == 8) (p.dw 3).toNat (p.dw 4).toNat p.release
            (s1, if p.kind = 7 then some (s.respond p 0 (BitVec.ofNat 64 old) keep []) else none, 0)

/-! ## The receiver's side (R332) -/

def RxFlow.fresh (job : BitVec 16) (src : BitVec 14) (flow : Nat) : RxFlow := ⟨job, src, flow, 0, [], [], [], none⟩
def RxFlow.is (r : RxFlow) (job : BitVec 16) (src : BitVec 14) (flow : Nat) : Bool := r.job == job && r.src == src && r.flow == flow

def Fab.flowFrom (f : Fab) (job : BitVec 16) (src : BitVec 14) (flow : Nat) : RxFlow :=
  (f.rx.find? fun r => r.is job src flow).getD (.fresh job src flow)

def Fab.putRx (f : Fab) (r : RxFlow) : Fab :=
  { f with rx := if f.rx.any (fun x => x.is r.job r.src r.flow) then f.rx.map fun x => if x.is r.job r.src r.flow then r else x else f.rx ++ [r] }

def Fab.pooled (f : Fab) : Nat := f.rx.foldl (fun n r => n + r.pool.length) 0

/-- R345: the receivers of a copy: every node across a physical mask. -/
def spanned (node mask : BitVec 14) : List (BitVec 14) :=
  ((List.range 14).filter fun i => mask.getLsbD i).foldl (fun l i => l ++ l.map fun n => n ^^^ BitVec.twoPow 14 i) [node]

def Serial.va (x : Serial) : VAddr := (x.parts.head?.map (·.1)).getD 0
def Serial.data (x : Serial) : List Byte := x.parts.flatMap (·.2)
def Serial.is (x : Serial) (job : BitVec 16) (src : BitVec 14) (flow : Nat) : Bool := x.job == job && x.src == src && x.flow == flow

/-- A part of a stream takes its place: in class 15 packets perform as they arrive (R332). -/
def insertPart (a : VAddr) (bs : List Byte) : List (VAddr × List Byte) → List (VAddr × List Byte)
  | [] => [(a, bs)]
  | x :: l => if a < x.1 then (a, bs) :: x :: l else x :: insertPart a bs l

/-- A packet of a serial stream joins it (R345): one stream of a flow is on its way at a time. TYPE is 1 in the last packet, and OP there counts
the words of its last flit, 0 for all sixteen (log 21). -/
def State.serialJoin (s : State) (p : Packet) : State :=
  let bs := if p.type = 1 ∧ p.op ≠ 0 then p.payload.take (p.payload.length - 64 + 4 * p.op) else p.payload
  let mine (x : Serial) : Bool := x.is p.job p.src p.flow && !x.started
  let old := (s.fab.serial.find? mine).getD
    ⟨s.nextId, p.job, p.src, p.flow, BitVec.ofNat 14 (bits (p.dw 3) 0 14), [], p.release.map (·.2), false, 0, false, [], []⟩
  let new := { old with parts := insertPart p.addr bs old.parts, last := old.last || p.type == 1, eseq := if p.type = 1 then p.eseq else old.eseq }
  { s with fab := { s.fab with serial := (s.fab.serial.filter fun x => !mine x) ++ [new] }, nextId := s.nextId + 1 }

/-- A stream whose last packet has come holds that packet's number until its copies are acknowledged (R345). -/
def Fab.holding (f : Fab) (job : BitVec 16) (src : BitVec 14) (flow : Nat) (n : BitVec 12) : Bool :=
  f.serial.any fun x => x.is job src flow && x.last && x.eseq == n

/-- R333: the acknowledgement of a flow. -/
def Fab.ackOf (f : Fab) (r : RxFlow) (node : BitVec 14) (i : RouteInfo) : Packet :=
  let held (i : Nat) : Bool :=
    let n := r.expect + BitVec.ofNat 12 i
    r.marked.contains n || (r.pool.any fun q => q.eseq == n) || f.holding r.job r.src r.flow n
  let map := (List.range 32).foldl (fun m i => if held i then m + 2 ^ i else m) 0
  routedPacket 10 3 node r.src r.job { i with d3 := BitVec.ofNat 64 (r.flow * 2 ^ 12 + (r.expect - 1).toNat), d4 := BitVec.ofNat 64 map } []

def State.ackPacket (s : State) (r : RxFlow) : Packet := s.fab.ackOf r s.k.nodeId {}

/-- R332: the answer to a duplicate is kept. -/
def RxFlow.save (r : RxFlow) (n : BitVec 12) (q : Packet) : RxFlow := { r with saved := (r.saved ++ [(n, q)]).drop (r.saved.length + 1 - 32) }

/-- A saved answer is sent, again or for the first time. -/
def State.sendSaved (s : State) (q : Packet) : State := if q.kind = 5 then { s with fab := s.fab.inject s.clock q } else s.sendControl q

/-- One packet performs in turn or on arrival; whether its number is done with. The STATUS of a write or a reduction that is not done
returns in an acknowledgement of its own (R336, log 86). -/
def State.performOne (s : State) (p : Packet) : State × Bool :=
  if p.kind = 9 then (s.serialJoin p, p.type != 1)
  else
    let (s1, resp, st) := s.performAt p
    let r := s1.fab.flowFrom p.job p.src p.flow
    match (match resp with
      | some q => some q
      | none => if st = 0 then none else some (s1.fab.ackOf r s1.k.nodeId { rtag := p.rtag, status := st, addr := p.addr })) with
    | none => (s1, true)
    | some q => ({ s1 with fab := s1.fab.putRx (r.save p.eseq q) }.sendSaved q, true)

/-- R332, R345: numbers already performed, and pooled packets, follow in turn; a stream whose last packet's turn has come takes its place in the
serial order and holds the flow there. -/
def State.turn (s : State) (job : BitVec 16) (src : BitVec 14) (flow : Nat) : Nat → State
  | 0 => s
  | n + 1 =>
    let r := s.fab.flowFrom job src flow
    if r.marked.contains r.expect then
      State.turn { s with fab := s.fab.putRx { r with marked := r.marked.erase r.expect, expect := r.expect + 1 } } job src flow n
    else
      match s.fab.serial.find? fun x => x.is job src flow && x.last && x.eseq == r.expect with
      | some x => if x.started then s else { s with fab := { s.fab with serial := s.fab.serial.erase x ++ [{ x with started := true }] } }
      | none =>
        match r.pool.find? fun q => q.eseq == r.expect with
        | none => s
        | some q =>
          let s1 := { s with fab := s.fab.putRx { r with pool := r.pool.erase q } }
          let (s2, fin) := s1.performOne q
          let r2 := s2.fab.flowFrom job src flow
          State.turn (if fin then { s2 with fab := s2.fab.putRx { r2 with expect := r2.expect + 1 } } else s2) job src flow n

def State.linkError (s : State) (d : Nat) : State := { s with fab := updLink s.fab d fun l => { l with errors := l.errors + 1 } }

/-- R333: an acknowledgement is due within 64 clocks. -/
def RxFlow.due (r : RxFlow) (clock : Nat) : RxFlow := { r with ackDue := some (r.ackDue.getD (clock + 64)) }

/-- R332: a sequenced packet at its destination. -/
def State.flowArrive (s : State) (d : Nat) (p : Packet) : State :=
  if p.reserved || p.flow == 31 then s.linkError d
  else
    let r := (s.fab.flowFrom p.job p.src p.flow).due s.clock
    let s := { s with fab := s.fab.putRx r }
    let off := (p.eseq - r.expect).toNat
    let again : State := match r.saved.find? fun x => x.1 == p.eseq with
      | some (_, q) => s.sendSaved q
      | none => s
    if r.marked.contains p.eseq then again
    else if s.fab.holding p.job p.src p.flow p.eseq then s
    else if off = 0 then
      let (s1, fin) := s.performOne p
      let r1 := s1.fab.flowFrom p.job p.src p.flow
      State.turn (if fin then { s1 with fab := s1.fab.putRx { r1 with expect := r1.expect + 1 } } else s1) p.job p.src p.flow 4096
    else if off ≤ 31 then
      if p.flow = 15 then
        let (s1, fin) := s.performOne p
        let r1 := s1.fab.flowFrom p.job p.src p.flow
        if fin then { s1 with fab := s1.fab.putRx { r1 with marked := r1.marked ++ [p.eseq] } } else s1
      else if r.pool.any (fun q => q.eseq == p.eseq) then s
      else if s.fab.pooled < 64 then { s with fab := s.fab.putRx { r with pool := r.pool ++ [p] } }
      else s
    else if 4096 - off ≤ 32 then again
    else s.linkError d

/-! ## Serial streams (R345) -/

/-- The release of a copy to one receiver (R268, R279): the stream's, where its scope set holds the receiver. -/
def State.serialRel (s : State) (x : Serial) (node : BitVec 14) : Option Nat :=
  match x.rel with
  | some sc => if (s.kOf x.job).scopeHas x.src sc node then some sc else none
  | none => none

/-- A run of a virtual page range that is written on this node for a job, a line at a time; a part that cannot be is dropped. -/
def State.writeOwn (s : State) (job : BitVec 16) (va : VAddr) (data : List Byte) (view : State → VAddr → Attr → Attr)
    (rel : Option (BitVec 14 × Nat)) : State :=
  (linesOf va.toNat data).foldl (fun s pc =>
    match s.targetLoc job 0 (BitVec.ofNat 48 pc.1) pc.2.length true with
    | .ok (l, attr, tlb) => { s with tlb := tlb }.writeHome l (view s (BitVec.ofNat 48 pc.1) attr) pc.2 rel
    | .error st => s.droppedEntry job (statusTrap st 0 0).cause (BitVec.ofNat 48 pc.1) (BitVec.ofNat 64 (st * 2 ^ 8 + 15))) s

/-- The serialising node's own copy: it performs like any other. -/
def State.serialOwn (s : State) (x : Serial) : State :=
  { s with pickCount := s.pickCount + 1 }.writeOwn x.job x.va x.data (fun _ _ => issuerView 0 (Config.issuerAttr s.pickCount))
    ((s.serialRel x s.k.nodeId).map fun sc => (x.src, sc))

/-- The next packet of a copy to one receiver, if its flow has room. -/
def State.serialSend (s : State) (x : Serial) (node : BitVec 14) (k : Nat) : Option (Fab × Nat) :=
  match (piecesOf x.va.toNat x.data)[k]? with
  | none => none
  | some pc =>
    if s.maySend x.job node 16 then
      let sc := s.serialRel x node
      let (r, pl) := pieceInfo { flow := 16, scope := sc.getD 0, sync := if sc.isSome then 2 else 0 } pc
      some (s.fab.request s.clock s.k.nodeId (.serial x.id) 6 node x.job r pl)
    else none

def setSerial (l : List Serial) (x : Serial) : List Serial := l.map fun y => if y.id = x.id then x else y

/-- SERIAL_STREAM_ORDER: the first stream of the order sends what it can; when every copy is acknowledged its number is done with, and
the next begins. A stream of this node's own counts as data that leaves (R406). -/
def State.serialRun (s : State) : Nat → State
  | 0 => s
  | n + 1 =>
    match s.fab.serial.find? fun x => x.started with
    | none => s
    | some x =>
      if x.sent.isEmpty then
        let s1 := s.serialOwn x
        let x1 := { x with sent := (spanned s.k.nodeId x.dims).map fun d => (d, 0) }
        State.serialRun { s1 with fab := { s1.fab with serial := setSerial s1.fab.serial x1 } } n
      else
        let total := (piecesOf x.va.toNat x.data).length
        match x.sent.find? fun y => y.1 != s.k.nodeId && decide (y.2 < total) && s.maySend x.job y.1 16 with
        | some (node, k) =>
          match s.serialSend x node k with
          | some (f, tag) =>
            let x1 := { x with sent := x.sent.map (fun y => if y.1 = node then (y.1, y.2 + 1) else y), out := x.out ++ [tag] }
            let k := s.kOf x.job
            let dims := if x.src = s.k.nodeId then k.lnode ^^^ BitVec.ofNat 14 (k.logical node) else 0
            State.serialRun ({ s with fab := { f with serial := setSerial f.serial x1 } }.dataLeaves x.job none dims) n
          | none => s
        | none =>
          if x.out.isEmpty && x.sent.all (fun y => y.1 == s.k.nodeId || decide (total ≤ y.2)) then
            let f := { s.fab with serial := s.fab.serial.erase x }
            let r := (f.flowFrom x.job x.src x.flow).due s.clock
            if x.src = s.k.nodeId then State.serialRun { s with fab := f, buf := s.buf.filter fun e => e.id != x.id } n
            else
              let s1 := { s with fab := f.putRx { r with expect := r.expect + 1 } }
              State.serialRun (s1.turn x.job x.src x.flow 4096) n
          else s

end Sys2Proof.Machine
end

