-- ==== Sys2Proof/Machine/Region.lean ====
section
/-! DEFINITION. The region instructions (04_regions R114 to R137) and how a boundary instruction commits, performs and reopens (R124,
R125). -/

namespace Sys2Proof.Machine

/-- R124: what a boundary instruction does. Its checks come while its region is open; then the region commits; then it performs,
alone, and until it has, what it has begun is kept; then the next region opens. Outside region mode it performs directly (R113). -/
def State.boundaryIssue (s : State) (checks : Except Issue Unit) (perform : State → Except Issue (List Effect)) : Issue :=
  match s.seq.perform with
  | some o => issueOf (do
      let es ← perform s
      .ok (es ++ [.perform none, .opens o]))
  | none =>
    match s.rgn with
    | none => issueOf (do checks; perform s)
    | some r => issueOf (do
        checks
        s.commitReady r
        let first := s.signEffects r ++ [.commit]
        match perform (s.signed r).commitRegion with
        | .ok es => .ok (first ++ es ++ [.opens (r.next true)])
        | .error (.stall c) => .error (.pause (first ++ [.perform (some (r.next true))]) c)
        | .error (.pause es c) => .error (.pause (first ++ .perform (some (r.next true)) :: es) c)
        | .error i => .error i)

/-- R112, R113: CMT, REND and RABT belong to a program in region mode. -/
def State.openRegionOf (s : State) : Except Issue Region :=
  match s.rgn with
  | some r => if s.k.priv then .error (.cause .regionContext) else .ok r
  | none => .error (.cause .regionContext)

/-- R115: the descriptor and the masks of a waymark. -/
def State.descriptorOk (s : State) (masks desc : DWord) : Bool :=
  bits desc 32 32 == 0 && (masks.setWidth 32 &&& (masks >>> 32).setWidth 32) == (0 : BitVec 32)
    && !(desc.getLsbD 15 && desc.getLsbD 16)
    && (!desc.getLsbD 15 || decide (bits desc 17 15 < (s.curRecord.map fun r => bits r 176 16).getD 0))

/-- R115: vaults of either mask that the job does not own. -/
def State.ownsAll (s : State) (m : BitVec 32) : Bool := (maskVaults m).all s.vaultOwned

/-- R117: an opening bundle waits for what was issued before it. -/
def State.allArrived (s : State) : Bool := !s.pipe.waits.any Wait.outstanding

/-- R115, R117: an opening waits for the vaults that it names. -/
def State.opening (s : State) (o : Opening) : Except Issue (List Effect) := do
  await s.allArrived 0x09
  await (s.ownsAll (o.rmask ||| o.wmask)) 0x0F
  .ok [.perform none, .opens o]

/-- R115, R137: RGN. In region mode the current region commits first. An opening that must wait is at its boundary already (R113, R129). -/
def State.rgnIssue (s : State) (x y : SSrc) : Issue :=
  match s.seq.perform with
  | some o => issueOf (s.opening o)
  | none => issueOf (do
      let masks := s.srcS x
      let desc := s.srcS y
      check (!s.k.priv) .regionContext
      check (s.descriptorOk masks desc) .descriptor
      let o : Opening := ⟨masks.setWidth 32, (masks >>> 32).setWidth 32, desc, false, true, 0⟩
      match s.rgn with
      | none =>
        match s.opening o with
        | .error (.stall c) => .error (.pause [.perform (some o)] c)
        | r => r
      | some r => do
        s.commitReady r
        let first := s.signEffects r ++ [.commit]
        match (s.signed r).commitRegion.opening o with
        | .ok es => .ok (first ++ es)
        | .error (.stall c) => .error (.pause (first ++ [.perform (some o)]) c)
        | .error i => .error i)

def State.cmtIssue (s : State) : Issue := issueOf (do
  let r ← s.openRegionOf
  s.commitReady r
  .ok (s.signEffects r ++ [.commit, .opens (r.next false)]))

def State.rendIssue (s : State) : Issue := issueOf (do
  let r ← s.openRegionOf
  s.commitReady r
  .ok (s.signEffects r ++ [.commit, .rend]))

def State.rabtIssue (s : State) : Issue := issueOf (do
  let _ ← s.openRegionOf
  .error (.cause .deliberateAbort))

/-- R137: the value of RSTAT. -/
def State.rstatValue (s : State) : DWord :=
  match s.rgn with
  | none => 0
  | some r => BitVec.ofNat 64 ((if r.resum then r.prog % 2 ^ 32 else 0) * 2 ^ 32 + r.used % 2 ^ 11 * 2 ^ 21 + (if r.resum then 2 ^ 20 else 0)
      + (if r.check then 2 ^ 19 else 0) + 2 ^ 16 + s.k.rcount.toNat * 2 ^ 8 + s.k.rtag.toNat)

def execRgn (x y : SSrc) (s : State) : Host.Outcome State Fault Refusal := s.settle (s.rgnIssue x y)
def execCmt (s : State) : Host.Outcome State Fault Refusal := s.settle s.cmtIssue
def execRend (s : State) : Host.Outcome State Fault Refusal := s.settle s.rendIssue
def execRabt (s : State) : Host.Outcome State Fault Refusal := s.settle s.rabtIssue
def execRstat (d : SDst) (s : State) : Host.Outcome State Fault Refusal := s.settle (.done [.land 2 0 (.scalar d s.rstatValue)])

/-- R128: the open region commits, or goes on waiting. -/
def execRegionCommit (s : State) : Host.Outcome State Fault Refusal :=
  s.settle (match s.rgn with
    | none => .done []
    | some r => issueOf (do s.commitReady r; .ok (s.signEffects r ++ [.commit])))

end Sys2Proof.Machine
end

