-- ==== Sys2Proof/Machine/Lanes.lean ====
section
/-! DEFINITION. Vector registers as lists of lanes (06_vector R162, R164), and the elementary functions of R170 in whole numbers. -/

namespace Sys2Proof.Machine

/-- `n` digits of a number in base `b`, lowest first, and back. -/
def splitN : Nat → Nat → Nat → List Nat
  | 0, _, _ => []
  | n + 1, b, x => x % b :: splitN n b (x / b)

def joinN (b : Nat) : List Nat → Nat
  | [] => 0
  | x :: l => x % b + b * joinN b l

/-- R162: the lanes of `w` bytes. -/
def lanes (w : Nat) (v : VReg) : List Nat := splitN (8192 / w) (2 ^ (8 * w)) v.toNat
def ofLanes (w : Nat) (l : List Nat) : VReg := BitVec.ofNat 65536 (joinN (2 ^ (8 * w)) l)

/-- R164: which lanes of `w` bytes a level of the mask stack makes active. -/
def active (m : Mask) (w : Nat) : List Bool :=
  let bs := (splitN 2048 2 m.toNat).map (· == 1)
  match w with
  | 4 => bs
  | 2 => bs.flatMap fun b => [b, b]
  | 1 => bs.flatMap fun b => [b, b, b, b]
  | _ => pairs bs
where
  pairs : List Bool → List Bool
    | a :: b :: l => (a && b) :: pairs l
    | _ => []

/-- The bits of a register that active lanes cover. -/
def laneBits (w : Nat) (act : List Bool) : VReg := ofLanes w (act.map fun b => if b then 2 ^ (8 * w) - 1 else 0)

/-- R164, R165: the bits that an instruction of lane width `w` writes under a top. -/
def maskBits (m : Mask) (w : Nat) : VReg := if m = fullMask then BitVec.allOnes 65536 else laneBits w (active m w)

/-- A lane function over the active lanes: the values, and the STATUS bits that they set. -/
def mapLanes (act : List Bool) (rs : List (Nat × Flags)) : List Nat × Flags :=
  (rs.map (·.1), (rs.zip act).foldl (fun f (r, a) => if a then f ||| r.2 else f) 0)

/-! ## Elementary functions (R170): an approximation, to `fracBits` bits below the point, of a value that is never a tie -/

def fracBits : Nat := 256

/-- 2 × Σ z^(2k+1) / (2k+1) over `fuel` terms, in units of 2^−fracBits. -/
def atanhSum (z2 : Nat) : Nat → Nat → Nat → Nat
  | 0, _, _ => 0
  | fuel + 1, k, zk => zk / (2 * k + 1) + atanhSum z2 fuel (k + 1) (zk * z2 / 2 ^ fracBits)

/-- ln of n / d, for d ≤ n ≤ 2d. -/
def lnFrac (n d : Nat) : Nat :=
  let z := (n - d) * 2 ^ fracBits / (n + d)
  2 * atanhSum (z * z / 2 ^ fracBits) 90 0 z

def ln2 : Nat := lnFrac 2 1

/-- Σ y^k / k! over `fuel` terms. -/
def expSum (y : Nat) : Nat → Nat → Nat → Nat
  | 0, _, _ => 0
  | fuel + 1, k, t => t + expSum y fuel (k + 1) (t * y / 2 ^ fracBits / (k + 1))

/-- 2^(f / 2^fracBits) for 0 ≤ f < 2^fracBits. -/
def exp2Frac (f : Nat) : Nat := expSum (f * ln2 / 2 ^ fracBits) 70 0 (2 ^ fracBits)

/-- A rounding to nearest even that no tie can meet: the value lies strictly between v and v + 1 units of 2^e. -/
def roundOdd (f : Fmt) (neg : Bool) (v : Nat) (e : Int) : Nat × Flags := round f .rne false neg (2 * v + 1) 1 (e - 1) 0

def fpRcp (f : Fmt) (x : Nat) : Nat × Flags :=
  match f.decode x with
  | .nan => (f.nan, 0)
  | .inf neg => (f.withSign neg 0, 0)
  | .zero neg => (f.inf neg, 0)
  | .fin neg n e => round f .rne false neg 1 n (-e) 0

/-- An even exponent for a square root. -/
def evenExp (n : Nat) (e : Int) : Nat × Int := if e % 2 = 0 then (n, e) else (2 * n, e - 1)

def fpSqrt (f : Fmt) (x : Nat) : Nat × Flags :=
  match f.decode x with
  | .nan => (f.nan, 0)
  | .zero neg => (f.withSign neg 0, 0)
  | .inf neg => if neg then (f.nan, flagInvalid) else (f.inf false, 0)
  | .fin neg n e =>
    if neg then (f.nan, flagInvalid)
    else
      let (n, e) := evenExp n e
      let m := n * 2 ^ 64
      let r := isqrt m
      if r * r = m then round f .rne false false r 1 (e / 2 - 32) 0 else roundOdd f false r (e / 2 - 32)

def fpRsq (f : Fmt) (x : Nat) : Nat × Flags :=
  match f.decode x with
  | .nan => (f.nan, 0)
  | .zero neg => (f.inf neg, 0)
  | .inf neg => if neg then (f.nan, flagInvalid) else (0, 0)
  | .fin neg n e =>
    if neg then (f.nan, flagInvalid)
    else
      let (n, e) := evenExp n e
      let r := isqrt (2 ^ 128 / n)
      if r * r * n = 2 ^ 128 then round f .rne false false r 1 (-(e / 2) - 64) 0 else roundOdd f false r (-(e / 2) - 64)

def fpExp2 (f : Fmt) (x : Nat) : Nat × Flags :=
  match f.decode x with
  | .nan => (f.nan, 0)
  | .zero _ => round f .rne false false 1 1 0 0
  | .inf neg => if neg then (0, 0) else (f.inf false, 0)
  | .fin neg n e =>
    if 12 ≤ (Nat.log2 n : Int) + e then round f .rne false false 1 1 (if neg then -4096 else 4096) 0
    else
      let v := atExp neg (scaleNum n (e + fracBits)) 0 0
      let whole := v / 2 ^ fracBits
      let frac := (v % 2 ^ fracBits).toNat
      if frac = 0 then round f .rne false false 1 1 whole 0 else roundOdd f false (exp2Frac frac) (whole - fracBits)

def fpLog2 (f : Fmt) (x : Nat) : Nat × Flags :=
  match f.decode x with
  | .nan => (f.nan, 0)
  | .zero _ => (f.inf true, 0)
  | .inf neg => if neg then (f.nan, flagInvalid) else (f.inf false, 0)
  | .fin neg n e =>
    if neg then (f.nan, flagInvalid)
    else
      let k := Nat.log2 n
      let whole : Int := e + k
      if n = 2 ^ k then (if whole = 0 then (0, 0) else round f .rne false (decide (whole < 0)) whole.natAbs 1 0 0)
      else
        let v : Int := whole * 2 ^ fracBits + (lnFrac n (2 ^ k) * 2 ^ fracBits / ln2 : Nat)
        -- the value lies between v and v + 1
        if v < 0 then roundOdd f true (-v - 1).toNat (-(fracBits : Int)) else roundOdd f false v.toNat (-(fracBits : Int))

/-- R170: VFLR and VRND, which differ in the rounding; VFLR sets no flag. -/
def fpIntegral (f : Fmt) (mode : RMode) (x : Nat) : Nat × Flags :=
  match f.decode x with
  | .nan => (f.nan, 0)
  | .zero _ | .inf _ => (x, 0)
  | .fin neg n e =>
    let (k, inexact) := roundK mode neg (scaleNum n e) (scaleDen 1 e) 0
    if k = 0 then (f.withSign neg 0, flagIf inexact flagInexact)
    else ((round f .rne false neg k 1 0 0).1, flagIf inexact flagInexact)

def fpFlr (f : Fmt) (x : Nat) : Nat × Flags := ((fpIntegral f .rdn x).1, 0)
def fpRnd (f : Fmt) (mode : RMode) (x : Nat) : Nat × Flags := fpIntegral f (arithMode mode) x

/-- R170: a quotient; an overflow does not saturate a .bf result (log 99). -/
def fpDiv (f : Fmt) (x y : Nat) : Nat × Flags :=
  match f.decode x, f.decode y with
  | .nan, _ | _, .nan => (f.nan, 0)
  | .inf _, .inf _ | .zero _, .zero _ => (f.nan, flagInvalid)
  | .inf a, .zero b | .inf a, .fin b _ _ => (f.inf (a != b), 0)
  | .zero a, .inf b | .zero a, .fin b _ _ | .fin a _ _, .inf b => (f.withSign (a != b) 0, 0)
  | .fin a _ _, .zero b => (f.inf (a != b), 0)
  | .fin a n e, .fin b m g => round f .rne false (a != b) n m (e - g) 0

/-! ## Exact sums and extremes (R155, R175) -/

/-- The exact sum of decoded terms: a value, and whether both infinities met. -/
structure ExactSum where
  /-- the finite sum, in units of 2^unit -/
  sum  : Int
  pinf : Bool
  ninf : Bool
  nan  : Bool
  deriving DecidableEq, Repr

/-- Every finite f32 and bf value is a multiple of this unit (R139). -/
def sumUnit : Int := -149

def ExactSum.zero : ExactSum := ⟨0, false, false, false⟩

def ExactSum.add (a : ExactSum) : FVal → ExactSum
  | .nan => { a with nan := true }
  | .inf neg => if neg then { a with ninf := true } else { a with pinf := true }
  | .zero _ => a
  | .fin neg n e => { a with sum := a.sum + atExp neg n e sumUnit }

/-- Rounded once; an exact zero is +0 (R155). -/
def ExactSum.pack (a : ExactSum) (f : Fmt) (mode : RMode) : Nat × Flags :=
  if a.nan then (f.nan, 0)
  else if a.pinf && a.ninf then (f.nan, flagInvalid)
  else if a.pinf then (f.inf false, 0)
  else if a.ninf then (f.inf true, 0)
  else if a.sum = 0 then (0, 0)
  else round f mode false (decide (a.sum < 0)) a.sum.natAbs 1 sumUnit 0

def exactSumOf (f : Fmt) (l : List Nat) : ExactSum := l.foldl (fun a x => a.add (f.decode x)) .zero

/-- R175: the greatest or least of a nonempty list of encodings; NaN if any is NaN. -/
def extreme (f : Fmt) (pick : Nat → Nat → Nat) : List Nat → Option Nat
  | [] => none
  | x :: l => some (l.foldl pick (if f.isNan x then f.nan else x))

/-- R176: each prefix, rounded on its own. -/
def scanLanes (f : Fmt) (mode : RMode) : ExactSum → List (Nat × Bool) → List (Nat × Flags)
  | _, [] => []
  | acc, (x, a) :: l =>
    if a then let acc := acc.add (f.decode x); acc.pack f mode :: scanLanes f mode acc l
    else (0, 0) :: scanLanes f mode acc l

def ftyFmt : FTy → Fmt | .f32 => fmtF32 | .bf => fmtBf

end Sys2Proof.Machine
end

