-- ==== Sys2Proof/Machine/Scalar.lean ====
section
/-! DEFINITION. The scalar instructions: integers, predicates, floating point, state registers, loop levels, the format register
(02_registers R71 to R86, 03_sequencer R99, 05_formats R157). -/

namespace Sys2Proof.Machine

/-! ## Integer operations (R71 to R73): a function of the exact operands, cut to the width of the type -/

def ityWidth : ITy → Nat | .i32 | .z32 => 32 | _ => 64
def itySigned : ITy → Bool | .i32 | .i64 => true | _ => false

/-- R71: the operand at the type's width and signedness. -/
def ityRead (t : ITy) (x : DWord) : Int :=
  match t with
  | .i32 => (x.setWidth 32).toInt
  | .z32 => (x.setWidth 32).toNat
  | .i64 => x.toInt
  | .z64 => x.toNat

/-- R71: the result cut to its width and extended to 64 bits. -/
def ityWrite (t : ITy) (v : Int) : DWord :=
  match t with
  | .i32 => (BitVec.ofInt 32 v).signExtend 64
  | .z32 => (BitVec.ofInt 32 v).setWidth 64
  | _ => BitVec.ofInt 64 v

/-- The bits of a value at the type's width. -/
def ityBits (t : ITy) (v : Int) : Nat := (v % 2 ^ ityWidth t).toNat

/-- The same bits, read as a signed number. -/
def itySext (t : ITy) (v : Int) : Int := Int.bmod v (2 ^ ityWidth t)

/-- R72: the shift count. -/
def shiftCount (t : ITy) (b : Int) : Nat := (b % ityWidth t).toNat

def aluAdd (_ : ITy) (a b : Int) : Int := a + b
def aluSub (_ : ITy) (a b : Int) : Int := a - b
def aluMul (_ : ITy) (a b : Int) : Int := a * b
def aluMulh (t : ITy) (a b : Int) : Int := a * b / 2 ^ ityWidth t
def aluAnd (t : ITy) (a b : Int) : Int := (ityBits t a &&& ityBits t b : Nat)
def aluOr (t : ITy) (a b : Int) : Int := (ityBits t a ||| ityBits t b : Nat)
def aluXor (t : ITy) (a b : Int) : Int := (ityBits t a ^^^ ityBits t b : Nat)
def aluAndn (t : ITy) (a b : Int) : Int := (ityBits t a &&& ityBits t (-1 - b) : Nat)
def aluShl (t : ITy) (a b : Int) : Int := a * 2 ^ shiftCount t b
def aluShr (t : ITy) (a b : Int) : Int := (ityBits t a / 2 ^ shiftCount t b : Nat)
def aluSar (t : ITy) (a b : Int) : Int := itySext t a / 2 ^ shiftCount t b
def aluRot (t : ITy) (a b : Int) : Int :=
  (ityBits t a * 2 ^ shiftCount t b + ityBits t a / 2 ^ (ityWidth t - shiftCount t b) : Nat)
def aluMin (_ : ITy) (a b : Int) : Int := min a b
def aluMax (_ : ITy) (a b : Int) : Int := max a b
/-- R73. -/
def aluDiv (_ : ITy) (a b : Int) : Int := if b = 0 then -1 else a.tdiv b
def aluRem (_ : ITy) (a b : Int) : Int := if b = 0 then a else a.tmod b
def aluClz (t : ITy) (a : Int) : Int := if ityBits t a = 0 then ityWidth t else ityWidth t - 1 - Nat.log2 (ityBits t a)
def aluPopc (t : ITy) (a : Int) : Int := popc (BitVec.ofNat 64 (ityBits t a))
def aluBrev (t : ITy) (a : Int) : Int :=
  (List.range (ityWidth t)).foldl (fun n i => if (ityBits t a).testBit i then n + 2 ^ (ityWidth t - 1 - i) else n) (0 : Nat)

/-- A scalar result of a fixed latency. -/
def scalarResult (lat : Nat) (d : SDst) (v : DWord) (fl : Flags) : Issue := .done [.land lat fl (.scalar d v)]

/-- R71: two operands. -/
def State.alu2 (s : State) (lat : Nat) (f : ITy → Int → Int → Int) (d : SDst) (x y : SSrc) (t : ITy) : Issue :=
  scalarResult lat d (ityWrite t (f t (ityRead t (s.srcS x)) (ityRead t (s.srcS y)))) 0

/-- R73: a division, and its flag. -/
def State.aluDivide (s : State) (f : ITy → Int → Int → Int) (d : SDst) (x y : SSrc) (t : ITy) : Issue :=
  scalarResult 18 d (ityWrite t (f t (ityRead t (s.srcS x)) (ityRead t (s.srcS y))))
    (flagIf (ityRead t (s.srcS y) = 0) flagDivZero)

/-- R71: one operand. -/
def State.alu1 (s : State) (f : ITy → Int → Int) (d : SDst) (x : SSrc) (t : ITy) : Issue :=
  scalarResult 1 d (ityWrite t (f t (ityRead t (s.srcS x)))) 0

def execAdd (d : SDst) (x y : SSrc) (t : ITy) (s : State) : Host.Outcome State Fault Refusal := s.settle (s.alu2 1 aluAdd d x y t)
def execSub (d : SDst) (x y : SSrc) (t : ITy) (s : State) : Host.Outcome State Fault Refusal := s.settle (s.alu2 1 aluSub d x y t)
def execMul (d : SDst) (x y : SSrc) (t : ITy) (s : State) : Host.Outcome State Fault Refusal := s.settle (s.alu2 3 aluMul d x y t)
def execMulh (d : SDst) (x y : SSrc) (t : ITy) (s : State) : Host.Outcome State Fault Refusal := s.settle (s.alu2 3 aluMulh d x y t)
def execAnd (d : SDst) (x y : SSrc) (t : ITy) (s : State) : Host.Outcome State Fault Refusal := s.settle (s.alu2 1 aluAnd d x y t)
def execOr (d : SDst) (x y : SSrc) (t : ITy) (s : State) : Host.Outcome State Fault Refusal := s.settle (s.alu2 1 aluOr d x y t)
def execXor (d : SDst) (x y : SSrc) (t : ITy) (s : State) : Host.Outcome State Fault Refusal := s.settle (s.alu2 1 aluXor d x y t)
def execAndn (d : SDst) (x y : SSrc) (t : ITy) (s : State) : Host.Outcome State Fault Refusal := s.settle (s.alu2 1 aluAndn d x y t)
def execShl (d : SDst) (x y : SSrc) (t : ITy) (s : State) : Host.Outcome State Fault Refusal := s.settle (s.alu2 1 aluShl d x y t)
def execShr (d : SDst) (x y : SSrc) (t : ITy) (s : State) : Host.Outcome State Fault Refusal := s.settle (s.alu2 1 aluShr d x y t)
def execSar (d : SDst) (x y : SSrc) (t : ITy) (s : State) : Host.Outcome State Fault Refusal := s.settle (s.alu2 1 aluSar d x y t)
def execRot (d : SDst) (x y : SSrc) (t : ITy) (s : State) : Host.Outcome State Fault Refusal := s.settle (s.alu2 1 aluRot d x y t)
def execMin (d : SDst) (x y : SSrc) (t : ITy) (s : State) : Host.Outcome State Fault Refusal := s.settle (s.alu2 1 aluMin d x y t)
def execMax (d : SDst) (x y : SSrc) (t : ITy) (s : State) : Host.Outcome State Fault Refusal := s.settle (s.alu2 1 aluMax d x y t)
def execDiv (d : SDst) (x y : SSrc) (t : ITy) (s : State) : Host.Outcome State Fault Refusal := s.settle (s.aluDivide aluDiv d x y t)
def execRem (d : SDst) (x y : SSrc) (t : ITy) (s : State) : Host.Outcome State Fault Refusal := s.settle (s.aluDivide aluRem d x y t)
def execClz (d : SDst) (x : SSrc) (t : ITy) (s : State) : Host.Outcome State Fault Refusal := s.settle (s.alu1 aluClz d x t)
def execPopc (d : SDst) (x : SSrc) (t : ITy) (s : State) : Host.Outcome State Fault Refusal := s.settle (s.alu1 aluPopc d x t)
def execBrev (d : SDst) (x : SSrc) (t : ITy) (s : State) : Host.Outcome State Fault Refusal := s.settle (s.alu1 aluBrev d x t)

/-! ## Immediates (R74 to R78) -/

/-- R75: an operation of X and an immediate on all 64 bits. -/
def State.imm1 (s : State) (f : DWord → DWord) (d : SDst) (x : SSrc) : Issue := scalarResult 1 d (f (s.srcS x)) 0

/-- R77: the bits that a field of `w` bits at `p` covers. -/
def fieldMask (p w : Nat) : DWord := BitVec.ofNat 64 ((2 ^ w - 1) * 2 ^ p)

def bitExtract (x : DWord) (p w : Nat) : DWord := BitVec.ofNat 64 (bits x p w)
def bitExtractSigned (x : DWord) (p w : Nat) : DWord := BitVec.ofInt 64 (Int.bmod (bits x p w) (2 ^ w))
def bitInsert (old x : DWord) (p w : Nat) : DWord := (old &&& ~~~fieldMask p w) ||| BitVec.ofNat 64 (bits x 0 w * 2 ^ p)

def execAddi (d : SDst) (x : SSrc) (imm : Int) (s : State) : Host.Outcome State Fault Refusal :=
  s.settle (s.imm1 (fun v => v + BitVec.ofInt 64 imm) d x)
def execAndi (d : SDst) (x : SSrc) (imm : Int) (s : State) : Host.Outcome State Fault Refusal :=
  s.settle (s.imm1 (fun v => v &&& BitVec.ofInt 64 imm) d x)
def execOri (d : SDst) (x : SSrc) (imm : Int) (s : State) : Host.Outcome State Fault Refusal :=
  s.settle (s.imm1 (fun v => v ||| BitVec.ofInt 64 imm) d x)
def execXori (d : SDst) (x : SSrc) (imm : Int) (s : State) : Host.Outcome State Fault Refusal :=
  s.settle (s.imm1 (fun v => v ^^^ BitVec.ofInt 64 imm) d x)
def execShli (d : SDst) (x : SSrc) (n : Nat) (s : State) : Host.Outcome State Fault Refusal := s.settle (s.imm1 (· <<< n) d x)
def execShri (d : SDst) (x : SSrc) (n : Nat) (s : State) : Host.Outcome State Fault Refusal := s.settle (s.imm1 (· >>> n) d x)
def execSari (d : SDst) (x : SSrc) (n : Nat) (s : State) : Host.Outcome State Fault Refusal := s.settle (s.imm1 (·.sshiftRight n) d x)
def execRoti (d : SDst) (x : SSrc) (n : Nat) (s : State) : Host.Outcome State Fault Refusal := s.settle (s.imm1 (·.rotateLeft n) d x)
def execMovi (d : SDst) (imm : Int) (s : State) : Host.Outcome State Fault Refusal :=
  s.settle (scalarResult 1 d (BitVec.ofInt 64 imm) 0)
def execMovk (d : Nat) (pos imm : Nat) (s : State) : Host.Outcome State Fault Refusal :=
  s.settle (s.imm1 (fun v => bitInsert v (BitVec.ofNat 64 imm) (16 * pos) 16) (.reg d) (.reg d))
def execBext (d : SDst) (x : SSrc) (p w : Nat) (s : State) : Host.Outcome State Fault Refusal := s.settle (s.imm1 (bitExtract · p w) d x)
def execBexs (d : SDst) (x : SSrc) (p w : Nat) (s : State) : Host.Outcome State Fault Refusal :=
  s.settle (s.imm1 (bitExtractSigned · p w) d x)
def execBins (d : Nat) (x : SSrc) (p w : Nat) (s : State) : Host.Outcome State Fault Refusal :=
  s.settle (s.imm1 (bitInsert (s.srcS (.reg d)) · p w) (.reg d) x)
def execLea (d : SDst) (x y : SSrc) (scale : Nat) (imm : Int) (s : State) : Host.Outcome State Fault Refusal :=
  s.settle (s.imm1 (fun v => v + (s.srcS y <<< scale) + BitVec.ofInt 64 imm) d x)

/-! ## Predicates (R79 to R82) -/

inductive Rel where
  | eq | ne | lt | le | gt | ge
  deriving DecidableEq, Repr

def Rel.holds (r : Rel) (a b : Int) : Bool :=
  match r with
  | .eq => a == b | .ne => a != b | .lt => decide (a < b) | .le => decide (a ≤ b) | .gt => decide (b < a) | .ge => decide (b ≤ a)

/-- R79: a float comparison. -/
def fpCompare (f : Fmt) (r : Rel) (x y : Nat) : Bool :=
  if f.isNan x || f.isNan y then r == .ne else r.holds (f.keyEq x) (f.keyEq y)

def low32 (x : DWord) : Nat := (x.setWidth 32).toNat

def compare (r : Rel) (t : CTy) (x y : DWord) : Bool :=
  match t with
  | .i32 => r.holds (ityRead .i32 x) (ityRead .i32 y)
  | .z32 => r.holds (ityRead .z32 x) (ityRead .z32 y)
  | .i64 => r.holds (ityRead .i64 x) (ityRead .i64 y)
  | .z64 => r.holds (ityRead .z64 x) (ityRead .z64 y)
  | .f32 => fpCompare fmtF32 r (low32 x) (low32 y)

def unordered (x y : DWord) : Bool := fmtF32.isNan (low32 x) || fmtF32.isNan (low32 y)

/-- R79: the combine. -/
def combine (c : Combine) (old v : Bool) : Bool := match c with | .set => v | .and => old && v | .or => old || v

def State.setPred (s : State) (c : Combine) (p : Nat) (v : Bool) : Issue := .done [.land 1 0 (.pred p (combine c (s.srcP p) v))]

def State.cmp (s : State) (r : Rel) (c : Combine) (p : Nat) (x y : SSrc) (t : CTy) : Issue :=
  s.setPred c p (compare r t (s.srcS x) (s.srcS y))

/-- R80: the immediate is sign-extended to 64 bits and then read as X is. -/
def State.cmpi (s : State) (r : Rel) (c : Combine) (p : Nat) (x : SSrc) (imm : Int) (t : ITy) : Issue :=
  s.setPred c p (r.holds (ityRead t (s.srcS x)) (ityRead t (BitVec.ofInt 64 imm)))

def execCmpEq (c : Combine) (p : Nat) (x y : SSrc) (t : CTy) (s : State) : Host.Outcome State Fault Refusal := s.settle (s.cmp .eq c p x y t)
def execCmpNe (c : Combine) (p : Nat) (x y : SSrc) (t : CTy) (s : State) : Host.Outcome State Fault Refusal := s.settle (s.cmp .ne c p x y t)
def execCmpLt (c : Combine) (p : Nat) (x y : SSrc) (t : CTy) (s : State) : Host.Outcome State Fault Refusal := s.settle (s.cmp .lt c p x y t)
def execCmpLe (c : Combine) (p : Nat) (x y : SSrc) (t : CTy) (s : State) : Host.Outcome State Fault Refusal := s.settle (s.cmp .le c p x y t)
def execCmpGt (c : Combine) (p : Nat) (x y : SSrc) (t : CTy) (s : State) : Host.Outcome State Fault Refusal := s.settle (s.cmp .gt c p x y t)
def execCmpGe (c : Combine) (p : Nat) (x y : SSrc) (t : CTy) (s : State) : Host.Outcome State Fault Refusal := s.settle (s.cmp .ge c p x y t)
def execCmpUn (c : Combine) (p : Nat) (x y : SSrc) (s : State) : Host.Outcome State Fault Refusal :=
  s.settle (s.setPred c p (unordered (s.srcS x) (s.srcS y)))
def execCmpOrd (c : Combine) (p : Nat) (x y : SSrc) (s : State) : Host.Outcome State Fault Refusal :=
  s.settle (s.setPred c p (!unordered (s.srcS x) (s.srcS y)))
def execCmpiEq (c : Combine) (p : Nat) (x : SSrc) (imm : Int) (t : ITy) (s : State) : Host.Outcome State Fault Refusal :=
  s.settle (s.cmpi .eq c p x imm t)
def execCmpiNe (c : Combine) (p : Nat) (x : SSrc) (imm : Int) (t : ITy) (s : State) : Host.Outcome State Fault Refusal :=
  s.settle (s.cmpi .ne c p x imm t)
def execCmpiLt (c : Combine) (p : Nat) (x : SSrc) (imm : Int) (t : ITy) (s : State) : Host.Outcome State Fault Refusal :=
  s.settle (s.cmpi .lt c p x imm t)
def execCmpiLe (c : Combine) (p : Nat) (x : SSrc) (imm : Int) (t : ITy) (s : State) : Host.Outcome State Fault Refusal :=
  s.settle (s.cmpi .le c p x imm t)
def execCmpiGt (c : Combine) (p : Nat) (x : SSrc) (imm : Int) (t : ITy) (s : State) : Host.Outcome State Fault Refusal :=
  s.settle (s.cmpi .gt c p x imm t)
def execCmpiGe (c : Combine) (p : Nat) (x : SSrc) (imm : Int) (t : ITy) (s : State) : Host.Outcome State Fault Refusal :=
  s.settle (s.cmpi .ge c p x imm t)

/-- R81. -/
def predResult (d : Nat) (v : Bool) : Issue := .done [.land 1 0 (.pred d v)]

def execPand (d x y : Nat) (s : State) : Host.Outcome State Fault Refusal := s.settle (predResult d (s.srcP x && s.srcP y))
def execPor (d x y : Nat) (s : State) : Host.Outcome State Fault Refusal := s.settle (predResult d (s.srcP x || s.srcP y))
def execPxor (d x y : Nat) (s : State) : Host.Outcome State Fault Refusal := s.settle (predResult d (s.srcP x != s.srcP y))
def execPandn (d x y : Nat) (s : State) : Host.Outcome State Fault Refusal := s.settle (predResult d (s.srcP x && !s.srcP y))
def execPnot (d x : Nat) (s : State) : Host.Outcome State Fault Refusal := s.settle (predResult d (!s.srcP x))
def execPmov (d x : Nat) (s : State) : Host.Outcome State Fault Refusal := s.settle (predResult d (s.srcP x))
def execPset (d : Nat) (s : State) : Host.Outcome State Fault Refusal := s.settle (predResult d true)
def execPclr (d : Nat) (s : State) : Host.Outcome State Fault Refusal := s.settle (predResult d false)
def execSel (d : SDst) (p : Nat) (neg : Bool) (x y : SSrc) (s : State) : Host.Outcome State Fault Refusal :=
  s.settle (scalarResult 1 d (if s.srcP p != neg then s.srcS x else s.srcS y) 0)

/-! ## Scalar floating point (R83 to R85) -/

/-- A binary32 result: bits [63:32] are zero (R53). -/
def floatResult (d : SDst) (r : Nat × Flags) : Issue := scalarResult 4 d (BitVec.ofNat 64 r.1) r.2

def State.fpMode (s : State) : RMode := fmtMode s.regs.fmt
def State.srcF (s : State) (x : SSrc) : Nat := low32 (s.srcS x)

def execSfadd (d : SDst) (x y : SSrc) (s : State) : Host.Outcome State Fault Refusal :=
  s.settle (floatResult d (fpAdd fmtF32 s.fpMode (s.srcF x) (s.srcF y)))
def execSfsub (d : SDst) (x y : SSrc) (s : State) : Host.Outcome State Fault Refusal :=
  s.settle (floatResult d (fpSub fmtF32 s.fpMode (s.srcF x) (s.srcF y)))
def execSfmul (d : SDst) (x y : SSrc) (s : State) : Host.Outcome State Fault Refusal :=
  s.settle (floatResult d (fpMul fmtF32 s.fpMode (s.srcF x) (s.srcF y)))
def execSfma (d : Nat) (x y : SSrc) (s : State) : Host.Outcome State Fault Refusal :=
  s.settle (floatResult (.reg d) (fpFma fmtF32 s.fpMode false (s.srcF x) (s.srcF y) (s.srcF (.reg d))))
def execSfmin (d : SDst) (x y : SSrc) (s : State) : Host.Outcome State Fault Refusal :=
  s.settle (floatResult d (fpMin fmtF32 (s.srcF x) (s.srcF y), 0))
def execSfmax (d : SDst) (x y : SSrc) (s : State) : Host.Outcome State Fault Refusal :=
  s.settle (floatResult d (fpMax fmtF32 (s.srcF x) (s.srcF y), 0))
def execSfabs (d : SDst) (x : SSrc) (s : State) : Host.Outcome State Fault Refusal :=
  s.settle (floatResult d (s.srcF x % 2 ^ 31, 0))
def execSfneg (d : SDst) (x : SSrc) (s : State) : Host.Outcome State Fault Refusal :=
  s.settle (floatResult d (s.srcF x ^^^ 2 ^ 31, 0))

/-- R70, R160: the counter that an instruction of the current bundle draws with. -/
def State.drawCtr (s : State) : DWord := s.k.rngCtr + BitVec.ofNat 64 s.fin.draws

/-- R152: the random bits of one element of a conversion. -/
def State.srBits (s : State) (lane : Nat) : Nat := bits (mix s.k.rngKey s.drawCtr (fmtStream s.regs.fmt) lane) 0 16

/-- A draw reads RNGKEY and advances RNGCTR by one (R69, R160). -/
def drawEffects : List Effect := [.reads [.rngkey], .draw 1]

/-- The destination formats of SFCVT. -/
def tyFmt : Ty → CFmt
  | .i32 => .int .i32 | .z32 => .int .z32 | .i64 => .int .i64 | .z64 => .int .z64
  | .f32 => .flt fmtF32 | .bf => .flt fmtBf | .e4 => .flt fmtE4 | .e5 => .flt fmtE5

/-- R53: how an encoding of a type fills 64 bits. -/
def tyExtend (t : Ty) (v : Nat) : DWord :=
  match t with
  | .i32 => (BitVec.ofNat 32 v).signExtend 64
  | _ => BitVec.ofNat 64 v

/-- R85. -/
def State.sfcvt (s : State) (d : SDst) (x : SSrc) (src : Nat) (dst : Ty) : Issue :=
  let a := cfmtOf src
  let b := tyFmt dst
  let draws := s.fpMode == .sr && cvtDraws a b
  let (v, fl) := convert a b s.fpMode (fmtNsat s.regs.fmt) (s.srBits 0) (bits (s.srcS x) 0 (8 * a.bytes))
  .done ((if draws then drawEffects else []) ++ [.land 4 fl (.scalar d (tyExtend dst v))])

def execSfcvt (d : SDst) (x : SSrc) (src : Nat) (dst : Ty) (s : State) : Host.Outcome State Fault Refusal := s.settle (s.sfcvt d x src dst)

/-! ## State registers and loop levels (R67, R70, R86, R99) -/

def State.getkIssue (s : State) (d : SDst) (k : Nat) : Issue := issueOf (do
  check (0 < kAccess s.k.priv k) .privilege
  .ok [.reads (if k = 0x010 then [.rngkey] else []), .land 2 0 (.scalar d (s.getK k))])

def State.setkIssue (s : State) (k : Nat) (x : SSrc) : Issue := issueOf (do
  check (kAccess s.k.priv k = 2) .privilege
  .ok [.land 2 0 (.kreg k (s.srcS x))])

/-- R99: levels are numbered from the outermost. -/
def State.level (s : State) (n : Nat) : Option LoopLevel := s.seq.loops.reverse[n]?

def execGetk (d : SDst) (k : Nat) (s : State) : Host.Outcome State Fault Refusal := s.settle (s.getkIssue d k)
def execSetk (k : Nat) (x : SSrc) (s : State) : Host.Outcome State Fault Refusal := s.settle (s.setkIssue k x)
def execLidx (d : SDst) (n : Nat) (s : State) : Host.Outcome State Fault Refusal :=
  s.settle (scalarResult 1 d (((s.level n).map fun l => l.index.setWidth 64).getD 0) 0)
def execLcnt (d : SDst) (n : Nat) (s : State) : Host.Outcome State Fault Refusal :=
  s.settle (scalarResult 1 d (((s.level n).map fun l => l.count.setWidth 64).getD 0) 0)

/-! ## The format register (R156, R157) -/

def State.setfIssue (s : State) (x : SSrc) : Issue := issueOf (do
  check (fmtOk ((s.srcS x).setWidth 48)) .format
  .ok [.land 4 0 (.fmt ((s.srcS x).setWidth 48))])

def execSetf (x : SSrc) (s : State) : Host.Outcome State Fault Refusal := s.settle (s.setfIssue x)
def execGetf (d : SDst) (s : State) : Host.Outcome State Fault Refusal := s.settle (scalarResult 2 d (s.regs.fmt.setWidth 64) 0)

/-- R14: nothing. -/
def execNop (s : State) : Host.Outcome State Fault Refusal := s.settle (.done [])

end Sys2Proof.Machine
end

