-- ==== Sys2Proof/Machine/Vector.lean ====
section
/-! DEFINITION. Vector arithmetic, compares, conversion, reductions, permutes and the mask stack (06_vector R162 to R177). -/

namespace Sys2Proof.Machine

/-- R165: the top that an instruction uses. -/
def State.top (s : State) : Mask := topMask s.regs.masks

/-- A vector result of the active lanes, and its STATUS bits (R68, R165). -/
def State.vecResult (s : State) (lat w : Nat) (d : VDst) (rs : List (Nat × Flags)) : Issue :=
  let act := active s.top w
  let (vs, fl) := mapLanes act rs
  .done [.land lat fl (.vector d (ofLanes w vs) (maskBits s.top w))]

/-- A vector result that writes every lane whatever the top is (R165). -/
def vecAll (lat : Nat) (d : VDst) (v : VReg) (fl : Flags) : Issue := .done [.land lat fl (.vector d v (BitVec.allOnes 65536))]

def State.lanesOf (s : State) (w : Nat) (x : VSrc) : List Nat := lanes w (s.srcV x)

/-- Lane by lane, of one and of two operands. -/
def State.vec1 (s : State) (lat w : Nat) (f : Nat → Nat × Flags) (d : VDst) (x : VSrc) : Issue :=
  s.vecResult lat w d ((s.lanesOf w x).map f)
def State.vec2 (s : State) (lat w : Nat) (f : Nat → Nat → Nat × Flags) (d : VDst) (x y : VSrc) : Issue :=
  s.vecResult lat w d (List.zipWith f (s.lanesOf w x) (s.lanesOf w y))

/-! ## Floating-point arithmetic (R169, R170) -/

def State.vfa2 (s : State) (f : Fmt → Nat → Nat → Nat × Flags) (d : VDst) (x y : VSrc) (t : FTy) : Issue :=
  s.vec2 4 (ftyFmt t).bytes (f (ftyFmt t)) d x y
def State.vfa1 (s : State) (f : Fmt → Nat → Nat × Flags) (d : VDst) (x : VSrc) (t : FTy) : Issue :=
  s.vec1 4 (ftyFmt t).bytes (f (ftyFmt t)) d x
def State.vfx1 (s : State) (f : Fmt → Nat → Nat × Flags) (d : VDst) (x : VSrc) (t : FTy) : Issue :=
  s.vec1 8 (ftyFmt t).bytes (f (ftyFmt t)) d x

/-- x × y + d and x × y − d (R169). -/
def State.vfma (s : State) (neg : Bool) (d : Nat) (x y : VSrc) (t : FTy) : Issue :=
  let f := ftyFmt t
  let g (xy : Nat × Nat) (z : Nat) : Nat × Flags := fpFma f s.fpMode false xy.1 xy.2 (if neg then z ^^^ f.signBit else z)
  s.vecResult 4 f.bytes (.reg d)
    (List.zipWith g ((s.lanesOf f.bytes x).zip (s.lanesOf f.bytes y)) (s.lanesOf f.bytes (.reg d)))

def execVadd (d : VDst) (x y : VSrc) (t : FTy) (s : State) : Host.Outcome State Fault Refusal :=
  s.settle (s.vfa2 (fun f => fpAdd f s.fpMode) d x y t)
def execVsub (d : VDst) (x y : VSrc) (t : FTy) (s : State) : Host.Outcome State Fault Refusal :=
  s.settle (s.vfa2 (fun f => fpSub f s.fpMode) d x y t)
def execVmul (d : VDst) (x y : VSrc) (t : FTy) (s : State) : Host.Outcome State Fault Refusal :=
  s.settle (s.vfa2 (fun f => fpMul f s.fpMode) d x y t)
def execVfma (d : Nat) (x y : VSrc) (t : FTy) (s : State) : Host.Outcome State Fault Refusal := s.settle (s.vfma false d x y t)
def execVfms (d : Nat) (x y : VSrc) (t : FTy) (s : State) : Host.Outcome State Fault Refusal := s.settle (s.vfma true d x y t)
def execVmin (d : VDst) (x y : VSrc) (t : FTy) (s : State) : Host.Outcome State Fault Refusal :=
  s.settle (s.vfa2 (fun f a b => (fpMin f a b, 0)) d x y t)
def execVmax (d : VDst) (x y : VSrc) (t : FTy) (s : State) : Host.Outcome State Fault Refusal :=
  s.settle (s.vfa2 (fun f a b => (fpMax f a b, 0)) d x y t)
def execVabs (d : VDst) (x : VSrc) (t : FTy) (s : State) : Host.Outcome State Fault Refusal :=
  s.settle (s.vfa1 (fun f a => (a % f.signBit, 0)) d x t)
def execVneg (d : VDst) (x : VSrc) (t : FTy) (s : State) : Host.Outcome State Fault Refusal :=
  s.settle (s.vfa1 (fun f a => (a ^^^ f.signBit, 0)) d x t)
def execVcpys (d : VDst) (x y : VSrc) (t : FTy) (s : State) : Host.Outcome State Fault Refusal :=
  s.settle (s.vfa2 (fun f a b => (a % f.signBit + b / f.signBit * f.signBit, 0)) d x y t)
def execVrcp (d : VDst) (x : VSrc) (t : FTy) (s : State) : Host.Outcome State Fault Refusal := s.settle (s.vfx1 fpRcp d x t)
def execVrsq (d : VDst) (x : VSrc) (t : FTy) (s : State) : Host.Outcome State Fault Refusal := s.settle (s.vfx1 fpRsq d x t)
def execVsqrt (d : VDst) (x : VSrc) (t : FTy) (s : State) : Host.Outcome State Fault Refusal := s.settle (s.vfx1 fpSqrt d x t)
def execVexp2 (d : VDst) (x : VSrc) (t : FTy) (s : State) : Host.Outcome State Fault Refusal := s.settle (s.vfx1 fpExp2 d x t)
def execVlog2 (d : VDst) (x : VSrc) (t : FTy) (s : State) : Host.Outcome State Fault Refusal := s.settle (s.vfx1 fpLog2 d x t)
def execVflr (d : VDst) (x : VSrc) (t : FTy) (s : State) : Host.Outcome State Fault Refusal := s.settle (s.vfx1 fpFlr d x t)
def execVrnd (d : VDst) (x : VSrc) (t : FTy) (s : State) : Host.Outcome State Fault Refusal :=
  s.settle (s.vfx1 (fun f => fpRnd f s.fpMode) d x t)
def execVdiv (d : VDst) (x y : VSrc) (t : FTy) (s : State) : Host.Outcome State Fault Refusal :=
  s.settle (s.vec2 8 (ftyFmt t).bytes (fpDiv (ftyFmt t)) d x y)

/-! ## Integer arithmetic (R171); `sg` is true for .i32 -/

/-- A 32-bit lane, signed or not. -/
def laneInt (sg : Bool) (x : Nat) : Int := if sg then Int.bmod x (2 ^ 32) else x
def laneOf (v : Int) : Nat := (v % 2 ^ 32).toNat

def State.via (s : State) (f : Int → Int → Int) (d : VDst) (x y : VSrc) (sg : Bool) : Issue :=
  s.vec2 4 4 (fun a b => (laneOf (f (laneInt sg a) (laneInt sg b)), 0)) d x y

/-- Bitwise, and shifts by y[4:0]. -/
def State.viaBits (s : State) (f : Nat → Nat → Nat) (d : VDst) (x y : VSrc) : Issue :=
  s.vec2 4 4 (fun a b => (f a b % 2 ^ 32, 0)) d x y

def execViadd (d : VDst) (x y : VSrc) (sg : Bool) (s : State) : Host.Outcome State Fault Refusal := s.settle (s.via (· + ·) d x y sg)
def execVisub (d : VDst) (x y : VSrc) (sg : Bool) (s : State) : Host.Outcome State Fault Refusal := s.settle (s.via (· - ·) d x y sg)
def execVimul (d : VDst) (x y : VSrc) (sg : Bool) (s : State) : Host.Outcome State Fault Refusal := s.settle (s.via (· * ·) d x y sg)
def execVand (d : VDst) (x y : VSrc) (_sg : Bool) (s : State) : Host.Outcome State Fault Refusal := s.settle (s.viaBits (· &&& ·) d x y)
def execVor (d : VDst) (x y : VSrc) (_sg : Bool) (s : State) : Host.Outcome State Fault Refusal := s.settle (s.viaBits (· ||| ·) d x y)
def execVxor (d : VDst) (x y : VSrc) (_sg : Bool) (s : State) : Host.Outcome State Fault Refusal := s.settle (s.viaBits (· ^^^ ·) d x y)
def execVshl (d : VDst) (x y : VSrc) (_sg : Bool) (s : State) : Host.Outcome State Fault Refusal :=
  s.settle (s.viaBits (fun a b => a * 2 ^ (b % 32)) d x y)
def execVshr (d : VDst) (x y : VSrc) (sg : Bool) (s : State) : Host.Outcome State Fault Refusal :=
  s.settle (s.via (fun a b => a / 2 ^ (b % 32).toNat) d x y sg)
def execVimin (d : VDst) (x y : VSrc) (sg : Bool) (s : State) : Host.Outcome State Fault Refusal := s.settle (s.via min d x y sg)
def execVimax (d : VDst) (x y : VSrc) (sg : Bool) (s : State) : Host.Outcome State Fault Refusal := s.settle (s.via max d x y sg)
def execViabs (d : VDst) (x : VSrc) (s : State) : Host.Outcome State Fault Refusal :=
  s.settle (s.vec1 4 4 (fun a => (laneOf ((laneInt true a).natAbs : Int), 0)) d x)

/-! ## The mask stack (R167, R168) and compares (R172) -/

/-- A level whose bit `i` is the i-th of a list. -/
def maskOf (l : List Bool) : Mask := BitVec.ofNat 2048 (joinN 2 (l.map fun b => if b then 1 else 0))

/-- The 32-bit lanes that are not zero. -/
def nonzeroLanes (v : VReg) : Mask := maskOf ((lanes 4 v).map (· != 0))

/-- R167: a change is checked against the projected depth. -/
def State.maskIssue (_s : State) (lat : Nat) (ok : Bool) (c : MaskChange) : Issue := issueOf (do
  check ok .maskStack
  .ok [.land lat 0 (.mask c)])

def State.canPush (s : State) : Bool := decide (s.projectedDepth < 8)
def State.hasLevel (s : State) : Bool := decide (0 < s.projectedDepth)

def execMpush (x : VSrc) (s : State) : Host.Outcome State Fault Refusal :=
  s.settle (s.maskIssue 2 s.canPush (.push (nonzeroLanes (s.srcV x))))
def execMinv (s : State) : Host.Outcome State Fault Refusal := s.settle (s.maskIssue 2 s.hasLevel .inv)
def execMpop (s : State) : Host.Outcome State Fault Refusal := s.settle (s.maskIssue 2 s.hasLevel .pop)
def execMall (s : State) : Host.Outcome State Fault Refusal := s.settle (s.maskIssue 2 true .all)
def execMget (d : VDst) (s : State) : Host.Outcome State Fault Refusal := s.settle (vecAll 2 d (maskBits s.top 4) 0)
def execMset (x : VSrc) (s : State) : Host.Outcome State Fault Refusal :=
  s.settle (s.maskIssue 2 s.hasLevel (.set (nonzeroLanes (s.srcV x))))

def vtyWidth : VTy → Nat | .bf => 2 | _ => 4

/-- R172: one lane's comparison. -/
def vcmpLane (r : Rel) (t : VTy) (a b : Nat) : Bool :=
  match t with
  | .i32 => r.holds (laneInt true a) (laneInt true b)
  | .z32 => r.holds a b
  | .f32 => fpCompare fmtF32 r a b
  | .bf => fpCompare fmtBf r a b

/-- R172: a .bf comparison holds for bit i when it holds in lanes 2i and 2i + 1. -/
def perBit (w : Nat) (l : List Bool) : Mask := maskOf (if w = 2 then active.pairs l else l)

/-- R172: a vector compare pushes a mask and writes no predicate register (log 91). -/
def State.vcmp (s : State) (r : Rel) (x y : VSrc) (t : VTy) : Issue :=
  let w := vtyWidth t
  s.maskIssue 6 s.canPush (.push (perBit w (List.zipWith (vcmpLane r t) (s.lanesOf w x) (s.lanesOf w y))))

def execVcmpeq (x y : VSrc) (t : VTy) (s : State) : Host.Outcome State Fault Refusal := s.settle (s.vcmp .eq x y t)
def execVcmpne (x y : VSrc) (t : VTy) (s : State) : Host.Outcome State Fault Refusal := s.settle (s.vcmp .ne x y t)
def execVcmplt (x y : VSrc) (t : VTy) (s : State) : Host.Outcome State Fault Refusal := s.settle (s.vcmp .lt x y t)
def execVcmple (x y : VSrc) (t : VTy) (s : State) : Host.Outcome State Fault Refusal := s.settle (s.vcmp .le x y t)
def execVcmpgt (x y : VSrc) (t : VTy) (s : State) : Host.Outcome State Fault Refusal := s.settle (s.vcmp .gt x y t)
def execVcmpge (x y : VSrc) (t : VTy) (s : State) : Host.Outcome State Fault Refusal := s.settle (s.vcmp .ge x y t)
def execVcmpun (x y : VSrc) (t : FTy) (s : State) : Host.Outcome State Fault Refusal :=
  let f := ftyFmt t
  s.settle (s.maskIssue 6 s.canPush
    (.push (perBit f.bytes (List.zipWith (fun a b => f.isNan a || f.isNan b) (s.lanesOf f.bytes x) (s.lanesOf f.bytes y)))))
def execVsel (d : VDst) (x y : VSrc) (t : VTy) (s : State) : Host.Outcome State Fault Refusal :=
  let m := maskBits s.top (vtyWidth t)
  s.settle (vecAll 6 d ((s.srcV x &&& m) ||| (s.srcV y &&& ~~~m)) 0)

/-! ## Conversion (R173, R174) -/

/-- The exponent of the anchored fixed-point form. -/
def State.fixExp (s : State) : Int := (fmtAnchor s.regs.fmt).toInt - 96

/-- R174: one element; code 9 is the anchored form when the other code is a float format, which is the only way it occurs. -/
def State.cvtElem (s : State) (src dst : Nat) (mode : RMode) (u x : Nat) : Nat × Flags :=
  let ns := fmtNsat s.regs.fmt
  if src = 9 then
    match cfmtOf dst with
    | .flt f =>
      let v := IFmt.decode .i64 x
      if v = 0 then (0, 0) else round f mode ns (decide (v < 0)) v.natAbs 1 s.fixExp u
    | .int g => (cvtII .i64 g x, 0)
  else if dst = 9 then
    match cfmtOf src with
    | .flt f =>
      match f.decode x with
      | .fin neg n e =>
        let e := e - s.fixExp
        let (k, inexact) := roundK mode neg (scaleNum n e) (scaleDen 1 e) u
        let v : Int := if neg then -(k : Int) else k
        if v < IFmt.lo .i64 ∨ IFmt.hi .i64 < v then (IFmt.encode .i64 (IFmt.clamp .i64 v), flagInvalid)
        else (IFmt.encode .i64 v, flagIf inexact flagInexact)
      | _ => cvtFI f .i64 mode u x
    | .int g => (cvtII g .i64 x, 0)
  else convert (cfmtOf src) (cfmtOf dst) mode ns u x

/-- R174: destination lanes in which the part lies. -/
def partLanes (n part i : Nat) : Bool := decide (part * n ≤ i ∧ i < part * n + n)

def State.vcvt (s : State) (d : VDst) (x : VSrc) (src dst part : Nat) (mode : Option Nat) : Issue :=
  let wf := cvtWidth src
  let wt := cvtWidth dst
  let n := 8192 / max wf wt
  let m := match mode with | some c => rmodeOf c | none => s.fpMode
  let draws := m == .sr && cvtDraws (cfmtOf src) (cfmtOf dst)
  let xs := s.lanesOf wf x
  let act := active s.top wt
  let start := if wf ≤ wt then 0 else part * n
  let elems := ((if wf ≤ wt then xs.drop (part * n) else xs).take n).zipIdx.map fun (v, j) => s.cvtElem src dst m (s.srBits (start + j)) v
  let rs := List.replicate start (0, 0) ++ elems ++ List.replicate (8192 / wt - start - n) (0, 0)
  let act := act.zipIdx.map fun (a, i) => a && partLanes n (if wf ≤ wt then 0 else part) i
  let (vs, fl) := mapLanes act rs
  .done ((if draws then drawEffects else []) ++ [.land 6 fl (.vector d (ofLanes wt vs) (laneBits wt act))])

def execVcvt (d : VDst) (x : VSrc) (src dst : Nat) (part : Nat) (mode : Option Nat) (s : State) : Host.Outcome State Fault Refusal :=
  s.settle (s.vcvt d x src dst part mode)

/-! ## Reductions (R175, R176) -/

/-- The result in lane 0 of D, zero in every other lane, and the scalar queue's entry. -/
def redResult (d : VDst) (lane0 : Nat) (entry : DWord) (fl : Flags) : Issue :=
  .done [.land 6 fl (.vector d (BitVec.ofNat 65536 lane0) (BitVec.allOnes 65536)), .land 6 0 (.scalar .queue entry)]

/-- The active lanes, with their numbers. -/
def State.activeLanes (s : State) (w : Nat) (x : VSrc) : List (Nat × Nat) :=
  (((s.lanesOf w x).zipIdx).zip (active s.top w)).filterMap fun (v, a) => if a then some v else none

def redFloat (d : VDst) (r : Nat × Flags) : Issue := redResult d r.1 (BitVec.ofNat 64 r.1) r.2

def State.vxsum (s : State) (d : VDst) (x : VSrc) (t : FTy) : Issue :=
  let f := ftyFmt t
  redFloat d ((exactSumOf f ((s.activeLanes f.bytes x).map (·.1))).pack f (arithMode s.fpMode))

def State.vrext (s : State) (pick : Fmt → Nat → Nat → Nat) (none_ : Fmt → Nat) (d : VDst) (x : VSrc) (t : FTy) : Issue :=
  let f := ftyFmt t
  redFloat d (match extreme f (pick f) ((s.activeLanes f.bytes x).map (·.1)) with
    | some v => (v, 0)
    | none => (none_ f, flagEmptyRed))

/-- R175: NaN is greater than every number; the lowest index on ties. -/
def argmax (f : Fmt) : List (Nat × Nat) → Option (Nat × Nat)
  | [] => none
  | x :: l =>
    match argmax f l with
    | none => some x
    | some y => if f.isNan x.1 then some x else if f.isNan y.1 then some y else if f.key x.1 < f.key y.1 then some y else some x

def State.vargmax (s : State) (d : VDst) (x : VSrc) (t : FTy) : Issue :=
  let f := ftyFmt t
  match argmax f (s.activeLanes f.bytes x) with
  | some (_, i) => redResult d i (BitVec.ofNat 64 i) 0
  | none => redResult d 0xFFFFFFFF (BitVec.ofNat 64 0xFFFFFFFF) flagEmptyRed

def State.vscan (s : State) (d : VDst) (x : VSrc) (t : FTy) : Issue :=
  let f := ftyFmt t
  let m := arithMode s.fpMode
  let act := active s.top f.bytes
  let (vs, fl) := mapLanes act (scanLanes f m .zero ((s.lanesOf f.bytes x).zip act))
  let (total, fl2) := (exactSumOf f ((s.activeLanes f.bytes x).map (·.1))).pack f m
  .done [.land 6 (fl ||| fl2) (.vector d (ofLanes f.bytes vs) (maskBits s.top f.bytes)), .land 6 0 (.scalar .queue (BitVec.ofNat 64 total))]

def State.visum (s : State) (d : VDst) (x : VSrc) (sg : Bool) : Issue :=
  let v := (s.activeLanes 4 x).foldl (fun acc l => acc + laneInt sg l.1) (0 : Int)
  redResult d (laneOf v) (BitVec.ofInt 64 v) 0

def execVxsum (d : VDst) (x : VSrc) (t : FTy) (s : State) : Host.Outcome State Fault Refusal := s.settle (s.vxsum d x t)
def execVscan (d : VDst) (x : VSrc) (t : FTy) (s : State) : Host.Outcome State Fault Refusal := s.settle (s.vscan d x t)
def execVrmax (d : VDst) (x : VSrc) (t : FTy) (s : State) : Host.Outcome State Fault Refusal :=
  s.settle (s.vrext fpMax (fun f => f.inf true) d x t)
def execVrmin (d : VDst) (x : VSrc) (t : FTy) (s : State) : Host.Outcome State Fault Refusal :=
  s.settle (s.vrext fpMin (fun f => f.inf false) d x t)
def execVargmax (d : VDst) (x : VSrc) (t : FTy) (s : State) : Host.Outcome State Fault Refusal := s.settle (s.vargmax d x t)
def execVisum (d : VDst) (x : VSrc) (sg : Bool) (s : State) : Host.Outcome State Fault Refusal := s.settle (s.visum d x sg)
def execVpopm (d : VDst) (s : State) : Host.Outcome State Fault Refusal :=
  s.settle (redResult d (popc s.top) (BitVec.ofNat 64 (popc s.top)) 0)

/-! ## Permutes (R177) -/

def ptyWidth : PTy → Nat | .w32 => 4 | .w16 => 2 | .w8 => 1
def ptyLanes (t : PTy) : Nat := 8192 / ptyWidth t

def State.permute (s : State) (d : VDst) (t : PTy) (f : Nat → Nat) : Issue :=
  s.vecResult 6 (ptyWidth t) d ((List.range (ptyLanes t)).map fun i => (f i, 0))

/-- Lane `i` of a register. -/
def laneAt (t : PTy) (v : VReg) (i : Nat) : Nat := bits v (8 * ptyWidth t * i) (8 * ptyWidth t)

def execVbcst (d : VDst) (x : SSrc) (t : PTy) (s : State) : Host.Outcome State Fault Refusal :=
  s.settle (s.permute d t (fun _ => bits (s.srcS x) 0 (8 * ptyWidth t)))
def execVext (d : SDst) (x : VSrc) (y : SSrc) (t : PTy) (s : State) : Host.Outcome State Fault Refusal :=
  s.settle (scalarResult 6 d (BitVec.ofNat 64 (laneAt t (s.srcV x) ((s.srcS y).toNat % ptyLanes t))) 0)
def execVins (d : Nat) (x y : SSrc) (t : PTy) (s : State) : Host.Outcome State Fault Refusal :=
  let w := 8 * ptyWidth t
  let i := (s.srcS y).toNat % ptyLanes t
  s.settle (.done [.land 6 0 (.vector (.reg d) (BitVec.ofNat 65536 (bits (s.srcS x) 0 w * 2 ^ (w * i)))
    (BitVec.ofNat 65536 ((2 ^ w - 1) * 2 ^ (w * i))))])
def execVrot (d : VDst) (x : VSrc) (y : SSrc) (t : PTy) (s : State) : Host.Outcome State Fault Refusal :=
  let k := (s.srcS y).toNat % ptyLanes t
  let xs := s.lanesOf (ptyWidth t) x
  s.settle (s.vecResult 6 (ptyWidth t) d ((xs.drop k ++ xs.take k).map fun v => (v, 0)))
def execVperm (d : VDst) (x y : VSrc) (t : PTy) (s : State) : Host.Outcome State Fault Refusal :=
  let pickLane (v : Nat × Nat) : Nat × Flags :=
    (laneAt t (s.srcV x) (if t = .w8 then 256 * (v.2 / 256) + v.1 else v.1 % ptyLanes t), 0)
  s.settle (s.vecResult 6 (ptyWidth t) d ((s.lanesOf (ptyWidth t) y).zipIdx.map pickLane))
def execViota (d : VDst) (t : PTy) (s : State) : Host.Outcome State Fault Refusal :=
  s.settle (s.permute d t (fun i => i % 2 ^ (8 * ptyWidth t)))

end Sys2Proof.Machine
end

