-- ==== Sys2Proof/Machine/Matrix.lean ====
section
/-! DEFINITION. The matrix array, its queue and tiles (07_matrix R183 to R203, 05_formats R144 to R149, R158). -/

namespace Sys2Proof.Machine

/-! ## Long cells (R146 to R149) -/

def Cell.zero : Cell := ⟨0, .fin, 0⟩

/-- R188: the 16,384 cells of a version, and the sparse form that State holds. -/
def denseFrom : Nat → Nat → List (Nat × Cell) → List Cell
  | 0, _, _ => []
  | n + 1, i, [] => .zero :: denseFrom n (i + 1) []
  | n + 1, i, c :: l => if c.1 = i then c.2 :: denseFrom n (i + 1) l else .zero :: denseFrom n (i + 1) (c :: l)

def Tile.dense (t : Tile) : List Cell := denseFrom 16384 0 t.cells
def sparse (l : List Cell) : List (Nat × Cell) := (l.zipIdx.filter fun c => c.1 != .zero).map fun c => (c.2, c.1)

/-- R148: the join of tags. -/
def CTag.join : CTag → CTag → CTag
  | .fin, b => b
  | a, .fin => a
  | .pinf, .pinf => .pinf
  | .ninf, .ninf => .ninf
  | _, _ => .nan

/-- The sticky bits of R201. -/
def stDup : BitVec 6 := 1
def stClip : BitVec 6 := 2
def stCount : BitVec 6 := 4
def stInf : BitVec 6 := 8
def stNan : BitVec 6 := 16
def stClamp : BitVec 6 := 32

/-- R147: a finite value on the anchor grid, and whether it was clamped. -/
def lcround (neg : Bool) (n : Nat) (e a : Int) : Int × Bool :=
  let mag : Nat × Bool :=
    if a + 16 ≤ (Nat.log2 n : Int) + e then (2 ^ 112, true)
    else ((roundK .rne neg (scaleNum n (e - (a - 96))) (scaleDen 1 (e - (a - 96))) 0).1, false)
  (if neg then -(mag.1 : Int) else mag.1, mag.2)

/-- What the array gathers while it works: STATUS bits and sticky bits. -/
abbrev Marks := Flags × BitVec 6

def Marks.or (a b : Marks) : Marks := (a.1 ||| b.1, a.2 ||| b.2)
def marksClip : Marks := (flagAnchOvf, stClip)
def marksCount : Marks := (flagAnchOvf, stCount)
def marksTag (t : CTag) : Marks := match t with | .nan => (0, stNan) | .fin => (0, 0) | _ => (0, stInf)

/-- What an exact value adds to a cell: a number of grid units, a tag, and marks. -/
def gridOf (a : Int) : FVal → Int × CTag × Marks
  | .nan => (0, .nan, marksTag .nan)
  | .inf neg => (0, if neg then .ninf else .pinf, marksTag .pinf)
  | .zero _ => (0, .fin, (0, 0))
  | .fin neg n e => let (v, clip) := lcround neg n e a; (v, .fin, if clip then marksClip else (0, 0))

/-- The sum of products of one step, each rounded on its own (R147, R148). -/
def dotProduct (a : Int) : List FVal → List FVal → Int × CTag × Marks
  | x :: xs, y :: ys =>
    let (v, t, m) := dotProduct a xs ys
    let (v1, t1, m1) := gridOf a (exactMul x y).1
    (v + v1, t.join t1, Marks.or m m1)
  | _, _ => (0, .fin, (0, 0))

/-- R148: `n` products added to a cell. -/
def Cell.add (c : Cell) (n : Nat) (v : Int) (t : CTag) : Cell × Marks :=
  (⟨c.n + BitVec.ofInt 128 v, c.tag.join t, Nat.min (c.count + n) 65535⟩, if 2 ^ 15 < c.count + n then marksCount else (0, 0))

/-- R146: the pattern of a cell in the scratchpad, and the cell that a pattern gives. -/
def Cell.pattern (c : Cell) : BitVec 128 :=
  match c.tag with
  | .fin => c.n
  | .nan => BitVec.twoPow 128 127
  | .pinf => BitVec.allOnes 128 >>> 1
  | .ninf => BitVec.twoPow 128 127 + 1

/-- R199: a cell started from a number of grid units or a tag. -/
def Cell.start (v : Int) (t : CTag) : Cell × Marks :=
  let count := if t = .fin ∧ v ≠ 0 then v.natAbs / 2 ^ 112 + 1 else 0
  (⟨BitVec.ofInt 128 v, t, count⟩, if 2 ^ 15 < count then marksCount else (0, 0))

def cellOfPattern (x : Nat) : Cell × Marks :=
  if x = 2 ^ 127 then (⟨0, .nan, 0⟩, marksTag .nan)
  else if x = 2 ^ 127 - 1 then (⟨0, .pinf, 0⟩, marksTag .pinf)
  else if x = 2 ^ 127 + 1 then (⟨0, .ninf, 0⟩, marksTag .ninf)
  else Cell.start (BitVec.ofNat 128 x).toInt .fin

def cellOfFloat (f : Fmt) (a : Int) (x : Nat) : Cell × Marks :=
  let (v, t, m) := gridOf a (f.decode x)
  let (c, m2) := Cell.start v t
  (c, Marks.or m m2)

/-- R149: a cell as a float. -/
def Cell.toFloat (c : Cell) (f : Fmt) (a : Int) (mode : RMode) (nsat : Bool) (u : Nat) : Nat × Flags :=
  match c.tag with
  | .nan => (f.nan, 0)
  | .pinf => cvtFF fmtF32 f mode nsat u (fmtF32.inf false)
  | .ninf => cvtFF fmtF32 f mode nsat u (fmtF32.inf true)
  | .fin => if c.n = 0 then (0, 0) else round f mode nsat (decide (c.n.toInt < 0)) c.n.toInt.natAbs 1 (a - 96) u

/-! ## Operands (R183 to R187) -/

/-- R183: terms per step and bytes of a row slice of A and of B. -/
structure Pair where
  t  : Nat
  ab : Nat
  bb : Nat
  deriving DecidableEq, Repr

def matPair (a b : Nat) : Option Pair :=
  let fp8 (x : Nat) : Bool := x == 2 || x == 3
  if fp8 a && fp8 b then some ⟨48, 48, 48⟩
  else if a == 1 && b == 1 then some ⟨24, 48, 48⟩
  else if fp8 a && b == 4 then some ⟨96, 96, 48⟩
  else if fp8 a && b == 5 then some ⟨96, 96, 36⟩
  else if a == 1 && b == 4 then some ⟨96, 192, 48⟩
  else if a == 1 && b == 5 then some ⟨96, 192, 36⟩
  else none

def isGroup (f : Nat) : Bool := f == 4 || f == 5

def dSpread (d : DWord) : Nat := bits d 59 3
def dRot (d : DWord) : Nat := bits d 56 3
def dRows (d : DWord) : Nat := if bits d 48 8 = 0 then 128 else bits d 48 8
def dRpitch (d : DWord) : Nat := bits d 28 20
def dBase (d : DWord) : Nat := bits d 0 28
def dSbase (e : DWord) : Nat := bits e 28 28
def dKpitch (e : DWord) : Nat := bits e 0 28

/-- R184: a descriptor; `group` says that it describes a group-scaled operand. -/
def descOk (d e : DWord) (group : Bool) : Bool :=
  decide (bits d 62 2 = 0 ∧ dSpread d ≤ 4 ∧ dRows d ≤ 128 ∧ dRpitch d % 4 = 0 ∧ dBase d % 4 = 0 ∧ bits e 56 8 = 0 ∧ dKpitch e % 4 = 0
    ∧ (if group then dSbase e % 64 = 0 else dSbase e = 0))

def bankBytes : Nat := 0xC0000

/-- R185. -/
def rowaddr (d e : DWord) (i k b : Nat) : Except Issue Nat :=
  let nv := 2 ^ dSpread d
  let r := i / nv
  let x := dBase d + r * dRpitch d + k * dKpitch e + b
  let vault := x / 0x800000 + i % nv
  let off := x % 0x800000
  if spEnd ≤ x ∨ 31 < vault ∨ 0x600000 ≤ off then .error (.cause .scratchpadAddress)
  else
    let bank := (off / bankBytes + dRot d * (r % 8)) % 8
    .ok (vault * 0x800000 + bank * bankBytes + off % bankBytes)

/-- One byte of an operand stream (R120, R185). -/
def State.streamByte (s : State) (d e : DWord) (i k b : Nat) : Except Issue Byte := do
  let a ← rowaddr d e i k b
  check (s.k.priv || s.discipline (vaultOf a) .read) .vaultDiscipline
  .ok (Memory.read s.sp a)

/-- The bytes of a row slice. -/
def State.slice (s : State) (d e : DWord) (n i k : Nat) : Except Issue (List Byte) :=
  (List.range n).mapM fun b => s.streamByte d e i k b

/-- The scale pair of a row, step and group (R185). -/
def State.scalePair (s : State) (e : DWord) (j k g : Nat) : Except Issue (Nat × Nat) := do
  let a := dSbase e + 768 * k + 6 * j + 2 * g
  check (spData a && spData (a + 1)) .scratchpadAddress
  check (s.k.priv || s.discipline (vaultOf a) .read) .vaultDiscipline
  .ok ((Memory.read s.sp a).toNat, (Memory.read s.sp (a + 1)).toNat)

/-- R144, R186: the elements of a slice. -/
def floatElems (f : Fmt) : List Byte → List FVal
  | [] => []
  | b :: bs =>
    if f.bytes = 1 then f.decode b.toNat :: floatElems f bs
    else match bs with
      | [] => []
      | c :: cs => f.decode (b.toNat + 256 * c.toNat) :: floatElems f cs

/-- Element `n` of w bits under a scale byte (R144). -/
def groupElem (w s n : Nat) : FVal :=
  if s = 255 then .nan
  else
    let v := Int.bmod n (2 ^ w)
    if v = 0 then .zero false else .fin (decide (v < 0)) v.natAbs ((s : Int) - 127)

/-- One group: its element bytes and its scale. -/
def groupElems (w s : Nat) (bs : List Byte) : List FVal := (splitN 32 (2 ^ w) (leNat bs)).map (groupElem w s)

def matFmt (f : Nat) : Fmt := match f with | 1 => fmtBf | 2 => fmtE4 | _ => fmtE5

/-- The bytes of a group. -/
def groupBytes (f : Nat) : Nat := if f = 4 then 16 else 12
def groupWidth (f : Nat) : Nat := if f = 4 then 4 else 3

/-- What stops an executing operation: a fault of R203, or a pair of scales that differ. -/
inductive MatStop where
  | issue (i : Issue) | dup
  deriving DecidableEq, Repr

def liftMat {α : Type} (x : Except Issue α) : Except MatStop α := match x with | .ok a => .ok a | .error i => .error (.issue i)

/-- The scales of a row in a step: three groups, their duplicates checked (R145). -/
def State.rowScales (s : State) (e : DWord) (j k : Nat) : Except MatStop (List Nat) :=
  [0, 1, 2].mapM fun g => do
    let (p, d) ← liftMat (s.scalePair e j k g)
    if p = d then .ok p else .error .dup

/-- The elements of a row of B (R186). -/
def State.bRow (s : State) (f : Nat) (p : Pair) (d e : DWord) (j k : Nat) : Except MatStop (List FVal) :=
  if isGroup f then do
    let sc ← s.rowScales e j k
    let bs ← liftMat (s.slice d e p.bb j k)
    let n := groupBytes f
    .ok ((sc.zipIdx).flatMap fun (x, g) => groupElems (groupWidth f) x ((bs.drop (n * g)).take n))
  else do
    let bs ← liftMat (s.slice d e p.bb j k)
    .ok (floatElems (matFmt f) bs)

def State.aRow (s : State) (f : Nat) (p : Pair) (d e : DWord) (i k : Nat) : Except MatStop (List FVal) := do
  let bs ← liftMat (s.slice d e p.ab i k)
  .ok (floatElems (matFmt f) bs)

/-- The rows that are present; the others contribute exact zeros (R196). -/
def State.aRows (s : State) (f : Nat) (p : Pair) (a : List DWord) (av : List VReg) (k : Nat) : Except MatStop (List (Option (List FVal))) :=
  match a with
  | [d, e] => (List.range 128).mapM fun i => if i < dRows d then (s.aRow f p d e i k).map some else .ok none
  | _ =>
    let bs := vregBytes ((av[k]?).getD 0)
    .ok ((List.range 128).map fun i => some (floatElems (matFmt f) ((bs.drop (48 * i)).take 48)))

def State.bRows (s : State) (f : Nat) (p : Pair) (b : List DWord) (k : Nat) : Except MatStop (List (Option (List FVal))) :=
  match b with
  | [d, e] => (List.range 128).mapM fun j => if j < dRows d then (s.bRow f p d e j k).map some else .ok none
  | _ => .ok (List.replicate 128 none)

/-- R196: one K step of one cell. -/
def stepCell (a : Int) (t : Nat) (x y : Option (List FVal)) (c : Cell) : Cell × Marks :=
  match x, y with
  | some xs, some ys =>
    let (v, tag, m) := dotProduct a xs ys
    let (c, m2) := c.add t v tag
    (c, Marks.or m m2)
  | _, _ => c.add t 0 .fin

/-- R196: one K step of a tile. -/
def stepTile (t : Nat) (tile : Tile) (as_ bs : List (Option (List FVal))) : Tile × Marks :=
  let rs := (as_.flatMap fun x => bs.map fun y => (x, y)).zipWith (fun xy c => stepCell tile.anchor.toInt t xy.1 xy.2 c) tile.dense
  ({ tile with cells := sparse (rs.map (·.1)) }, rs.foldl (fun m r => Marks.or m r.2) (0, 0))

/-! ## Queued operations (R191 to R193) -/

def Mat.setWork (m : Mat) (n : Nat) (t : Tile) : Mat := { m with work := m.work.set n t }
def Mat.tile (m : Mat) (n : Nat) : Tile := (m.work[n]?).getD .zero
def State.progress (s : State) : Nat := match s.rgn with | some r => r.prog | none => 0

/-- R189: the effective anchor. -/
def State.effAnchor (s : State) (fmt : BitVec 48) : BitVec 10 := if fmtAuto fmt then s.mat.aanch else fmtAnchor fmt

/-- A queue whose head has been taken; MWAIT leaves it as soon as it comes to the head (R201). -/
def popQueue : List MatEntry → List MatEntry
  | [] => []
  | _ :: l => l.dropWhile fun e => e.op == .wait

/-- R196: every scale pair of a step is fetched before any of its elements. -/
def State.stepScales (s : State) (f : Nat) (b : List DWord) (k : Nat) : Except MatStop Unit :=
  match b with
  | [d, e] => if isGroup f then (List.range (dRows d)).forM fun j => do let _ ← s.rowScales e j k; .ok () else .ok ()
  | _ => .ok ()

/-- One K step (R196): the rows of A and of B. -/
def State.stepRows (s : State) (fmt : BitVec 48) (p : Pair) (a : List DWord) (av : List VReg) (b : List DWord) (k : Nat) :
    Except MatStop (List (Option (List FVal)) × List (Option (List FVal))) := do
  s.stepScales (fmtB fmt) b k
  let as_ ← s.aRows (fmtA fmt) p a av k
  let bs ← s.bRows (fmtB fmt) p b k
  .ok (as_, bs)

/-- Steps `k` to `k + n - 1` of an MMAC (R196), and the marks of the steps that were done: they stay if a later step stops (R193). -/
def State.macSteps (s : State) (fmt : BitVec 48) (p : Pair) (a : List DWord) (av : List VReg) (b : List DWord) :
    Nat → Nat → Tile → Marks → Except MatStop Tile × Marks
  | 0, _, t, m => (.ok t, m)
  | n + 1, k, t, m =>
    match s.stepRows fmt p a av b k with
    | .error x => (.error x, m)
    | .ok (as_, bs) =>
      let (t, m2) := stepTile p.t t as_ bs
      State.macSteps s fmt p a av b n (k + 1) t (Marks.or m m2)

/-- What an execution leaves: its marks, then the state's changes. -/
def marksEffects (m : Marks) : List Effect := [.status m.1, .sticky m.2]

/-- A stop: a mismatch of scales sets DUPSCALE and SDUP, and both stay set (R145, R193). -/
def State.matStop (s : State) (e : MatEntry) : MatStop → Host.Outcome State Fault Refusal
  | .issue i => (s.asOf e.slot e.seq).settle i
  | .dup => ((applyAll s (marksEffects (flagDupScale, stDup))).asOf e.slot e.seq).settle (.trap { cause := .duplicateScale, uclass := 2 })

/-- R196: the first K step: the progress index of a resumable operation, or 0. -/
def State.firstStep (s : State) (e : MatEntry) : Nat := match e.op with | .mac _ _ _ _ _ _ true => s.progress | _ => 0

/-- The version that an MMAC or MMUL begins with: MMUL starts one, unless it resumes (R189, R196). -/
def State.macTile (s : State) (e : MatEntry) (mul : Bool) (n : Nat) : Tile :=
  if mul && s.firstStep e == 0 then ⟨s.effAnchor e.fmt, []⟩ else s.mat.tile n

/-- Work, for steps from the first on, `n` of them. -/
def State.macRun (s : State) (e : MatEntry) (mul : Bool) (tile : Nat) (a : List DWord) (av : List VReg) (b : List DWord) (n : Nat) :
    Except MatStop Mat × Marks :=
  match matPair (fmtA e.fmt) (fmtB e.fmt) with
  | none => (.ok s.mat, (0, 0))
  | some p =>
    let (r, m) := s.macSteps e.fmt p a av b n (s.firstStep e) (s.macTile e mul tile) (0, 0)
    (r.map fun t => s.mat.setWork tile t, m)

/-- R196, R201: a run that stops has set its marks. -/
def State.macStop (s : State) (e : MatEntry) (st : MatStop) (m : Marks) : Host.Outcome State Fault Refusal :=
  (applyAll s (marksEffects m)).matStop e st

/-- R132, R406: the committed chunk: versions swapped, the progress index and CSN advanced, and what the region has sent counted. -/
def State.chunked (s : State) (n : Nat) : State :=
  let w := s.err.window s.k.jobtag
  { s with
    mat := { s.mat with comm := s.mat.work }
    err := s.err.setWindow ({ w with csn := w.csn + 1 }.pushes (s.rgn.elim 0 (·.pushed)))
    rgn := s.rgn.map fun r => { r with prog := r.prog + n, pushed := 0 } }

/-- A resumable MMAC or MMUL leaves the queue; an MMUL of no K step has zeroed its version (R196). -/
def State.macEnd (s : State) (e : MatEntry) (mul : Bool) (tile k : Nat) : State :=
  let m := if mul && k == 0 then s.mat.setWork tile (s.macTile e mul tile) else s.mat
  { s with mat := { m with queue := popQueue s.mat.queue } }

/-- `n` K steps of a resumable MMAC, each committed (R132, R196); the operation leaves the queue after its last. -/
def State.macChunks (s : State) (e : MatEntry) (mul : Bool) (tile : Nat) (a : List DWord) (av : List VReg) (b : List DWord) (k : Nat) :
    Nat → Host.Outcome State Fault Refusal
  | 0 => .next (if k ≤ s.progress then s.macEnd e mul tile k else s)
  | n + 1 =>
    if k ≤ s.progress then .next (s.macEnd e mul tile k)
    else
      match s.macRun e mul tile a av b 1 with
      | (.error st, ms) => s.macStop e st ms
      | (.ok m, ms) => State.macChunks ((applyAll s (.setMat m :: marksEffects ms)).chunked 1) e mul tile a av b k n

/-- R196: the MMAC or MMUL at the head of the queue. -/
def execMmacExecute (s : State) : Host.Outcome State Fault Refusal :=
  match s.mat.queue.head? with
  | some e =>
    match e.op with
    | .mac mul tile a av b k res =>
      if res then s.macChunks e mul tile a av b k.toNat (k.toNat - s.progress)
      else
        match s.macRun e mul tile a av b k.toNat with
        | (.error st, ms) => s.macStop e st ms
        | (.ok m, ms) => .next (applyAll s (.setMat { m with queue := popQueue m.queue } :: marksEffects ms))
    | _ => .next s
  | none => .next s

/-- R158: the greatest exponent of a row's elements, and of its groups. -/
def expOf : FVal → Option Int
  | .fin _ n e => some (Nat.log2 n + e)
  | _ => none

def maxOpt (l : List (Option Int)) : Option Int :=
  l.foldl (fun acc x => match acc, x with | none, x => x | some a, none => some a | some a, some b => some (max a b)) none

def State.bScaleExps (s : State) (f : Nat) (e : DWord) (j k : Nat) : Except MatStop (List (Option Int)) := do
  let sc ← s.rowScales e j k
  .ok (sc.map fun (x : Nat) => if x = 255 then none else some ((x : Int) - 127 + (if f = 4 then 3 else 2)))

/-- R158, R202: AUTOANCH over the rows present and the steps 0 to K − 1; the order of its fetches is the model's (log 114). -/
def State.autoAnch (s : State) (fmt : BitVec 48) (p : Pair) (a b : List DWord) (k : Nat) : Except MatStop (Option (Int × Int)) := do
  let ea ← (List.range k).mapM fun k => do
    let rows ← s.aRows (fmtA fmt) p a [] k
    .ok (maxOpt (rows.flatMap fun r => (r.getD []).map expOf))
  let eb ← (List.range k).mapM fun k =>
    match b with
    | [d, e] =>
      if isGroup (fmtB fmt) then do
        let l ← (List.range (dRows d)).mapM fun j => do
          let _ ← liftMat (s.slice d e p.bb j k)
          s.bScaleExps (fmtB fmt) e j k
        .ok (maxOpt l.flatten)
      else do
        let rows ← s.bRows (fmtB fmt) p b k
        .ok (maxOpt (rows.flatMap fun r => (r.getD []).map expOf))
    | _ => .ok none
  match maxOpt ea, maxOpt eb with
  | some x, some y => .ok (some (x, y))
  | _, _ => .ok none

/-- R190, R202: MANCH at the head of the queue. -/
def execManchExecute (s : State) : Host.Outcome State Fault Refusal :=
  match s.mat.queue.head? with
  | some e =>
    match e.op with
    | .anchor k a b =>
      match matPair (fmtA e.fmt) (fmtB e.fmt) with
      | none => .next { s with mat := { s.mat with queue := popQueue s.mat.queue } }
      | some p =>
        match s.autoAnch e.fmt p a b k.toNat with
        | .error st => s.matStop e st
        | .ok none => .next (applyAll s [.setMat { s.mat with aanch := 0, queue := popQueue s.mat.queue }])
        | .ok (some (x, y)) =>
          let v := x + y - 14
          let lim := min 511 (max (-512) v)
          .next (applyAll s [.setMat { s.mat with aanch := BitVec.ofInt 10 lim, queue := popQueue s.mat.queue },
            .sticky (if v = lim then 0 else stClamp)])
    | _ => .next s
  | none => .next s

/-- R199: MZERO. -/
def execMzeroExecute (s : State) : Host.Outcome State Fault Refusal :=
  match s.mat.queue.head? with
  | some e =>
    match e.op with
    | .zero tile => .next { s with mat := { s.mat.setWork tile ⟨s.effAnchor e.fmt, []⟩ with queue := popQueue s.mat.queue } }
    | _ => .next s
  | none => .next s

def lfmtBytes : LFmt → Nat | .lc => 16 | .f32 => 4 | .bf => 2

/-- R199: the cells that an extent gives. -/
def loadCells (f : LFmt) (a : Int) (x : Nat) : Cell × Marks :=
  match f with
  | .lc => cellOfPattern x
  | .f32 => cellOfFloat fmtF32 a x
  | .bf => cellOfFloat fmtBf a x

/-- R199: MLOADC. -/
def execMloadcExecute (s : State) : Host.Outcome State Fault Refusal :=
  match s.mat.queue.head? with
  | some e =>
    match e.op with
    | .load tile f addr =>
      let n := lfmtBytes f
      let anchor := s.effAnchor e.fmt
      let xs := splitN 16384 (2 ^ (8 * n)) (leNat (Memory.bytes s.sp addr (16384 * n)))
      let rs := xs.map (loadCells f anchor.toInt)
      let m := { s.mat.setWork tile ⟨anchor, sparse (rs.map (·.1))⟩ with queue := popQueue s.mat.queue }
      .next (applyAll s (.setMat m :: marksEffects (rs.foldl (fun m r => Marks.or m r.2) (0, 0))))
    | _ => .next s
  | none => .next s

/-- R200: the bytes of an element in a drain format. -/
def drainBytes (f : Nat) : Nat := match f with | 10 => 16 | 0 => 4 | 1 => 2 | _ => 1
def drainFmt (f : Nat) : Fmt := match f with | 0 => fmtF32 | 1 => fmtBf | 2 => fmtE4 | _ => fmtE5

def drainCell (e : MatEntry) (anchor : Int) (key ctr : DWord) (c : Cell) (lane : Nat) : Nat × Flags :=
  if fmtD e.fmt = 10 then (c.pattern.toNat, 0)
  else c.toFloat (drainFmt (fmtD e.fmt)) anchor (fmtMode e.fmt) (fmtNsat e.fmt) (bits (mix key ctr (fmtStream e.fmt) lane) 0 16)

/-- R200: an earlier vector store or scatter holds a drain back. -/
def State.drainWaits (s : State) (e : MatEntry) : Bool :=
  (s.pipe.inflight.any fun f => (match f.what with | .store .. => true | _ => false) && decide (f.seq < e.seq))
    || (s.pipe.waits.any fun w => w.outstanding && decide (w.seq < e.seq) && (match w.op with | .scatter .. => true | _ => false))

/-- R200: MDRAIN. -/
def execMdrainExecute (s : State) : Host.Outcome State Fault Refusal :=
  match s.mat.queue.head? with
  | some e =>
    match e.op with
    | .drain tile addr key ctr =>
      if s.drainWaits e then .next s
      else
        let t := s.mat.tile tile
        let n := drainBytes (fmtD e.fmt)
        let rs := t.dense.zipIdx.map fun (c, i) => drainCell e t.anchor.toInt key ctr c i
        .next (applyAll s [.sp addr (rs.flatMap fun r => toBytes n r.1), .status (rs.foldl (fun f r => f ||| r.2) 0),
          .setMat { s.mat with queue := popQueue s.mat.queue }])
    | _ => .next s
  | none => .next s

/-! ## Issue (R197 to R203) -/

def overlaps (a n b m : Nat) : Bool := decide (a < b + m ∧ b < a + n)

/-- R360: the bitmaps of the GMASKs of earlier bundles whose predicate has not landed. -/
def State.pendingBitmaps (s : State) : List (Nat × Nat) :=
  s.eng.gram.filterMap fun g => match g.op with | .mask _ a n => if g.seq < s.seq.count then some (a, n) else none | _ => none

/-- R360: one of them meets an extent. -/
def State.bitmapPending (s : State) (a n : Nat) : Bool := s.pendingBitmaps.any fun d => overlaps a n d.1 d.2

/-- R102: the tile of a selector. -/
def State.tileSel (s : State) : TileSel → Except Issue Nat
  | .tile n => .ok n
  | .ring =>
    let r := s.k.mring
    let lvl := bits r 6 3
    if lvl ≤ 5 then .ok ((bits r 0 3 + ((s.level lvl).map fun l => l.index.toNat).getD 0 % (bits r 3 3 + 1)) % 8)
    else .error (.cause .ring)

/-- R191: an operation enters the queue, if it has room. -/
def State.enqueue (s : State) (op : MatOp) (es : List Effect) : Except Issue (List Effect) := do
  await (decide (s.mat.queue.length < 8)) 0x0A
  .ok (es ++ [.setMat { s.mat with queue := s.mat.queue ++ [⟨s.nextId, s.seq.count, s.seq.bun.slot, s.regs.fmt, op⟩] }, .ids 1])

/-- A register pair. -/
def State.pairAt (s : State) (n : Nat) : List DWord := [s.srcS (.reg n), s.srcS (.reg (n + 1))]

def State.pairOk (l : List DWord) (group : Bool) : Bool := match l with | [d, e] => descOk d e group | _ => true

/-- The registers of an A-from-vector operand (R187). -/
def vecGroup (p k : Nat) : List Nat := (List.range k).map fun i => 2 * p + i

/-- R187, R197, R203: MMAC and MMUL; of several checks that fail the first in this order is reported (log 115). -/
def State.mmacIssue (s : State) (mul : Bool) (c : TileSel) (a : AOperand) (b : Nat) (k : SSrc) (res : Bool) : Issue := issueOf (do
  s.needOpen
  let n := (s.srcS k).setWidth 32
  let bp := s.pairAt (2 * b)
  let group := isGroup (fmtB s.regs.fmt)
  check (!(fmtB s.regs.fmt == 5) || s.k.feat0.getLsbD 4 && s.k.featack.getLsbD 4) .illegalEncoding
  let p ← match matPair (fmtA s.regs.fmt) (fmtB s.regs.fmt) with | some p => .ok p | none => .error (.cause .operandFormat)
  let tile ← s.tileSel c
  check (decide (n.toNat ≤ 65535) && State.pairOk bp group) .matrixDescriptor
  let rs : List Effect := if res then [.resumes] else []
  match a with
  | .pair q =>
    let ap := s.pairAt (2 * q)
    check (State.pairOk ap false) .matrixDescriptor
    s.enqueue (.mac mul tile ap [] bp n res) rs
  | .vec q =>
    check (decide (p.t ≤ 48)) .operandFormat
    check (decide (n.toNat ≤ 8 ∧ 2 * q + n.toNat ≤ 80)) .matrixDescriptor
    let g := vecGroup q n.toNat
    await (!g.any s.pendV) 0x01
    await (!s.mat.queue.any fun e => match e.op with | .mac _ _ [] _ _ _ _ => true | _ => false) 0x05
    s.enqueue (.mac mul tile [] (g.map fun i => s.srcV (.reg i)) bp n res) (rs ++ [.reads (g.map TUnit.v)]))

/-- R199, R200: an extent of a tile in the scratchpad. -/
def State.tileExtent (s : State) (x : SSrc) (n : Nat) (u : VUse) : Except Issue Nat := do
  let a := bits (s.srcS x) 0 28
  check (a % 64 = 0) .scratchpadAddress
  s.spCheck a (16384 * n) u
  .ok a

def State.mzeroIssue (s : State) (c : TileSel) : Issue := issueOf (do
  s.needOpen
  let t ← s.tileSel c
  s.enqueue (.zero t) [])

def State.mloadcIssue (s : State) (c : TileSel) (f : LFmt) (x : SSrc) : Issue := issueOf (do
  s.needOpen
  let t ← s.tileSel c
  let a ← s.tileExtent x (lfmtBytes f) .read
  s.enqueue (.load t f a) [])

def State.mdrainIssue (s : State) (c : TileSel) (x : SSrc) : Issue := issueOf (do
  s.needOpen
  let d := fmtD s.regs.fmt
  check (d ≤ 3 || d == 10) .operandFormat
  let t ← s.tileSel c
  let a ← s.tileExtent x (drainBytes d) .write
  await (!s.bitmapPending a (16384 * drainBytes d)) 0x04
  s.enqueue (.drain t a s.k.rngKey s.drawCtr) (if s.fpMode = .sr then drawEffects else []))

def State.mwaitIssue (s : State) : Issue := issueOf (do
  s.needOpen
  if s.mat.queue.isEmpty then .ok [] else s.enqueue .wait [])

def State.manchIssue (s : State) (k : SSrc) (a b : Nat) : Issue := issueOf (do
  s.needOpen
  let n := (s.srcS k).setWidth 32
  check (!(fmtB s.regs.fmt == 5) || s.k.feat0.getLsbD 4 && s.k.featack.getLsbD 4) .illegalEncoding
  check (matPair (fmtA s.regs.fmt) (fmtB s.regs.fmt)).isSome .operandFormat
  check (decide (n.toNat ≤ 65535) && State.pairOk (s.pairAt a) false && State.pairOk (s.pairAt b) (isGroup (fmtB s.regs.fmt))) .matrixDescriptor
  s.enqueue (.anchor n (s.pairAt a) (s.pairAt b)) [])

/-- The tile that a queued operation names. -/
def MatOp.tile : MatOp → Option Nat
  | .mac _ t .. | .zero t | .load t .. | .drain t .. => some t
  | _ => none

/-- R201: the value of MSTAT. -/
def State.mstatValue (s : State) (c : Nat) : DWord :=
  let busy := (List.range 8).foldl (fun n i => if s.mat.queue.any (fun e => e.op.tile == some i) then n + 2 ^ i else n) 0
  BitVec.ofNat 64 ((s.mat.tile c).anchor.toNat * 2 ^ 54 + s.mat.aanch.toNat * 2 ^ 44 + s.mat.queue.length % 16 * 2 ^ 40 + busy * 2 ^ 32
    + s.mat.sticky.toNat)

def State.mstatIssue (s : State) (d : SDst) (clr : Bool) (c : Nat) : Issue := issueOf (do
  s.needOpen
  .ok (.land 2 0 (.scalar d (s.mstatValue c)) :: (if clr then [.land 2 0 (.sticky s.mat.sticky)] else [])))

def execMmac (c : TileSel) (a : AOperand) (b : Nat) (k : SSrc) (res : Bool) (s : State) : Host.Outcome State Fault Refusal :=
  s.settle (s.mmacIssue false c a b k res)
def execMmul (c : TileSel) (a : AOperand) (b : Nat) (k : SSrc) (res : Bool) (s : State) : Host.Outcome State Fault Refusal :=
  s.settle (s.mmacIssue true c a b k res)
def execMzero (c : TileSel) (s : State) : Host.Outcome State Fault Refusal := s.settle (s.mzeroIssue c)
def execMloadc (c : TileSel) (f : LFmt) (x : SSrc) (s : State) : Host.Outcome State Fault Refusal := s.settle (s.mloadcIssue c f x)
def execMdrain (c : TileSel) (x : SSrc) (s : State) : Host.Outcome State Fault Refusal := s.settle (s.mdrainIssue c x)
def execMwait (s : State) : Host.Outcome State Fault Refusal := s.settle s.mwaitIssue
def execMstat (d : SDst) (clr : Bool) (c : Nat) (s : State) : Host.Outcome State Fault Refusal := s.settle (s.mstatIssue d clr c)
def execManch (k : SSrc) (a b : Nat) (s : State) : Host.Outcome State Fault Refusal := s.settle (s.manchIssue k a b)

/-! ## The transposer (R204, R205) -/

/-- R204: group `g` of the transpose of a block. -/
def tpEmit (t : TBlock) (g : Nat) : VReg :=
  ofLanes 4 ((List.range 16).flatMap fun r => (List.range 128).map fun c => bits t (32 * (128 * c + (16 * g + r))) 32)

def State.txpIssue (s : State) (es : List Effect) : Issue := issueOf (do s.needRegion; .ok es)

def execTxpi (v : VSrc) (b : Bool) (g : Nat) (s : State) : Host.Outcome State Fault Refusal :=
  s.settle (s.txpIssue [.land 12 0 (.tpGroup b g (s.srcV v))])
def execTxpo (v : VDst) (b : Bool) (g : Nat) (s : State) : Host.Outcome State Fault Refusal :=
  s.settle (s.txpIssue [.land 12 0 (.vector v (tpEmit (s.regs.tp b) g) (BitVec.allOnes 65536))])
def execTxpc (b : Bool) (s : State) : Host.Outcome State Fault Refusal := s.settle (s.txpIssue [.land 12 0 (.tpClear b)])

end Sys2Proof.Machine
end

