-- ==== Sys2Proof/Machine/VecX.lean ====
section
/-! DEFINITION. Vector memory: whole registers, gathers, scatters and strided loads (06_vector R178 to R182; 08_scratchpad R207). -/

namespace Sys2Proof.Machine

/-! ## Overlaps that hold a store back (R181, R200, R360) -/

/-- R200: the destination extents of MDRAINs that bundles before this one have issued. -/
def State.pendingDrains (s : State) : List (Nat × Nat) :=
  s.mat.queue.filterMap fun e => match e.op with
    | .drain _ a _ _ => if e.seq < s.seq.count then some (a, 16384 * drainBytes (fmtD e.fmt)) else none
    | _ => none

/-- R181: an earlier scatter is incomplete. -/
def State.scatterPending (s : State) : Bool :=
  s.pipe.waits.any fun w => w.outstanding && decide (w.seq < s.seq.count) && (match w.op with | .scatter .. => true | _ => false)

/-- What a store of the program to these extents waits for. -/
def State.storeWaits (s : State) (xs : List (Nat × Nat)) : Except Issue Unit := do
  await (!s.scatterPending) 0x04
  await (!(s.pendingDrains.any fun d => xs.any fun x => overlaps x.1 x.2 d.1 d.2)) 0x05
  await (!xs.any fun x => s.bitmapPending x.1 x.2) 0x04

/-! ## Banks (R206, R209, R210) -/

/-- The banks that an extent meets. -/
def bankOf (a : Nat) : Nat := a / 0x800000 * 8 + a % 0x800000 / bankBytes
def banksOf (xs : List (Nat × Nat)) : List Nat := (xs.flatMap fun x => [bankOf x.1, bankOf (x.1 + x.2 - 1)]).dedup

/-- An access of an earlier bundle is still using one of these banks. -/
def State.banksMet (s : State) (l : List Nat) : Bool :=
  s.pipe.banks.any fun b => decide (b.seq < s.seq.count ∧ s.clock < b.upto) && b.banks.any fun x => l.contains x

/-- R210: an access that meets an earlier one in its bank may have to wait; how long arbitration holds it is open (log 82). -/
def State.bankWait (s : State) (l : List Nat) : Except Issue Unit := await (!(s.banksMet l && Config.bankRefuses s.clock)) 0x04

/-! ## Whole registers (R178, R179) -/

/-- R178: the effective address and its checks, in the order scratchpad-address, near-vault, vault-discipline (log 110). -/
def State.vmemAddr (s : State) (x : SSrc) (off : Int) (near : Bool) (u : VUse) : Except Issue Nat := do
  let a : Int := (bits (s.srcS x) 0 28 : Int) + 64 * off
  check (decide (0 ≤ a ∧ a < 2 ^ 28 ∧ a % 64 = 0) && spExtent a.toNat 8192) .scratchpadAddress
  check (!near || decide (vaultOf a.toNat < 16)) .nearVault
  s.spCheck a.toNat 8192 u
  .ok a.toNat

def State.vldIssue (s : State) (lat : Nat) (near : Bool) (v : VDst) (x : SSrc) (off : Int) : Issue := issueOf (do
  s.needRegion
  let a ← s.vmemAddr x off near .read
  s.bankWait (banksOf [(a, 8192)])
  .ok [.land lat 0 (.vector v (vregOf (Memory.bytes s.sp a 8192)) (BitVec.allOnes 65536)), .banks (banksOf [(a, 8192)]) lat])

def State.vstIssue (s : State) (lat : Nat) (near : Bool) (v : VSrc) (x : SSrc) (off : Int) : Issue := issueOf (do
  s.needRegion
  let a ← s.vmemAddr x off near .write
  s.storeWaits [(a, 8192)]
  s.bankWait (banksOf [(a, 8192)])
  .ok [.land lat 0 (.store a (s.srcV v)), .banks (banksOf [(a, 8192)]) lat])

/-! ## Elements (R180 to R182) -/

def ewBytes : EW → Nat | .w4 => 4 | .w2 => 2 | .w1 => 1

/-- R180: an element that is reached: in the scratchpad, where an address below 0 lies outside (log 111), and in a vault that the region allows, for
whoever runs when the element is reached (log 112). -/
def State.element (s : State) (a : Int) (w : Nat) (u : VUse) : Except Cause Nat :=
  if a < 0 ∨ !spExtent a.toNat w then .error .scratchpadAddress
  else if s.k.priv || s.discipline (vaultOf a.toNat) u then .ok a.toNat else .error .vaultDiscipline

/-- The base and what an index or stride must divide by (R180). -/
def State.vgsBase (s : State) (x : SSrc) (w : EW) : Except Issue Nat := do
  let b := bits (s.srcS x) 0 28
  check (b % ewBytes w == 0) .scratchpadAddress
  .ok b

/-- The extents that the active lanes of a gather or scatter name. -/
def scatterExtents (b w : Nat) (act : List Bool) (idx : List Nat) : List (Nat × Nat) :=
  (act.zip idx).filterMap fun (a, y) => if a then some (b + w * y, w) else none

/-- The same of a strided load. -/
def stridedExtents (b w : Nat) (step : DWord) (m : Mask) : List (Nat × Nat) :=
  ((active m w).zip (List.range (8192 / w))).filterMap fun (a, i) => if a then some (((b : Int) + i * step.toInt).toNat, w) else none

def State.vgathIssue (s : State) (v : VDst) (x : SSrc) (y : VSrc) (res : Bool) (w : EW) : Issue := issueOf (do
  s.needRegion
  let b ← s.vgsBase x w
  let us ← s.varWrite (vDstUnits v)
  let lanes := maskBits s.top 4
  let bs := banksOf (scatterExtents b (ewBytes w) (active s.top 4) (s.lanesOf 4 y))
  s.bankWait bs
  .ok (us ++ [.banks bs 32] ++ (if res then [.resumes] else [])
    ++ [.wait ⟨0, 0, 0, false, false, none, some v, lanes, none, 32, false, .no, .gather b (s.srcV y) s.top w res⟩]))

def State.vldsIssue (s : State) (v : VDst) (x y : SSrc) (w : EW) : Issue := issueOf (do
  s.needRegion
  let b ← s.vgsBase x w
  check (decide ((s.srcS y).toInt % ewBytes w = 0)) .scratchpadAddress
  let us ← s.varWrite (vDstUnits v)
  let bs := banksOf (stridedExtents b (ewBytes w) (s.srcS y) s.top)
  s.bankWait bs
  .ok (us ++ [.banks bs 32,
    .wait ⟨0, 0, 0, false, false, none, some v, maskBits s.top (ewBytes w), none, 32, false, .no, .strided b (s.srcS y) s.top w⟩]))

def State.vscatIssue (s : State) (v : VSrc) (x : SSrc) (y : VSrc) (res : Bool) (w : EW) : Issue := issueOf (do
  s.needRegion
  let b ← s.vgsBase x w
  let xs := scatterExtents b (ewBytes w) (active s.top 4) (s.lanesOf 4 y)
  s.storeWaits xs
  s.bankWait (banksOf xs)
  .ok (.banks (banksOf xs) 32 :: (if res then [.resumes] else [])
    ++ [.wait ⟨0, 0, 0, false, false, none, none, 0, none, 32, true, .no, .scatter b (s.srcV v) (s.srcV y) s.top w res⟩]))

/-- The elements of a gather or strided load; a lane that is not active reads zero and is not reached. -/
def State.gatherLanes (s : State) (w : Nat) : List (Bool × Int) → Except Cause (List Nat)
  | [] => .ok []
  | (false, _) :: l => do .ok (0 :: (← State.gatherLanes s w l))
  | (true, a) :: l => do
    let a ← s.element a w .read
    .ok (Memory.word s.sp a w :: (← State.gatherLanes s w l))

/-- Lanes below `from` have been done by earlier chunks (R182), and those from `to` on are left. -/
def laneWindow (lo hi : Nat) (act : List Bool) : List Bool := act.zipIdx.map fun (a, i) => a && decide (lo ≤ i ∧ i < hi)

/-- The lanes of a gather as (active, address). -/
def gatherAddrs (b w lo hi : Nat) (idx : VReg) (m : Mask) : List (Bool × Int) :=
  (laneWindow lo hi (active m 4)).zip ((lanes 4 idx).map fun y => ((b + w * y : Nat) : Int))

def stridedAddrs (b w : Nat) (step : DWord) (m : Mask) : List (Bool × Int) :=
  (active m w).zip ((List.range (8192 / w)).map fun (i : Nat) => (b : Int) + i * step.toInt)

/-- R181: elements in ascending lane order; what was written before a fault stays. -/
def State.scatterLanes (s : State) (w : Nat) : Memory → List (Bool × Int × Nat) → Memory × Option Cause
  | m, [] => (m, none)
  | m, (false, _) :: l => State.scatterLanes s w m l
  | m, (true, a, x) :: l =>
    match s.element a w .write with
    | .error c => (m, some c)
    | .ok a => State.scatterLanes s w (Memory.writeLE m a w x) l

def scatterWrites (b w lo hi : Nat) (data idx : VReg) (m : Mask) : List (Bool × Int × Nat) :=
  (laneWindow lo hi (active m 4)).zip
    (List.zipWith (fun y x => (((b + w * y : Nat) : Int), x)) (lanes 4 idx) (lanes 4 data))

/-- R181: every vector store issued before a scatter has landed. -/
def State.storesBefore (s : State) (seq : Nat) : Bool :=
  !(s.pipe.inflight.any fun f => (match f.what with | .store .. => true | _ => false) && decide (f.seq < seq))

def execVld (v : VDst) (x : SSrc) (off : Int) (s : State) : Host.Outcome State Fault Refusal := s.settle (s.vldIssue 16 false v x off)
def execVldn (v : VDst) (x : SSrc) (off : Int) (s : State) : Host.Outcome State Fault Refusal := s.settle (s.vldIssue 8 true v x off)
def execVst (v : VSrc) (x : SSrc) (off : Int) (s : State) : Host.Outcome State Fault Refusal := s.settle (s.vstIssue 16 false v x off)
def execVstn (v : VSrc) (x : SSrc) (off : Int) (s : State) : Host.Outcome State Fault Refusal := s.settle (s.vstIssue 8 true v x off)
def execVgath (v : VDst) (x : SSrc) (y : VSrc) (res : Bool) (w : EW) (s : State) : Host.Outcome State Fault Refusal :=
  s.settle (s.vgathIssue v x y res w)
def execVscat (v : VSrc) (x : SSrc) (y : VSrc) (res : Bool) (w : EW) (s : State) : Host.Outcome State Fault Refusal :=
  s.settle (s.vscatIssue v x y res w)
def execVlds (v : VDst) (x y : SSrc) (w : EW) (s : State) : Host.Outcome State Fault Refusal := s.settle (s.vldsIssue v x y w)

/-- The elements of a scatter from `lo` up to `hi` are written; a fault among them is taken in the region that issued it. -/
def State.scatterTo (s : State) (w : Wait) (b : Nat) (data idx : VReg) (m : Mask) (n lo hi : Nat) : Except State State :=
  match s.scatterLanes n s.sp (scatterWrites b n lo hi data idx m) with
  | (sp, none) => .ok { s with sp := sp }
  | (sp, some c) => .error (({ s with sp := sp }.asOf w.slot w.seq).takeTrap { cause := c })

/-- R181: the elements of the scatter numbered `id`, and its completion; a resumable one has written them chunk by chunk (R182). -/
def execScatterComplete (s : State) : Host.Outcome State Fault Refusal :=
  match s.pipe.waits.find? fun w => w.id == s.ev.id && w.outstanding with
  | some w =>
    match w.op with
    | .scatter b data idx m ew res =>
      if !s.storesBefore w.seq || (res && decide (s.progress < 2048)) then .next s
      else
        match s.scatterTo w b data idx m (ewBytes ew) (if res then s.progress else 0) 2048 with
        | .ok s1 => .next (s1.arrive w.id .nothing 0)
        | .error s1 => .next s1
    | _ => .next s
  | none => .next s

end Sys2Proof.Machine
end

