-- ==== Sys2Proof/Machine/Memory.lean ====
section
/-! DEFINITION. Memory instructions (09_memory R232 to R259), the drain of the store buffer and the order of accesses
(10_ordering R268 to R287), and the arrival of variable-latency results. -/

namespace Sys2Proof.Machine

/-! ## Addresses -/

def isSymmetric (va : VAddr) : Bool := !va.getLsbD 47 && va.getLsbD 46

/-- R250: an access of `n` bytes to global memory. -/
def State.access (s : State) (a : DWord) (n : Nat) (acc : Access) (pol : BitVec 32) : Except Issue (VAddr × Xlat) := do
  let va ← formVa a
  checkAt (va.getLsbD 47 || decide (0x10000000 ≤ va.toNat)) .address va
  checkAt (va.toNat % n == 0) .memoryAlignment va
  let x ← s.translate va acc pol
  checkAt (!s.lost (s.homeNode x.loc)) .partnerLost va
  .ok (va, x)

/-- R256, R291, R293: the target that a dimension set names. -/
def State.targetOf (s : State) (set : DWord) : Except Issue (BitVec 14) := do
  check (s.k.setOk set false) .dimension
  .ok (s.k.peer (KRegs.setOf set))

/-- R256, R257: a remote access; at the empty set it performs here, on a page that is held here. What is found there is raised as a fault of
this node, and a page homed elsewhere as a remote translation fault with STATUS 2 (log 117). -/
def State.remote (s : State) (a set : DWord) (n : Nat) (acc : Access) (pol : BitVec 32) : Except Issue (VAddr × Xlat) := do
  let node ← s.targetOf set
  let va ← formVa a
  checkAt (isSymmetric va) .address va
  checkAt (va.toNat % n == 0) .memoryAlignment va
  if node = s.k.nodeId then
    let x ← s.translate va acc pol
    match x.loc with
    | .here _ => .ok (va, x)
    | _ => .error (.trap { cause := .remoteTranslation, eva := va, unit := 2, detail := node.setWidth 16 })
  else
    checkAt (!s.lost node) .partnerLost va
    .ok (va, ⟨.remote node va, physAttr, s.tlb⟩)

/-- R279: an acquire, and a release, whose home lies outside its scope set. -/
def State.acquireOut (s : State) (pol : BitVec 32) (l : Loc) : Bool :=
  polAcquire pol && !s.k.inScope (polScope pol) (s.homeNode l)
def State.releaseOut (s : State) (pol : BitVec 32) (l : Loc) : Bool :=
  polRelease pol && !s.k.inScope (polScope pol) (s.homeNode l)

/-- R68, R279: STATUS bits at the end of this bundle. -/
def endFlags (f : Flags) : List Effect := if f = 0 then [] else [.land 0 f (.sticky 0)]

/-- SYNC as it travels to a home: a release that R279 drops travels as none; `k` holds the registers of the issuing program. -/
def syncTo (k : KRegs) (pol : BitVec 32) (home : BitVec 14) : Nat :=
  (if polAcquire pol then 1 else 0) + (if polRelease pol && k.inScope (polScope pol) home then 2 else 0)

/-- The fields of a request (R326). -/
def State.routeFor (s : State) (k : KRegs) (l : Loc) (pol : BitVec 32) (ty : Nat) (chk : Bool) : RouteInfo :=
  { flow := polClass pol, space := (match l with | .peer .. => 1 | .spad _ => 2 | _ => 0), check := chk, scope := polScope pol,
    sync := syncTo k pol (s.homeNode l), type := ty, addr := BitVec.ofNat 48 (locAddr l) }

/-- The fields of a signal write to another node (R229). -/
def sigFor (k : KRegs) (n : BitVec 14) (a : Nat) (pol : BitVec 32) (chk : Bool) : RouteInfo :=
  { flow := polClass pol, space := 2, check := chk, scope := polScope pol,
    sync := if polRelease pol && k.inScope (polScope pol) n then 2 else 0, type := 3, addr := BitVec.ofNat 48 a }

/-- The same at issue; the supervisor's synchronisation is ignored (R286). -/
def State.routeInfo (s : State) (l : Loc) (pol : BitVec 32) (ty : Nat) (chk : Bool) : RouteInfo :=
  if s.k.priv then { s.routeFor s.k l pol ty chk with sync := 0 } else s.routeFor s.k l pol ty chk

def State.sigInfo (s : State) (n : BitVec 14) (a : Nat) (pol : BitVec 32) (chk : Bool) : RouteInfo :=
  if s.k.priv then { sigFor s.k n a pol chk with sync := 0 } else sigFor s.k n a pol chk

/-! ## Loads (R252, R256) -/

/-- Two accesses to one node, by the addresses that compare: a page homed on a peer and a remote access to that peer meet in the symmetric
window, where an address names one object on every node (R234, log 119). -/
def meeting (l : Loc) (va : VAddr) (l2 : Loc) (va2 : VAddr) : Option (Nat × Nat) :=
  match l, l2 with
  | .here a, .here b => some (a, b)
  | .peer n a, .peer m b => if n = m then some (a, b) else none
  | .remote n a, .remote m b => if n = m then some (a.toNat, b.toNat) else none
  | .peer n _, .remote m b => if n = m then some (va.toNat, b.toNat) else none
  | .remote n a, .peer m _ => if n = m then some (a.toNat, va2.toNat) else none
  | _, _ => none

/-- Byte `i` of a place as a store to it gives it, if it covers it. -/
def storeByte (l : Loc) (va : VAddr) (i : Nat) (e : BufEntry) : Option Byte :=
  match e.op with
  | .store l2 _ va2 w v =>
    match meeting l va l2 va2 with
    | some (a, b) => if b ≤ a + i ∧ a + i < b + w then some (BitVec.ofNat 8 (bits v (8 * (a + i - b)) 8)) else none
    | none => none
  | _ => none

/-- R123: what buffered stores give of a load's bytes, the youngest of each byte. -/
def forwardOf (es : List BufEntry) (l : Loc) (va : VAddr) (n : Nat) : List (Option Byte) :=
  (List.range n).map fun i => es.foldl (fun acc e => match storeByte l va i e with | some b => some b | none => acc) none

def State.forward (s : State) (l : Loc) (va : VAddr) (n : Nat) : List (Option Byte) := forwardOf s.buf l va n

/-- The entry precedes the load in program order. -/
def BufEntry.precedes (e : BufEntry) (w : Wait) : Bool := decide (e.seq < w.seq ∨ (e.seq = w.seq ∧ e.slot < w.slot))

/-- R123, R271: what the older stores that are still in the buffer when a load performs give of its bytes. -/
def State.forwardTo (s : State) (w : Wait) (l : Loc) (va : VAddr) (n : Nat) : List (Option Byte) :=
  forwardOf (s.buf.filter fun e => e.precedes w) l va n

/-- Stores to the place that have committed and have not left the buffer. -/
def State.storePending (s : State) (l : Loc) (va : VAddr) (n : Nat) : Bool :=
  s.buf.any fun e => e.state != .opened && (List.range n).any fun i => (storeByte l va i e).isSome

def overlay (bs : List Byte) (fwd : List (Option Byte)) : List Byte :=
  bs.zipIdx.map fun (b, i) => ((fwd[i]?).getD none).getD b

def State.loadEffects (s : State) (lat : Nat) (d : SDst) (va : VAddr) (x : Xlat) (t : Ty) (pol : BitVec 32) : Except Issue (List Effect) := do
  s.lsRoom
  let us ← s.varWrite (sDstUnits d)
  .ok (us ++ [.setTlb x.tlb, .wait ⟨0, 0, 0, false, false, some d, none, 0, none, lat, false, .no, .load va x.loc x.attr t pol none⟩]
    ++ endFlags (if !s.k.priv && s.acquireOut pol x.loc then flagScopeMiss else 0))

/-- R251: a supervisor load performs at issue. -/
def State.directLoad (s : State) (d : SDst) (va : VAddr) (x : Xlat) (t : Ty) : List Effect :=
  [.setTlb x.tlb, .setL2 (s.touch x.loc x.attr false),
    .wait ⟨0, 0, 0, false, false, some d, none, 0, none, 24, false, .no,
      .direct (loadValue t (leNat (overlay (s.readHome x.loc (tyBytes t)) (s.forward x.loc va (tyBytes t)))))⟩]

/-- Who asks for a supervisor access in this slot. -/
def State.asker (s : State) : ReqFor := .direct s.seq.bun.slot

def State.doneWith (s : State) : Effect := .setFab (s.fab.dropAnswer s.k.jobtag s.asker)

/-- R251: a supervisor access to another node: the request is sent, and the bundle stalls. -/
def State.askPeer (s : State) (kind : Nat) (node : BitVec 14) (r : RouteInfo) : Except Issue (List Effect) :=
  if !s.maySend s.k.jobtag node r.flow then .error (.stall 0x0B)
  else .error (.pause [.setFab (s.fab.request s.clock s.k.nodeId s.asker kind node s.k.jobtag r []).1] 0x0B)

/-- R251: a supervisor access: `first` at its issue; once another node has been asked the bundle waits for the answer and looks at no
translation any more, and a failure that the home reports is a supervisor fault. -/
def State.directly (s : State) (first : Except Issue (List Effect)) (done : Answer → List Effect) : Except Issue (List Effect) :=
  match s.fab.answerTo s.k.jobtag s.asker with
  | some a => if a.status = 0 then .ok (s.doneWith :: done a) else .error (.trap (statusTrap a.status a.node a.va))
  | none => if s.fab.asking s.k.jobtag s.asker then .error (.stall 0x0B) else first

def State.ldIssue (s : State) (d : SDst) (x : SSrc) (off : Int) (p : Nat) (t : Ty) : Issue := issueOf (do
  s.needRegion
  let pol := s.srcY p
  let n := tyBytes t
  let a := s.srcS x + BitVec.ofInt 64 (n * off)
  let va ← formVa a
  if va.toNat < 0x10000000 then
    check (va.toNat % n == 0) .scratchpadAddress
    s.spCheck va.toNat n .read
    let x : Xlat := ⟨.spad va.toNat, physAttr, s.tlb⟩
    let bs := banksOf [(va.toNat, n)]
    s.bankWait bs
    s.lsRoom
    if s.k.priv then .ok (s.directLoad d va x t ++ [.banks bs 24])
    else
      let us ← s.varWrite (sDstUnits d)
      .ok (us ++ [.wait ⟨0, 0, 0, false, false, some d, none, 0, none, 24, false, .no, .window va.toNat t⟩, .banks bs 24])
  else if s.k.priv then
    s.directly
      (do
        let (va, x) ← s.access a n .read pol
        s.lsRoom
        match x.loc with
        | .peer node _ => do
          await (!s.storePending x.loc va n) 0x0B
          s.askPeer 4 node { s.routeInfo x.loc pol (tyCode t) false with va := some va }
        | _ => .ok (s.directLoad d va x t))
      (fun ans => [.wait ⟨0, 0, 0, false, false, some d, none, 0, none, 24, false, .no, .direct (loadValue t ans.value.toNat)⟩])
  else
    let (va, x) ← s.access a n .read pol
    match x.loc with
    | .peer node _ => await (s.flowRoom s.k.jobtag node (polClass pol)) 0x0B
    | _ => .ok ()
    s.loadEffects 24 d va x t pol)

def State.ldxIssue (s : State) (d : SDst) (x y : SSrc) (p : Nat) (t : Ty) : Issue := issueOf (do
  s.needRegion
  let pol := s.srcY p
  let (va, x) ← s.remote (s.srcS x) (s.srcS y) (tyBytes t) .read pol
  match x.loc with
  | .remote node _ => await (s.flowRoom s.k.jobtag node (polClass pol)) 0x0B
  | _ => .ok ()
  s.loadEffects 64 d va x t pol)

/-! ## Buffered operations (R122, R123, R336) -/

def State.bufUsed (s : State) : Nat := s.buf.foldl (fun n e => n + e.cost) 0

/-- R122: the budget, and room in the buffer. -/
def State.bufRoom (s : State) (cost : Nat) : Except Issue Unit := do
  check (match s.rgn with | some r => decide (r.used + cost ≤ r.budget) | none => true) .budget
  await (decide (s.bufUsed + cost ≤ 1024)) 0x09

/-- An entry as its instruction makes it. -/
def newEntry (cost : Nat) (pol : BitVec 32) (out : List Nat) (op : BufOp) : BufEntry := ⟨0, 0, 0, cost, 0, ⟨0, 0, 0⟩, pol, .opened, out, 0, op, false⟩

/-- R336: the check of an entry for another node, sent while the region is open; the entry's number is `id`. -/
def State.checkSent (s : State) (id kind : Nat) (node : BitVec 14) (r : RouteInfo) : Except Issue (Fab × Nat) := do
  await (s.flowRoom s.k.jobtag node r.flow) 0x0B
  .ok (s.fab.request s.clock s.k.nodeId (.bufCheck id) kind node s.k.jobtag r [])

/-- A buffered store or reduction (R252, R255, R256): the check where it goes to another node, and the entry. -/
def State.bufferIssue (s : State) (kind : Nat) (x : Xlat) (pol : BitVec 32) (ty : Nat) (op : BufOp) : Except Issue (List Effect) := do
  s.bufRoom 1
  s.lsRoom
  let fl := endFlags (if !s.k.priv && s.releaseOut pol x.loc then flagScopeMiss else 0)
  match x.loc with
  | .remote node _ => do
    let (f, tag) ← s.checkSent s.nextId kind node (s.routeInfo x.loc pol ty true)
    .ok (.setFab f :: .buffer (newEntry 1 pol [tag] op) :: fl)
  | _ => .ok (.setTlb x.tlb :: .buffer (newEntry 1 pol [] op) :: fl)

/-- The effects of a write at its home here. -/
def State.homeEffects (s : State) (l : Loc) (attr : Attr) (bs : List Byte) (rel : Option (BitVec 14 × Nat)) : List Effect :=
  let t := tagWrite s.rtags l bs.length rel
  match l with
  | .here pa => [.hbm pa bs, .setL2 (s.touch l attr true), .setRtags t]
  | .spad a => [.sp a bs, .setRtags t]
  | _ => []

/-- R251: the supervisor's store or reduction on a page, after every entry in the buffer: here, or by a packet of this kind. -/
def State.directWrite (s : State) (kind : Nat) (find : Except Issue (VAddr × Xlat)) (r : Loc → RouteInfo) (here : Xlat → List Effect) :
    Except Issue (List Effect) :=
  s.directly
    (do
      let (va, x) ← find
      await s.buf.isEmpty 0x09
      s.lsRoom
      match x.loc with
      | .peer node _ => s.askPeer kind node { r x.loc with va := some va }
      | _ => .ok (here x))
    (fun _ => [])

def State.stIssue (s : State) (d x : SSrc) (off : Int) (p : Nat) (t : Ty) : Issue := issueOf (do
  s.needRegion
  let pol := s.srcY p
  let n := tyBytes t
  let find := s.access (s.srcS x + BitVec.ofInt 64 (n * off)) n .write pol
  let v := s.srcS d
  if s.k.priv then
    s.directWrite 6 find (fun l => { s.routeInfo l pol (tyCode t) false with d3 := v })
      (fun x => .setTlb x.tlb :: s.homeEffects x.loc x.attr (toBytes n v.toNat) none)
  else
    let (va, x) ← find
    s.bufferIssue 6 x pol (tyCode t) (.store x.loc x.attr va n v))

def State.stxIssue (s : State) (d x y : SSrc) (p : Nat) (t : Ty) : Issue := issueOf (do
  s.needRegion
  let pol := s.srcY p
  let n := tyBytes t
  let (va, x) ← s.remote (s.srcS x) (s.srcS y) n .write pol
  s.bufferIssue 6 x pol (tyCode t) (.store x.loc x.attr va n (s.srcS d)))

def w64Type (op : AmoOp) (w64 : Bool) : Nat := if w64 then 3 else match op with | .fadd | .fmin | .fmax => 4 | _ => 1

/-- A reduction: on a page (R255) or at a target (R256). -/
def State.redIssue (s : State) (op : AmoOp) (a : DWord) (set : Option DWord) (p : Nat) (w64 : Bool) (v v2 : DWord) : Issue := issueOf (do
  s.needRegion
  let pol := s.srcY p
  let n := if w64 then 8 else 4
  let find := match set with
    | none => s.access a n .write pol
    | some y => s.remote a y n .write pol
  if s.k.priv && set.isNone then
    s.directWrite 8 find (fun l => { s.routeInfo l pol (w64Type op w64) false with op := amoCode op, d3 := v })
      (fun x =>
        let (s1, _) := s.atomicHome x.loc x.attr op w64 v.toNat v2.toNat none
        [.setTlb x.tlb, .hbm (locAddr x.loc) (s1.readHome x.loc n), .setL2 s1.l2, .setRtags s1.rtags])
  else
    let (va, x) ← find
    s.bufferIssue 8 x pol (w64Type op w64) (.reduce x.loc x.attr va op w64 v v2))

/-! ## Order (R273 to R277, R335) -/

def BufEntry.cls (e : BufEntry) : Nat := match e.op with | .copy c => polClass c.dpol | _ => polClass e.pol

/-- The registers of the program that issued an entry, which may have ended since (R270, R284). -/
def State.entryK (s : State) (e : BufEntry) : KRegs := s.k.withCube e.cube

/-- The nodes where an entry performs (R269). -/
def State.entryHomes (s : State) (e : BufEntry) : List (BitVec 14) :=
  match e.op with
  | .store l .. | .reduce l .. => [s.homeNode l]
  | .mcast _ set _ _ => spanned s.k.nodeId ((s.entryK e).physMask set)
  | .sigw n _ _ => [n]
  | .cache _ _ _ lines => (lines.map fun r => s.homeNode r.1).dedup
  | _ => [s.k.nodeId]

/-- Some home of an entry lies in the scope set that the registers `k` give. -/
def State.homedIn (s : State) (k : KRegs) (e : BufEntry) (scope : Nat) : Bool := (s.entryHomes e).any (k.inScope scope)

def BufEntry.fenceMask (e : BufEntry) : BitVec 16 := match e.op with | .fence m _ => m | _ => 0
def BufEntry.isFence (e : BufEntry) : Bool := match e.op with | .fence .. => true | _ => false

/-- Entries that have committed and wait, or are under way. -/
def State.committedBuf (s : State) : List BufEntry := s.buf.filter fun e => e.state != .opened

/-- R274, R276, R277: an access of class `c` to `homes` may follow these earlier entries; `rel` is a release that stands, with its scope, and
`k` holds the registers of its program. One whose class's entries are on their way to the same single home follows them in its flow; after
an ordered multicast none of its class goes before its acknowledgement, in class 15 either (R345). -/
def State.mayFollow (s : State) (k : KRegs) (earlier : List BufEntry) (c : Nat) (homes : List (BitVec 14)) (rel : Option Nat) : Bool :=
  let fenced := earlier.any fun e => e.fenceMask.getLsbD c
  let inFlow (e : BufEntry) : Bool :=
    e.state == .sent && s.entryHomes e == homes && homes != [s.k.nodeId] && homes.length == 1
      && (match e.op with | .mcast .. | .cache .. => false | _ => true)
  let ordered (e : BufEntry) : Bool := match e.op with | .mcast true .. => true | _ => false
  let classed := earlier.all fun e => e.isFence || e.cls != c || (c == 15 && !ordered e) || inFlow e
  let released := match rel with
    | some sc => earlier.all fun e => e.isFence || !s.homedIn k e sc
    | none => true
  !fenced && classed && released

/-- The entries before one. -/
def before (l : List BufEntry) (id : Nat) : List BufEntry := l.takeWhile fun e => e.id != id

/-- R276: a fence at the head of what it covers is done. -/
def State.fenceDone (s : State) (k : KRegs) (earlier : List BufEntry) (mask : BitVec 16) (scope : Nat) : Bool :=
  earlier.all fun e => if e.isFence then true else !mask.getLsbD e.cls || !s.homedIn k e scope

/-- The release that stands of an entry: its scope. A multicast is one store on each receiver, and R279 drops the release of those alone
that lie outside the scope set (R268). -/
def State.entryRel (s : State) (e : BufEntry) : Option Nat :=
  match e.op with
  | .store .. | .reduce .. | .mcast .. | .sigw .. =>
    if polRelease e.pol && s.homedIn (s.entryK e) e (polScope e.pol) then some (polScope e.pol) else none
  | _ => none

/-! ## FENCE and cache control (R258, R259, R276) -/

def State.fenceIssue (s : State) (mask : Nat) (scope : Nat) : Issue := issueOf (do
  s.needRegion
  let m := BitVec.ofNat 16 mask
  let loads := s.pipe.waits.any fun w => w.outstanding && (match w.op with | .load _ _ _ _ pol _ => m.getLsbD (polClass pol) | _ => false)
  await ((s.k.priv || !loads) && s.fenceDone s.k s.committedBuf m scope) 0x09
  s.lsRoom
  if s.k.priv then .ok []
  else
    s.bufRoom 1
    .ok [.buffer (newEntry 1 0 [] (.fence m scope))])

/-- The lines of a range (R259), by the address of each. -/
def rangeLines (a : Nat) (len : Nat) : List Nat :=
  if len = 0 then [] else (List.range ((a + len - 1) / 128 - a / 128 + 1)).map fun i => (a / 128 + i) * 128

def locPlus (l : Loc) (n : Nat) : Loc :=
  match l with | .here pa => .here (pa + n) | .peer d pa => .peer d (pa + n) | .remote d va => .remote d (va + BitVec.ofNat 48 n) | .spad a => .spad (a + n)

/-- R259: an operation on one line that this node is the home of, or holds a read-duplicate copy of: the L2, and the pins that failed. -/
def State.cacheLine (s : State) (op : CacheOp) (l : Loc) (a : Attr) : State :=
  match l with
  | .here pa =>
    let (l2, failed) := l2Op s op (pa / 128) a
    { s with l2 := l2, hst := if failed then { s.hst with pinFails := s.hst.pinFails + 1 } else s.hst }
  | _ => s

/-- The lines of a run that this node acts on. -/
def State.cacheOn (s : State) (op : CacheOp) (lines : List (Loc × Attr)) : State := lines.foldl (fun s (l, a) => s.cacheLine op l a) s

/-- R259: the packet that asks a line's home for an action (log 36): OP names it, and TYPE carries how the page caches. Its request holds the
translation of `va` (R263). -/
def lineInfo (code : Nat) (pol : BitVec 32) (a : Attr) (pa : Nat) (va : VAddr) : RouteInfo :=
  { flow := polClass pol, space := 1, scope := polScope pol, op := code, type := a.clvl, addr := BitVec.ofNat 48 pa, va := some va }

/-- The lines of a run from `va` on that lie on other nodes, as packets. -/
def linePackets (code : Nat) (pol : BitVec 32) (va : VAddr) (lines : List (Loc × Attr)) : List (BitVec 14 × RouteInfo × List Byte) :=
  lines.zipIdx.filterMap fun ((l, a), i) => match l with
    | .peer n pa => some (n, lineInfo code pol a pa (BitVec.ofNat 48 (va.toNat / 128 * 128 + 128 * i)), [])
    | _ => none

/-- The lines of a run one after the other: what lies here is done, and what lies on a peer is sent, until a flow is full. How many. -/
def State.lineSends (s : State) (here : State → Loc → Attr → State) (who : ReqFor) (code : Nat) (pol : BitVec 32) :
    List (Nat × Loc × Attr) → State × Nat
  | [] => (s, 0)
  | (va, l, a) :: rest =>
    let next (s : State) : State × Nat := let (s1, n) := State.lineSends s here who code pol rest; (s1, n + 1)
    match l with
    | .peer node pa =>
      if s.maySend s.k.jobtag node (polClass pol) then
        next { s with fab := (s.fab.request s.clock s.k.nodeId who 6 node s.k.jobtag (lineInfo code pol a pa (BitVec.ofNat 48 va)) []).1 }
      else (s, 0)
    | l => next (here s l a)

def State.rangeOk (s : State) (x y : SSrc) : Except Issue (VAddr × Nat) := do
  checkAt (decide ((s.srcS y).toNat ≤ 0x1000000)) .memoryRange ((s.srcS x).setWidth 48)
  .ok ((s.srcS x).setWidth 48, (s.srcS y).toNat)

/-- R259: a page of the range is translated; it is no load or store, so R249 checks no poison for it (log 35). -/
def State.linePage (s : State) (va : VAddr) (pol : BitVec 32) : Except Issue Xlat :=
  if va.getLsbD 47 then s.translate va .read pol
  else do
    checkAt (decide (0x10000000 ≤ va.toNat)) .address va
    s.page .ls s.k.jobtag va .read pol

/-- R259: every page of the range is translated at issue. -/
def State.cacheRuns (s : State) (pol : BitVec 32) : List Nat → Except Issue (List (Loc × Attr) × Tlb)
  | [] => .ok ([], s.tlb)
  | a :: l => do
    let va ← formVa (BitVec.ofNat 64 a)
    let x ← s.linePage va pol
    let (rs, tlb) ← State.cacheRuns { s with tlb := x.tlb } pol l
    .ok ((x.loc, x.attr) :: rs, tlb)

/-- The effects of what has been done to lines. -/
def lineEffects (s : State) : List Effect := [.setTlb s.tlb, .setL2 s.l2, .setHst s.hst, .setFab s.fab]

/-- R251: lines of the supervisor's: those here at once; for those on a peer the bundle stalls until every peer has acted, and the first failure
that one reports is a supervisor fault. `upto` says how far the range is done when so many of the lines are. -/
def State.linesDirect (s : State) (upto : Nat → Nat) (here : State → Loc → Attr → State) (code : Nat) (pol : BitVec 32) (lines : List (Nat × Loc × Attr)) :
    Except Issue (List Effect) :=
  let (s1, n) := s.lineSends here s.asker code pol lines
  if n < lines.length ∨ s1.fab.asking s.k.jobtag s.asker then .error (.pause (lineEffects s1 ++ [.direct (upto n)]) 0x0B)
  else
    match s1.fab.answers.find? fun a => a.job == s.k.jobtag && a.who == s.asker && a.status != 0 with
    | some a => .error (.trap (statusTrap a.status a.node a.va))
    | none => .ok (lineEffects s1 ++ [s1.doneWith])

/-- The lines that a supervisor instruction has acted on are translated no more (R251). -/
def State.cacheIssue (s : State) (op : CacheOp) (x y : SSrc) (p : Nat) : Issue := issueOf (do
  s.needRegion
  let pol := s.srcY p
  let (va, len) ← s.rangeOk x y
  let _ ← if len = 0 then .ok va else formVa (s.srcS x)
  let run := (rangeLines va.toNat len).drop (if s.k.priv then s.directOf else 0)
  let (lines, tlb) ← s.cacheRuns pol run
  if s.k.priv then
    if s.directOf = 0 then s.lsRoom
    State.linesDirect { s with tlb := tlb } (s.directOf + ·) (fun s l a => s.cacheLine op l a) (cacheCode op) pol (run.zip lines)
  else
    s.bufRoom 1
    s.lsRoom
    .ok [.setTlb tlb, .buffer (newEntry 1 pol [] (.cache op va len lines))])

/-- R259: PREF raises no fault of translation: the lines that translate and do not lie on a bypass page, with their addresses. -/
def State.prefLines (s : State) (pol : BitVec 32) : List Nat → List (Nat × Loc × Attr) × Tlb
  | [] => ([], s.tlb)
  | a :: l =>
    match s.linePage (BitVec.ofNat 48 a) pol with
    | .ok x =>
      let (rs, tlb) := State.prefLines { s with tlb := x.tlb } pol l
      (if x.attr.clvl = 0 then rs else (a, x.loc, x.attr) :: rs, tlb)
    | .error _ => State.prefLines s pol l

/-- A line is allocated at its home: here now, on a peer by a packet, which the supervisor's bundle waits for (R251). -/
def State.prefIssue (s : State) (x y : SSrc) (p : Nat) : Issue := issueOf (do
  s.needRegion
  let pol := s.srcY p
  let (va, len) ← s.rangeOk x y
  let run := (rangeLines va.toNat len).drop s.directOf
  let (lines, tlb) := if bits (s.srcS x) 48 16 = 0 then s.prefLines pol run else ([], s.tlb)
  let u : State := { s with tlb := tlb }
  let fill (s : State) (l : Loc) (a : Attr) : State := { s with l2 := s.touch l a false }
  let upto (n : Nat) : Nat := s.directOf + (run.takeWhile fun a => some a != (lines[n]?).map (·.1)).length
  if s.directOf = 0 then s.lsRoom
  if s.k.priv then u.linesDirect upto fill 5 pol lines
  else
    let (s1, n) := u.lineSends fill .prefetch 5 pol lines
    if n < lines.length then .error (.pause (lineEffects s1 ++ [.direct (upto n)]) 0x0B) else .ok (lineEffects s1))

/-! ## Atomics (R255, R256, R441) -/

/-- R109: in data mode the value that arrives is recorded. -/
def State.traceValue (s : State) (v : DWord) : List Effect := if s.dataMode then [.trace 4 s.seq.bun.slot v] else []

/-- R409, R441: an atomic that meets a condition which its checks did not find. -/
def State.amoFailed (s : State) (d : SDst) (va : VAddr) (c : Cause) : List Effect :=
  [.land 0 0 (.scalar d 0), .setErr { s.err with engine := s.err.engine ++ [(s.k.jobtag, 15)] }, .record 7 c 15 va 0xF,
    .notify ⟨.engineError, va, 0xF, false, s.sch.running⟩] ++ s.traceValue 0

/-- R274, R277: the entries that an atomic waits for; the supervisor's waits for every one (R286). -/
def State.atomicWaits (s : State) (pol : BitVec 32) (l : Loc) : Except Issue Unit :=
  await (if s.k.priv then s.buf.isEmpty else s.mayFollow s.k s.buf (polClass pol) [s.homeNode l]
    (if polRelease pol && !s.releaseOut pol l then some (polScope pol) else none)
    && (match l with | .here _ => true | _ => s.buf.all fun e => polClass pol == 15 || e.isFence || e.cls != polClass pol)) 0x09

/-- R68, R279: an atomic at a node learns that an ordering effect has been dropped: its home lies outside the scope set, or has shut its
acquire out. -/
def State.amoFlags (s : State) (pol : BitVec 32) (node : BitVec 14) (keep : Bool) : Flags :=
  if (polAcquire pol && (!s.k.inScope (polScope pol) node || !keep)) || (polRelease pol && !s.k.inScope (polScope pol) node) then flagScopeMiss else 0

/-- An atomic at its home here. -/
def State.amoHere (s : State) (op : AmoOp) (w64 : Bool) (d : SDst) (x : Xlat) (pol : BitVec 32) (v v2 : DWord) : List Effect :=
  let n := if w64 then 8 else 4
  let fl := if s.k.priv then 0 else s.amoFlags pol s.k.nodeId !(s.acquireDrops s.k x.loc s.k.nodeId (polScope pol))
  let (s1, old) := s.atomicHome x.loc x.attr op w64 v.toNat v2.toNat (s.relOf pol s.k.nodeId)
  [.setTlb x.tlb, .hbm (locAddr x.loc) (s1.readHome x.loc n), .setL2 s1.l2, .setRtags s1.rtags, .land 0 fl (.scalar d (BitVec.ofNat 64 old))]
    ++ s.traceValue (BitVec.ofNat 64 old)

/-- The atomic of the program that runs: its answer finds it even where the program has been saved in between (R382). -/
def State.performer (s : State) : ReqFor := .atomic (s.sch.running.getD 0)

/-- An atomic at another node: the request. -/
def State.amoSend (s : State) (node : BitVec 14) (r : RouteInfo) : Issue :=
  if !s.maySend s.k.jobtag node r.flow then .stall 0x0B
  else .pause [.setFab ((s.fab.dropAnswer s.k.jobtag .atomicCheck).request s.clock s.k.nodeId s.performer 7 node s.k.jobtag r []).1] 0x09

/-- Its answer: the old word, or what R441 says of a failure. -/
def State.amoAnswered (s : State) (d : SDst) (pol : BitVec 32) (a : Answer) : List Effect :=
  .setFab (s.fab.dropAnswer s.k.jobtag s.performer) ::
    (if a.status = 0 then .land 0 (if s.k.priv then 0 else s.amoFlags pol a.node a.keep) (.scalar d a.value) :: s.traceValue a.value
      else s.amoFailed d a.va (statusTrap a.status a.node a.va).cause)

/-- An atomic performs, `find` saying where: once its request is under way it waits for the answer and looks at no translation any more
(R441). -/
def State.amoPerform (s : State) (op : AmoOp) (w64 : Bool) (d : SDst) (pol : BitVec 32) (v v2 : DWord) (find : Except Issue (VAddr × Xlat)) :
    Except Issue (List Effect) :=
  match s.fab.answerTo s.k.jobtag s.performer with
  | some a => .ok (s.amoAnswered d pol a)
  | none =>
    if s.fab.asking s.k.jobtag s.performer then .error (.stall 0x09)
    else
      match find with
      | .error (.trap t) => .ok (s.amoFailed d t.eva t.cause)
      | .error i => .error i
      | .ok (va, x) => do
        s.atomicWaits pol x.loc
        match x.loc with
        | .here _ | .spad _ => .ok (s.amoHere op w64 d x pol v v2)
        | .peer node _ | .remote node _ =>
          let held := match x.loc with | .peer .. => some va | _ => none
          .error (s.amoSend node
            { s.routeInfo x.loc pol (w64Type op w64) false with op := amoCode op, d3 := v, d4 := if op = .cas then v2 else 0, va := held })

/-- R251, R286: an atomic of the supervisor performs at issue, after every entry in the buffer; on a peer's page its bundle stalls for the
answer, and a failure is a supervisor fault. -/
def State.amoDirect (s : State) (op : AmoOp) (w64 : Bool) (d : SDst) (a : DWord) (pol : BitVec 32) (v v2 : DWord) : Except Issue (List Effect) :=
  s.directly
    (do
      let (va, x) ← s.access a (if w64 then 8 else 4) .write pol
      await s.buf.isEmpty 0x09
      s.lsRoom
      match x.loc with
      | .peer node _ =>
        s.askPeer 7 node { s.routeInfo x.loc pol (w64Type op w64) false with op := amoCode op, d3 := v, d4 := if op = .cas then v2 else 0, va := some va }
      | _ => .ok (s.amoHere op w64 d x pol v v2))
    (fun ans => .land 0 0 (.scalar d ans.value) :: s.traceValue ans.value)

/-- AMO on a page (R255). -/
def State.amoIssue (s : State) (op : AmoOp) (w64 : Bool) (d : SDst) (a : DWord) (p : Nat) (v v2 : DWord) : Issue :=
  let pol := s.srcY p
  let n := if w64 then 8 else 4
  if s.k.priv then issueOf (s.amoDirect op w64 d a pol v v2)
  else
    s.boundaryIssue
      (do
        s.needRegion
        let _ ← s.access a n .write pol
        s.lsRoom)
      (fun s => s.amoPerform op w64 d pol v v2 (s.access a n .write pol))

/-- R336: the check of an AMX at its target, while its region is open. -/
def State.amxCheck (s : State) (va : VAddr) (node : BitVec 14) (r : RouteInfo) : Except Issue Unit :=
  match s.fab.answerTo s.k.jobtag .atomicCheck with
  | some a => if a.status = 0 then .ok () else .error (.trap (statusTrap a.status node va))
  | none =>
    if s.fab.asking s.k.jobtag .atomicCheck then .error (.stall 0x09)
    else if !s.maySend s.k.jobtag node r.flow then .error (.stall 0x0B)
    else .error (.pause [.setFab (s.fab.request s.clock s.k.nodeId .atomicCheck 7 node s.k.jobtag { r with check := true, d3 := 0, d4 := 0 } []).1] 0x09)

/-- AMX (R256). -/
def State.amxIssue (s : State) (op : AmoOp) (w64 : Bool) (d : SDst) (a set : DWord) (p : Nat) (v v2 : DWord) : Issue :=
  let pol := s.srcY p
  let n := if w64 then 8 else 4
  let performing (s : State) : Bool := (s.fab.answerTo s.k.jobtag s.performer).isSome || s.fab.asking s.k.jobtag s.performer
  s.boundaryIssue
    (do
      s.needRegion
      if performing s then .ok ()
      else
        let (va, x) ← s.remote a set n .write pol
        match x.loc with
        | .remote node _ => s.amxCheck va node { s.routeInfo x.loc pol (w64Type op w64) false with op := amoCode op }
        | _ => s.lsRoom)
    (fun s => s.amoPerform op w64 d pol v v2 (s.remote a set n .write pol))

/-! ## The instructions -/

def execLd (d : SDst) (x : SSrc) (off : Int) (p : Nat) (t : Ty) (s : State) : Host.Outcome State Fault Refusal := s.settle (s.ldIssue d x off p t)
def execSt (d x : SSrc) (off : Int) (p : Nat) (t : Ty) (s : State) : Host.Outcome State Fault Refusal := s.settle (s.stIssue d x off p t)
def execLdx (d : SDst) (x y : SSrc) (p : Nat) (t : Ty) (s : State) : Host.Outcome State Fault Refusal := s.settle (s.ldxIssue d x y p t)
def execStx (d x y : SSrc) (p : Nat) (t : Ty) (s : State) : Host.Outcome State Fault Refusal := s.settle (s.stxIssue d x y p t)
def execFence (mask scope : Nat) (s : State) : Host.Outcome State Fault Refusal := s.settle (s.fenceIssue mask scope)
def execPref (x y : SSrc) (p : Nat) (s : State) : Host.Outcome State Fault Refusal := s.settle (s.prefIssue x y p)
def execPin (x y : SSrc) (p : Nat) (s : State) : Host.Outcome State Fault Refusal := s.settle (s.cacheIssue .pin x y p)
def execUnpin (x y : SSrc) (p : Nat) (s : State) : Host.Outcome State Fault Refusal := s.settle (s.cacheIssue .unpin x y p)
def execFlush (x y : SSrc) (p : Nat) (s : State) : Host.Outcome State Fault Refusal := s.settle (s.cacheIssue .flush x y p)
def execInval (x y : SSrc) (p : Nat) (s : State) : Host.Outcome State Fault Refusal := s.settle (s.cacheIssue .inval x y p)

def State.amo2 (s : State) (op : AmoOp) (w64 : Bool) (d : SDst) (x y : SSrc) (p : Nat) : Issue := s.amoIssue op w64 d (s.srcS x) p (s.srcS y) 0
def State.red2 (s : State) (op : AmoOp) (w64 : Bool) (x y : SSrc) (p : Nat) : Issue := s.redIssue op (s.srcS x) none p w64 (s.srcS y) 0

def execAmoAdd (d : SDst) (x y : SSrc) (p : Nat) (w64 : Bool) (s : State) : Host.Outcome State Fault Refusal := s.settle (s.amo2 .add w64 d x y p)
def execAmoSmin (d : SDst) (x y : SSrc) (p : Nat) (w64 : Bool) (s : State) : Host.Outcome State Fault Refusal := s.settle (s.amo2 .smin w64 d x y p)
def execAmoSmax (d : SDst) (x y : SSrc) (p : Nat) (w64 : Bool) (s : State) : Host.Outcome State Fault Refusal := s.settle (s.amo2 .smax w64 d x y p)
def execAmoZmin (d : SDst) (x y : SSrc) (p : Nat) (w64 : Bool) (s : State) : Host.Outcome State Fault Refusal := s.settle (s.amo2 .zmin w64 d x y p)
def execAmoZmax (d : SDst) (x y : SSrc) (p : Nat) (w64 : Bool) (s : State) : Host.Outcome State Fault Refusal := s.settle (s.amo2 .zmax w64 d x y p)
def execAmoAnd (d : SDst) (x y : SSrc) (p : Nat) (w64 : Bool) (s : State) : Host.Outcome State Fault Refusal := s.settle (s.amo2 .and w64 d x y p)
def execAmoOr (d : SDst) (x y : SSrc) (p : Nat) (w64 : Bool) (s : State) : Host.Outcome State Fault Refusal := s.settle (s.amo2 .or w64 d x y p)
def execAmoXor (d : SDst) (x y : SSrc) (p : Nat) (w64 : Bool) (s : State) : Host.Outcome State Fault Refusal := s.settle (s.amo2 .xor w64 d x y p)
def execAmoSwap (d : SDst) (x y : SSrc) (p : Nat) (w64 : Bool) (s : State) : Host.Outcome State Fault Refusal := s.settle (s.amo2 .swap w64 d x y p)
def execAmoFadd (d : SDst) (x y : SSrc) (p : Nat) (s : State) : Host.Outcome State Fault Refusal := s.settle (s.amo2 .fadd false d x y p)
def execAmoFmin (d : SDst) (x y : SSrc) (p : Nat) (s : State) : Host.Outcome State Fault Refusal := s.settle (s.amo2 .fmin false d x y p)
def execAmoFmax (d : SDst) (x y : SSrc) (p : Nat) (s : State) : Host.Outcome State Fault Refusal := s.settle (s.amo2 .fmax false d x y p)
def execRedAdd (x y : SSrc) (p : Nat) (w64 : Bool) (s : State) : Host.Outcome State Fault Refusal := s.settle (s.red2 .add w64 x y p)
def execRedSmin (x y : SSrc) (p : Nat) (w64 : Bool) (s : State) : Host.Outcome State Fault Refusal := s.settle (s.red2 .smin w64 x y p)
def execRedSmax (x y : SSrc) (p : Nat) (w64 : Bool) (s : State) : Host.Outcome State Fault Refusal := s.settle (s.red2 .smax w64 x y p)
def execRedZmin (x y : SSrc) (p : Nat) (w64 : Bool) (s : State) : Host.Outcome State Fault Refusal := s.settle (s.red2 .zmin w64 x y p)
def execRedZmax (x y : SSrc) (p : Nat) (w64 : Bool) (s : State) : Host.Outcome State Fault Refusal := s.settle (s.red2 .zmax w64 x y p)
def execRedAnd (x y : SSrc) (p : Nat) (w64 : Bool) (s : State) : Host.Outcome State Fault Refusal := s.settle (s.red2 .and w64 x y p)
def execRedOr (x y : SSrc) (p : Nat) (w64 : Bool) (s : State) : Host.Outcome State Fault Refusal := s.settle (s.red2 .or w64 x y p)
def execRedXor (x y : SSrc) (p : Nat) (w64 : Bool) (s : State) : Host.Outcome State Fault Refusal := s.settle (s.red2 .xor w64 x y p)
def execRedSwap (x y : SSrc) (p : Nat) (w64 : Bool) (s : State) : Host.Outcome State Fault Refusal := s.settle (s.red2 .swap w64 x y p)
def execRedFadd (x y : SSrc) (p : Nat) (s : State) : Host.Outcome State Fault Refusal := s.settle (s.red2 .fadd false x y p)
def execRedFmin (x y : SSrc) (p : Nat) (s : State) : Host.Outcome State Fault Refusal := s.settle (s.red2 .fmin false x y p)
def execRedFmax (x y : SSrc) (p : Nat) (s : State) : Host.Outcome State Fault Refusal := s.settle (s.red2 .fmax false x y p)
def execAmoCas (d : SDst) (x : SSrc) (y : Nat) (p : Nat) (w64 : Bool) (s : State) : Host.Outcome State Fault Refusal :=
  s.settle (s.amoIssue .cas w64 d (s.srcS x) p (s.srcS (.reg y)) (s.srcS (.reg (y + 1))))
def execRedCas (x : SSrc) (y : Nat) (p : Nat) (w64 : Bool) (s : State) : Host.Outcome State Fault Refusal :=
  s.settle (s.redIssue .cas (s.srcS x) none p w64 (s.srcS (.reg y)) (s.srcS (.reg (y + 1))))

/-- R256: the swap value of a remote compare and swap is D. -/
def State.amxSwap (s : State) (op : AmoOp) (d : SDst) : DWord := match op, d with | .cas, .reg n => s.srcS (.reg n) | _, _ => 0

def execAmx (op : AmoOp) (d : SDst) (x : Nat) (y : SSrc) (p : Nat) (t : ATy) (s : State) : Host.Outcome State Fault Refusal :=
  s.settle (s.amxIssue op (atyW64 t) d (s.srcS (.reg x)) (s.srcS y) p (s.srcS (.reg (x + 1))) (s.amxSwap op d))
/-- A remote CAS without return has no D to take its swap value from: D is 000000, and S0 reads zero. -/
def execRedx (op : AmoOp) (x : Nat) (y : SSrc) (p : Nat) (t : ATy) (s : State) : Host.Outcome State Fault Refusal :=
  s.settle (s.redIssue op (s.srcS (.reg x)) (some (s.srcS y)) p (atyW64 t) (s.srcS (.reg (x + 1))) 0)

end Sys2Proof.Machine
end

