-- ==== Sys2Proof/Machine/Drain.lean ====
section
/-! DEFINITION. The drain of the store buffer (10_ordering R269, R274, R276, R335), the arrival of loads and of other variable-latency
results (01_bundles R37, 10_ordering R273 to R279), and walks that complete (09_memory R241, R246). -/

namespace Sys2Proof.Machine

/-! ## The drain -/

/-- An entry has performed: it leaves the buffer. -/
def State.entryGone (s : State) (id : Nat) : State := { s with buf := s.buf.filter fun e => e.id != id }

def State.setEntry (s : State) (e : BufEntry) : State := { s with buf := s.buf.map fun x => if x.id = e.id then e else x }

/-- R249, R337: a draining entry is dropped. -/
def State.dropEntry (s : State) (e : BufEntry) (c : Cause) (va : VAddr) (einfo : DWord) : State :=
  (s.entryGone e.id).droppedEntry e.job c va einfo

/-- R268, R279: the release of a multicast to one receiver: its entry's, where the scope set holds the receiver. -/
def State.mcastRel (s : State) (e : BufEntry) (node : BitVec 14) : Option Nat :=
  match s.entryRel e with
  | some sc => if (s.entryK e).inScope sc node then some sc else none
  | none => none

/-- The packets of a multicast, for one receiver after the other (R344). -/
def State.mcastPackets (s : State) (e : BufEntry) (va : VAddr) (data : List Byte) : List (BitVec 14 × RouteInfo × List Byte) :=
  ((s.entryHomes e).filter fun n => n != s.k.nodeId).flatMap fun n =>
    (piecesOf va.toNat data).map fun pc =>
      let (r, pl) := pieceInfo { flow := e.cls, scope := polScope e.pol, sync := if (s.mcastRel e n).isSome then 2 else 0 } pc
      (n, r, pl)

/-- R345: the same at issue. -/
def State.serialiser (s : State) (set : BitVec 14) : BitVec 14 := s.k.serialiser set
def State.physMask (s : State) (set : BitVec 14) : BitVec 14 := s.k.physMask set

/-- The packets of a serial stream (R345): payload flits, the last with its length in words (log 21). -/
def State.streamPackets (s : State) (e : BufEntry) (set : BitVec 14) (va : VAddr) (data : List Byte) :
    List (BitVec 14 × RouteInfo × List Byte) :=
  let n := (data.length + 1023) / 1024
  (List.range n).map fun i =>
    let bs := (data.drop (1024 * i)).take 1024
    ((s.entryK e).serialiser set,
      { flow := e.cls, scope := polScope e.pol, sync := if (s.entryRel e).isSome then 2 else 0, addr := va + BitVec.ofNat 48 (1024 * i),
        type := if i + 1 = n then 1 else 0, op := if i + 1 = n then (bs.length % 64) / 4 else 0,
        d3 := ((s.entryK e).physMask set).setWidth 64 }, bs)

/-- A stream of the same class is half sent: its packets keep together in their flow (R345). -/
def State.midStream (s : State) (e : BufEntry) : Bool :=
  s.buf.any fun x => x.id != e.id && x.job == e.job && x.cls == e.cls && x.state == .draining && decide (0 < x.prog)
    && (match x.op with | .mcast ordered .. => ordered | _ => false)

/-- R406: the logical dimensions that a packet of an entry crosses, if it carries data; a cache operation carries none. -/
def State.entryDims (s : State) (e : BufEntry) (n : BitVec 14) : BitVec 14 :=
  match e.op with
  | .cache .. => 0
  | _ => let k := s.entryK e; k.lnode ^^^ BitVec.ofNat 14 (k.logical n)

/-- Packets of an entry are handed over one at a time; after the last, the entry waits for its acknowledgements. -/
def State.sendPart (s : State) (e : BufEntry) (kind : Nat) (ps : List (BitVec 14 × RouteInfo × List Byte)) : State :=
  match ps[e.prog]? with
  | none => if e.out.isEmpty then s.entryGone e.id else s.setEntry { e with state := .sent }
  | some (n, r, pl) =>
    if s.lost n then s.dropEntry e .partnerLost (r.va.getD r.addr) 0
    else if s.maySend e.job n r.flow && !s.midStream e then
      let (f, tag) := s.fab.request s.clock s.k.nodeId (.bufDrain e.id) kind n e.job r pl
      let st : BufState := if e.prog + 1 = ps.length then .sent else .draining
      ({ s with fab := f }.dataLeaves e.job none (s.entryDims e n)).setEntry { e with prog := e.prog + 1, out := e.out ++ [tag], state := st }
    else s

/-- Packets that follow what the entry has done here: that was its first part. -/
def State.sendRest (s : State) (e : BufEntry) (kind : Nat) (ps : List (BitVec 14 × RouteInfo × List Byte)) : State :=
  s.sendPart e kind ((s.k.nodeId, {}, []) :: ps)

/-- What is done once, before an entry's packets. -/
def State.firstPart (s : State) (e : BufEntry) (f : State → State) : State × BufEntry :=
  if e.prog = 0 then ((f s).setEntry { e with prog := 1 }, { e with prog := 1 }) else (s, e)

/-- How a page caches under the policy register of the access (R243). -/
def issuedAttr (job : BitVec 16) (pol : BitVec 32) (s : State) (va : VAddr) (a : Attr) : Attr :=
  match s.leaf .remote job va with
  | .ok (e, _, _) => leafAttr e pol va
  | .error _ => a

/-- What an entry whose turn has come does (R269). A SIGW to this node whose vault the job has given up is dropped as a peer's would be (R229,
log 116). -/
def State.performEntry (s : State) (e : BufEntry) : State :=
  let k := s.entryK e
  let rel := (s.entryRel e).map fun sc => (s.k.nodeId, sc)
  match e.op with
  | .store l attr va w v =>
    match l with
    | .here pa =>
      if s.poisoned pa then s.dropEntry e .poison va (BitVec.ofNat 64 6) else (s.writeHome l attr (toBytes w v.toNat) rel).entryGone e.id
    | l =>
      let ty := if w = 8 then 3 else if w = 4 then 1 else if w = 2 then 5 else 6
      s.sendPart e 6 [(s.homeNode l, { s.routeFor k l e.pol ty false with d3 := v, va := some va }, [])]
  | .reduce l attr va op w64 v v2 =>
    match l with
    | .here pa => if s.poisoned pa then s.dropEntry e .poison va (BitVec.ofNat 64 6) else (s.atomicHome l attr op w64 v.toNat v2.toNat rel).1.entryGone e.id
    | l => s.sendPart e 8 [(s.homeNode l, { s.routeFor k l e.pol (w64Type op w64) false with op := amoCode op, d3 := v, va := some va }, [])]
  | .mcast false _ va data =>
    let own := (s.mcastRel e s.k.nodeId).map fun sc => (s.k.nodeId, sc)
    let (s1, e1) := s.firstPart e fun s => s.writeOwn e.job va data (issuedAttr e.job e.pol) own
    s1.sendRest e1 6 (s1.mcastPackets e va data)
  | .mcast true set va data =>
    if k.serialiser set = s.k.nodeId then
      let x : Serial := ⟨e.id, e.job, s.k.nodeId, e.cls, k.physMask set, [(va, data)], s.entryRel e, true, 0, true, [], []⟩
      ({ s with fab := { s.fab with serial := s.fab.serial ++ [x] } }.setEntry { e with state := .sent }).serialRun 4096
    else s.sendPart e 9 (s.streamPackets e set va data)
  | .sigw n a v =>
    if n = s.k.nodeId then
      if s.ownedBy e.job (vaultOf a) then (s.writeHome (.spad a) physAttr (toBytes 8 v.toNat) rel).entryGone e.id
      else (s.entryGone e.id).engineFault e.job 15 0
    else s.sendPart e 6 [(n, { sigFor k n a e.pol false with d3 := v }, [])]
  | .fence _ _ => s.entryGone e.id
  | .cache op va _ lines =>
    let (s1, e1) := s.firstPart e fun s => s.cacheOn op lines
    s1.sendRest e1 6 (linePackets (cacheCode op) e.pol va lines)
  | .acquire _ | .release _ => s.entryGone e.id
  | .copy c => { s.entryGone e.id with eng := { s.eng with copies := s.eng.copies ++ [c] } }

/-- R247, R274, R276, R277: whether a draining entry's turn has come; the supervisor's performs after every entry before it, whatever its class
(R286). -/
def State.entryTurn (s : State) (e : BufEntry) : Bool :=
  let earlier := before s.buf e.id
  e.state == .draining &&
    (match e.op with
      | .store (.here _) .. | .reduce (.here _) .. => decide (s.requests < 8192)
      | _ => true) &&
    (if e.sup then earlier.isEmpty || decide (0 < e.prog) else
    match e.op with
      | .fence m sc => s.fenceDone (s.entryK e) earlier m sc
      | _ => decide (0 < e.prog) || s.mayFollow (s.entryK e) earlier e.cls (s.entryHomes e) (s.entryRel e))

def execBufferEntryDrain (s : State) : Host.Outcome State Fault Refusal :=
  match s.buf.find? fun e => e.id == s.ev.id with
  | some e => .next (if s.entryTurn e then s.performEntry e else s)
  | none => .next s

/-! ## Arrivals -/

/-- R274: an earlier load that this one must not pass, in its class or as an acquire; the supervisor's accesses perform in program order (R286). -/
def State.loadWaits (s : State) (w : Wait) (cls : Nat) (home : BitVec 14) : Bool :=
  (w.sup && (s.buf.any (fun e => e.sup && e.precedes w)
    || s.pipe.waits.any fun x => x.outstanding && x.sup && decide (x.seq < w.seq) && (match x.op with | .load .. => true | _ => false)))
  || !w.sup && s.pipe.waits.any fun x => x.outstanding && decide (x.seq < w.seq) &&
    (match x.op with
      | .load _ l _ _ pol tag =>
        (polAcquire pol && !s.acquireOut pol l)
          || (cls != 15 && polClass pol == cls && !(tag.isSome && s.homeNode l == home && home != s.k.nodeId))
      | _ => false)

/-- R109, R110: in data mode a value that arrives is recorded. -/
def State.traceArrival (s : State) (w : Wait) (v : Arrived) : State :=
  if s.dataMode then
    match v with
    | .scalar x => s.trace 4 w.slot x
    | .vector x =>
      let ds := splitN 1024 (2 ^ 64) x.toNat
      (s.trace 5 w.slot 0).traceRaw ((List.range 512).map fun i =>
        (BitVec.ofNat 64 ((ds[2 * i]?).getD 0), BitVec.ofNat 64 ((ds[2 * i + 1]?).getD 0)))
    | _ => s
  else s

/-- An arrival, recorded. -/
def State.arriveTraced (s : State) (w : Wait) (v : Arrived) (fl : Flags) : State := (s.arrive w.id v fl).traceArrival w v

/-- A load performs at its home here, or its request is sent (R123, R252, R335, R336). A request waits for the older committed stores to the
same place, so that what its home answers is no older than they. -/
def State.performLoad (s : State) (w : Wait) (va : VAddr) (l : Loc) (attr : Attr) (t : Ty) (pol : BitVec 32) (tag : Option Nat) : State :=
  let n := tyBytes t
  match l with
  | .spad _ => s
  | .here pa =>
    if s.loadWaits w (polClass pol) s.k.nodeId then s
    else if s.poisoned pa then s.faultOf w.slot w.seq (poisonTrap va)
    else
      let drops := !w.sup && polAcquire pol && s.acquireDrops s.k l s.k.nodeId (polScope pol)
      { s with l2 := s.touch l attr false }.arriveTraced w (.scalar (loadValue t (leNat (overlay (s.readHome l n) (s.forwardTo w l va n)))))
        (if drops then flagScopeMiss else 0)
  | l =>
    if tag.isSome || s.loadWaits w (polClass pol) (s.homeNode l) || s.storePending l va n || !s.fab.hasRoom s.k.jobtag (s.homeNode l) (polClass pol) then s
    else
      let (f, g) := s.fab.request s.clock s.k.nodeId (.wait w.id) 4 (s.homeNode l) s.k.jobtag (s.routeInfo l pol (tyCode t) false) []
      { s with
        fab := f
        pipe := { s.pipe with waits := s.pipe.waits.map fun (x : Wait) => if x.id = w.id then { x with op := .load va l attr t pol (some g) } else x } }

/-- R181: the elements of a gather or strided load, and its arrival. -/
def State.gatherArrive (s : State) (w : Wait) (ew : Nat) (addrs : List (Bool × Int)) (lanes : VReg) : State :=
  match s.gatherLanes ew addrs with
  | .error c => s.faultOf w.slot w.seq { cause := c }
  | .ok vs =>
    let lw := if addrs.length = 2048 then 4 else ew
    let s1 := { s with pipe := { s.pipe with waits := s.pipe.waits.map fun (x : Wait) => if x.id = w.id then { x with lanes := lanes } else x } }
    s1.arriveTraced w (.vector (ofLanes lw vs)) 0

/-- R182: lanes below `lo` were written by earlier chunks; a queue position takes every lane all the same. -/
def gatherFrom (w : Wait) (prog : Nat) : Nat := match w.vd with | some (.reg _) => prog | _ => 0

def lanesFrom (m : Mask) (lo : Nat) : VReg := laneBits 4 (laneWindow lo 2048 (active m 4))

def State.arrival (s : State) (w : Wait) : State :=
  match w.op with
  | .load va l attr t pol tag => s.performLoad w va l attr t pol tag
  | .window a t => s.arriveTraced w (.scalar (loadValue t (leNat (s.readHome (.spad a) (tyBytes t))))) 0
  | .direct v => s.arriveTraced w (.scalar v) 0
  | .tlbp v => s.arriveTraced w (.scalar v) 0
  | .gather b idx m ew res =>
    let lo := if res then gatherFrom w s.progress else 0
    if res && decide (s.progress < 2048) then s
    else s.gatherArrive w (ewBytes ew) (gatherAddrs b (ewBytes ew) lo 2048 idx m) (if lo = 0 then w.lanes else lanesFrom m lo)
  | .strided b st m ew => s.gatherArrive w (ewBytes ew) (stridedAddrs b (ewBytes ew) st m) w.lanes
  | .mcastRead => s.arrive w.id .nothing 0
  | .scatter .. | .gmask | .sample | .selft _ => s

/-- R37: the result numbered `id` arrives, unless it waits for another unit or another node. -/
def execResultArrival (s : State) : Host.Outcome State Fault Refusal :=
  match s.pipe.waits.find? fun w => w.id == s.ev.id && w.outstanding with
  | some w => .next (s.arrival w)
  | none => .next s

/-! ## Walks (R236, R246) -/

/-- R241: a walk that finds a leaf leaves it in the TLB; one that a fetch or a memory instruction waits for raises what it finds. -/
def State.walkDone (s : State) (r : WalkReq) : Except Issue State :=
  match s.page r.requester r.job r.va r.access 0 with
  | .ok x => .ok { s with tlb := x.tlb }
  | .error i => .error i

def execTranslationWalkComplete (s : State) : Host.Outcome State Fault Refusal :=
  match s.walkDone s.ev.walk with
  | .ok s1 => .next s1
  | .error i =>
    match s.ev.walk.requester with
    | .fetch | .ls => s.settle i
    | _ => .next s

end Sys2Proof.Machine
end

