-- ==== Sys2Proof/Machine/Copy.lean ====
section
/-! DEFINITION. The copy engine and the synchronisation instructions (08_scratchpad R215 to R231). -/

namespace Sys2Proof.Machine

/-! ## Descriptors (R217, R222) -/

def dwAt (l : List DWord) (i : Nat) : DWord := (l[i]?).getD 0

namespace CopyCmd

def src (c : CopyCmd) : Nat := bits (dwAt c.desc 0) 0 48
def dst (c : CopyCmd) : Nat := bits (dwAt c.desc 1) 0 48
def srcGlobal (c : CopyCmd) : Bool := (dwAt c.desc 0).getLsbD 48
def dstGlobal (c : CopyCmd) : Bool := (dwAt c.desc 1).getLsbD 48
def sigOn (c : CopyCmd) : Bool := (dwAt c.desc 2).getLsbD 31
def sigAddr (c : CopyCmd) : Nat := bits (dwAt c.desc 2) 0 28
def sigVal (c : CopyCmd) : DWord := dwAt c.desc 3
def pull (c : CopyCmd) : Bool := (dwAt c.desc 5).getLsbD 0
def psigOn (c : CopyCmd) : Bool := (dwAt c.desc 6).getLsbD 63
def psigAddr (c : CopyCmd) : Nat := bits (dwAt c.desc 6) 0 28

end CopyCmd

/-- R217: doublewords 0 to 2. -/
def copyCommonOk (d : List DWord) : Bool :=
  let a := dwAt d 0; let b := dwAt d 1; let g := dwAt d 2
  bits a 52 12 == 0 && bits b 52 12 == 0 && bits g 32 32 == 0 && bits a 0 2 == 0 && bits b 0 2 == 0
    && (a.getLsbD 48 || bits a 28 20 == 0) && (b.getLsbD 48 || bits b 28 20 == 0) && (!g.getLsbD 31 || bits g 0 3 == 0)

/-- R217: doublewords 4 to 7 by kind. -/
def copyKindOk (k : CopyKind) (d : List DWord) : Bool :=
  let e := dwAt d 4; let f := dwAt d 5; let g := dwAt d 6; let h := dwAt d 7
  let len := bits e 40 24 == 0 && bits e 0 2 == 0 && bits e 0 40 != 0
  match k with
  | .linear => len && f == 0 && g == 0 && h == 0
  | .rows => bits e 0 2 == 0 && bits e 0 32 != 0 && bits e 32 32 != 0 && bits f 48 16 == 0 && bits f 0 2 == 0 && bits g 48 16 == 0
      && bits g 0 2 == 0 && h == 0
  | .walk => bits e 28 36 == 0 && bits e 0 6 == 0 && bits f 32 32 == 0 && bits f 0 2 == 0 && bits g 40 24 == 0 && bits g 0 2 == 0
  | .lattice => len && bits f 1 63 == 0 && bits g 28 35 == 0 && (!g.getLsbD 63 || bits g 0 3 == 0)

/-- R222: the size of an element. -/
def mapSize (m : List DWord) : Nat := match bits (dwAt m 0) 0 4 with | 0 | 7 | 8 => 4 | 1 => 2 | _ => 1
def mapRank (m : List DWord) : Nat := bits (dwAt m 0) 4 2
def mapExt (m : List DWord) (k : Nat) : Nat := if mapRank m < k then 1 else bits (dwAt m (k + 1)) 0 32
def mapStride (m : List DWord) (k : Nat) : Nat := if mapRank m < k then 0 else bits (dwAt m (k + 1)) 32 32
def winSize (m : List DWord) (k : Nat) : Nat := bits (dwAt m (k + 4)) 0 8
def winStr (m : List DWord) (k : Nat) : Nat := bits (dwAt m (k + 4)) 8 8
def winDil (m : List DWord) (k : Nat) : Nat := bits (dwAt m (k + 4)) 16 8
def winLo (m : List DWord) (k : Nat) : Nat := bits (dwAt m (k + 4)) 24 8
def winHi (m : List DWord) (k : Nat) : Nat := bits (dwAt m (k + 4)) 32 8
def mapRlen (m : List DWord) : Nat := bits (dwAt m 7) 0 16

/-- R223: O(k), which the rules below keep at 1 or more. -/
def winOut (m : List DWord) (k : Nat) : Int :=
  ((mapExt m k + winLo m k + winHi m k : Int) - winDil m k * (winSize m k - 1) - 1) / winStr m k + 1

def mapTotal (m : List DWord) : Nat := mapExt m 3 * (winOut m 2).toNat * (winOut m 1).toNat

/-- R223: the rows that a command writes, from START on. -/
def walkLast (c : CopyCmd) : Nat :=
  let start := bits (dwAt c.desc 7) 0 32
  let count := bits (dwAt c.desc 7) 32 32
  if count = 0 then mapTotal c.map else min (mapTotal c.map) (start + count)
def walkRows (c : CopyCmd) : Nat := walkLast c - bits (dwAt c.desc 7) 0 32
def walkTrows (d : List DWord) : Nat := let n := bits (dwAt d 6) 32 8; if n = 0 then 128 else n

/-- R222: the rules of the map, with the descriptor's steps. -/
def mapOk (c : CopyCmd) : Bool :=
  let m := c.map
  let fmtOk := bits (dwAt m 0) 0 4 ∈ [0, 1, 2, 3, 6, 7, 8]
  let dims := (List.range 4).all fun k =>
    if mapRank m < k then dwAt m (k + 1) == 0
    else decide (1 ≤ bits (dwAt m (k + 1)) 0 32 ∧ bits (dwAt m (k + 1)) 0 32 ≤ 2 ^ 31) && mapStride m k % mapSize m == 0
  let wins := [1, 2].all fun k =>
    if mapRank m < k then dwAt m (k + 4) == 0x010101
    else bits (dwAt m (k + 4)) 40 24 == 0 && winDil m k != 0 && winStr m k != 0 && winSize m k != 0
  let dpitch := bits (dwAt c.desc 5) 0 32
  let tpitch := bits (dwAt c.desc 6) 0 32
  bits (dwAt m 0) 6 58 == 0 && fmtOk && dims && wins && bits (dwAt m 7) 16 48 == 0 && mapRlen m % 4 == 0
    && decide (1 ≤ winOut m 1 ∧ 1 ≤ winOut m 2)
    && decide (winSize m 2 * winSize m 1 * mapExt m 0 * mapSize m ≤ mapRlen m)
    && decide (mapRlen m ≤ dpitch)
    && !(decide (walkTrows c.desc < walkRows c) && decide (tpitch < walkTrows c.desc * dpitch))

/-! ## The pieces of a command (R217, R223) -/

/-- A run of bytes that is written as one: where its parts come from (none for zero fill) and how long they are, and its destination. -/
structure Piece where
  srcs : List (Option Nat × Nat)
  dst : Nat
  len : Nat
  deriving DecidableEq, Repr

/-- A signed row step. -/
def pitch (d : DWord) : Int := (d.setWidth 48 : BitVec 48).toInt

def wrap48 (a : Int) : Nat := (a % 2 ^ 48).toNat

/-- A run of bytes in pieces that cross no line at either end and no chunk of 64 KiB (R132); `unit` bounds them further. -/
def runPieces (unit : Nat) : Nat → Nat → Nat → Nat → Nat → List Piece
  | 0, _, _, _, _ => []
  | fuel + 1, a, b, off, len =>
    if len = 0 then [] else
      let n := min (min len unit) (min (min (128 - a % 128) (128 - b % 128)) (65536 - off % 65536))
      ⟨[(some a, n)], b, n⟩ :: runPieces unit fuel (a + n) (b + n) (off + n) (len - n)

def runOf (unit a b off len : Nat) : List Piece := runPieces unit (len + 1) a b off len

/-- R223: the elements of one output row: where each lies, or none for padding. -/
def rowElements (c : CopyCmd) (row : Nat) : List (Option Nat) :=
  let m := c.map
  let o1 := row % (winOut m 1).toNat
  let o2 := row / (winOut m 1).toNat % (winOut m 2).toNat
  let n := row / ((winOut m 1).toNat * (winOut m 2).toNat)
  (List.range (winSize m 2)).flatMap fun (r2 : Nat) => (List.range (winSize m 1)).flatMap fun (r1 : Nat) => (List.range (mapExt m 0)).map fun (e : Nat) =>
    let i1 : Int := o1 * winStr m 1 - winLo m 1 + r1 * winDil m 1
    let i2 : Int := o2 * winStr m 2 - winLo m 2 + r2 * winDil m 2
    if 0 ≤ i1 ∧ i1 < mapExt m 1 ∧ 0 ≤ i2 ∧ i2 < mapExt m 2 then
      some (wrap48 (c.src + e * mapStride m 0 + i1 * mapStride m 1 + i2 * mapStride m 2 + n * mapStride m 3))
    else none

/-- Where output row `q` of the command lies (R223). -/
def rowDst (c : CopyCmd) (q : Nat) : Nat :=
  wrap48 (c.dst + q / walkTrows c.desc * bits (dwAt c.desc 6) 0 32 + q % walkTrows c.desc * bits (dwAt c.desc 5) 0 32)

/-- The elements of a row by aligned words of the destination (R272), `k` in each. -/
def rowWords (k size : Nat) : Nat → Nat → List (Option Nat) → List Piece
  | 0, _, _ => []
  | fuel + 1, d, es => if es.isEmpty then [] else ⟨(es.take k).map fun a => (a, size), d, 4⟩ :: rowWords k size fuel (d + 4) (es.drop k)

def rowPieces (c : CopyCmd) (q : Nat) : List Piece :=
  let m := c.map
  let es := rowElements c (bits (dwAt c.desc 7) 0 32 + q)
  let fill := List.replicate (mapRlen m / mapSize m - es.length) none
  rowWords (4 / mapSize m) (mapSize m) (mapRlen m / 4) (rowDst c q) (es ++ fill)

/-- The pieces of a command, in order. -/
def piecesFor (c : CopyCmd) (unit : Nat) : List Piece :=
  match c.kind with
  | .linear | .lattice => runOf unit c.src c.dst 0 (bits (dwAt c.desc 4) 0 40)
  | .rows =>
    let n := bits (dwAt c.desc 4) 0 32
    (List.range (bits (dwAt c.desc 4) 32 32)).flatMap fun (i : Nat) =>
      runOf unit (wrap48 (c.src + (i : Int) * pitch (dwAt c.desc 5))) (wrap48 (c.dst + (i : Int) * pitch (dwAt c.desc 6))) (n * i) n
  | .walk => (List.range (walkRows c)).flatMap (rowPieces c)

/-- What the progress index counts in a piece (R132): bytes, or for a walk the row that it ends. -/
def pieceBytes (l : List Piece) : Nat := l.foldl (fun n p => n + p.len) 0

def skipBytes (n : Nat) : Nat → List Piece → Nat
  | _, [] => 0
  | done, p :: l => if done < n then 1 + skipBytes n (done + p.len) l else 0

/-- The pieces that a progress index covers. -/
def skipPieces (c : CopyCmd) (unit prog : Nat) : Nat :=
  match c.kind with
  | .walk => ((List.range (min prog (walkRows c))).flatMap (rowPieces c)).length
  | _ => skipBytes prog 0 (piecesFor c unit)

/-! ## Extents (R219) -/

/-- The extents of a command at each end: address and length. -/
def srcExtents (c : CopyCmd) : List (Nat × Nat) :=
  let m := c.map
  match c.kind with
  | .linear | .lattice => [(c.src, bits (dwAt c.desc 4) 0 40)]
  | .rows => (List.range (bits (dwAt c.desc 4) 32 32)).map fun (i : Nat) => (wrap48 (c.src + i * pitch (dwAt c.desc 5)), bits (dwAt c.desc 4) 0 32)
  | .walk => [(c.src, (List.range 4).foldl (fun n k => n + (mapExt m k - 1) * mapStride m k) (mapSize m))]

def dstExtents (c : CopyCmd) : List (Nat × Nat) :=
  match c.kind with
  | .linear | .lattice => [(c.dst, bits (dwAt c.desc 4) 0 40)]
  | .rows => (List.range (bits (dwAt c.desc 4) 32 32)).map fun (i : Nat) => (wrap48 (c.dst + i * pitch (dwAt c.desc 6)), bits (dwAt c.desc 4) 0 32)
  | .walk => (List.range (walkRows c)).map fun q => (rowDst c q, mapRlen c.map)

/-- Which ends of a command lie on this node (R217). -/
def State.copyK (s : State) (c : CopyCmd) : KRegs := s.k.withCube c.cube
def State.peerOf (s : State) (c : CopyCmd) : BitVec 14 := if c.kind = .lattice then (s.copyK c).peer c.set.toNat else s.k.nodeId
def State.srcAway (s : State) (c : CopyCmd) : Bool := c.kind == .lattice && c.pull && s.peerOf c != s.k.nodeId
def State.dstAway (s : State) (c : CopyCmd) : Bool := c.kind == .lattice && !c.pull && s.peerOf c != s.k.nodeId

/-- What admission finds. -/
inductive Admission where
  | ok | waits | fault (t : Trap) | stop (f : Fault)
  deriving DecidableEq, Repr

def Admission.and (a : Admission) (b : Unit → Admission) : Admission :=
  match a with
  | .ok => b ()
  | .waits => (match b () with | .ok => .waits | x => x)
  | x => x

def admitAll {α : Type} (f : α → Admission) : List α → Admission
  | [] => .ok
  | x :: l => (f x).and fun _ => admitAll f l

/-- R207, R214, R218: a scratchpad extent of a command. -/
def State.admitSp (s : State) (c : CopyCmd) (write : Bool) (x : Nat × Nat) : Admission :=
  let v := vaultOf x.1
  if !spExtent x.1 x.2 then .fault { cause := .scratchpadAddress }
  else if c.sup then .ok
  else if !write && !c.rmask.getLsbD v then .fault { cause := .vaultDiscipline }
  else if write && (c.rmask.getLsbD v || c.wmask.getLsbD v) then .fault { cause := .vaultDiscipline }
  else if s.ownedBy c.job v then .ok
  else if s.vaultComing c.job v then .waits
  else .fault { cause := .vaultOwnership }

/-- The pages that an extent of global memory meets. -/
def pagesOf (a n : Nat) : List Nat := if n = 0 then [] else (List.range ((a + n - 1) / 65536 - a / 65536 + 1)).map fun i => a / 65536 * 65536 + 65536 * i

def State.globalAt (s : State) (c : CopyCmd) (a : Nat) (acc : Access) (pol : BitVec 32) : Except Issue Xlat :=
  let va : VAddr := BitVec.ofNat 48 a
  if c.sup then s.translate va acc pol
  else if va.getLsbD 47 || decide (va.toNat < 0x10000000) then .error (.trap { cause := .address, eva := va })
  else s.page .copy c.job va acc pol

/-- R219, R250: the pages of a global extent are translated; poison is met only when they are used (R220, R249). -/
def State.admitGlobal (s : State) (c : CopyCmd) (acc : Access) (pol : BitVec 32) (x : Nat × Nat) : Admission :=
  admitAll (fun a =>
    match s.globalAt c (max a x.1) acc pol with
    | .ok _ => .ok
    | .error (.trap t) => .fault t
    | .error (.halt f) => .stop f
    | .error _ => .ok) (pagesOf x.1 x.2)

/-- The peer's signal word, when the peer is this node itself. -/
def State.psigHere (s : State) (c : CopyCmd) : Bool := c.kind == .lattice && c.psigOn && s.peerOf c == s.k.nodeId

/-- R207: an extent on the peer, whose scratchpad is laid out as this node's; who owns it, and its pages, the peer says (R214, R250). -/
def admitFar (global : Bool) (x : Nat × Nat) : Admission :=
  if global || spExtent x.1 x.2 then .ok else .fault { cause := .scratchpadAddress }

/-- R219: admission. -/
def State.copyAdmits (s : State) (c : CopyCmd) : Admission :=
  let src : Admission :=
    if s.srcAway c then admitAll (admitFar c.srcGlobal) (srcExtents c)
    else if c.srcGlobal then admitAll (s.admitGlobal c .read c.spol) (srcExtents c)
    else admitAll (s.admitSp c false) (srcExtents c)
  let dst (_ : Unit) : Admission :=
    if s.dstAway c then admitAll (admitFar c.dstGlobal) (dstExtents c)
    else if c.dstGlobal then admitAll (s.admitGlobal c .write c.dpol) (dstExtents c)
    else admitAll (s.admitSp c true) (dstExtents c)
  let sig (_ : Unit) : Admission := if c.sigOn then s.admitSp c true (c.sigAddr, 8) else .ok
  let psig (_ : Unit) : Admission :=
    if s.psigHere c then s.admitSp c true (c.psigAddr, 8) else if c.kind == .lattice && c.psigOn then admitFar false (c.psigAddr, 8) else .ok
  ((src.and dst).and sig).and psig

/-! ## Issue (R217, R218, R224) -/

/-- A block of the scratchpad that a command is read from. -/
def State.readBlock (s : State) (a : Nat) : Except Issue (List DWord) := do
  check (a % 64 == 0) .copyDescriptor
  s.spCheck a 64 .read
  .ok (Memory.dwords s.sp a 8)

def State.polField (s : State) (d : DWord) (lo : Nat) : BitVec 32 := s.srcY (bits d lo 3)

/-- The policy registers that a descriptor names are read (R69). -/
def polReads (d : List DWord) : List TUnit :=
  (if (dwAt d 0).getLsbD 48 then [.y (bits (dwAt d 0) 49 3)] else []) ++ (if (dwAt d 1).getLsbD 48 then [.y (bits (dwAt d 1) 49 3)] else [])
    ++ (if (dwAt d 2).getLsbD 31 then [.y (bits (dwAt d 2) 28 3)] else [])

/-- R221: the commands that the engine has accepted; held ones count from their release. -/
def State.copiesOut (s : State) : Nat :=
  s.eng.copies.length + s.buf.countP fun e => e.state != .opened && (match e.op with | .copy _ => true | _ => false)

/-- The command that a CPY reads (R217, R218, R224). -/
def State.cpyCommand (s : State) (kind : CopyKind) (x : SSrc) (set : Option DWord) (res : Bool) : Except Issue CopyCmd := do
  s.needRegion
  let a := s.srcS x
  check (bits a 28 36 == 0) .copyDescriptor
  let node ← match set with
    | some y => s.targetOf y
    | none => .ok s.k.nodeId
  check (!s.lost node) .partnerLost
  let desc ← s.readBlock (bits a 0 28)
  check (copyCommonOk desc && copyKindOk kind desc) .copyDescriptor
  let map ← if kind = .walk then s.readBlock (bits (dwAt desc 4) 0 28) else .ok []
  let (rm, wm) := match s.rgn with | some r => (r.rmask, r.wmask) | none => (0, 0)
  let c : CopyCmd :=
    { id := s.nextId, slot := s.seq.bun.slot, seq := s.seq.count, since := (match s.rgn with | some r => r.seq | none => s.seq.count),
      job := s.k.jobtag, kind := kind, desc := desc, map := map, spol := s.polField (dwAt desc 0) 49, dpol := s.polField (dwAt desc 1) 49,
      sigpol := s.polField (dwAt desc 2) 28, set := BitVec.ofNat 14 (match set with | some y => KRegs.setOf y | none => 0), res := res,
      prog := 0, rmask := rm, wmask := wm, region := s.rgn.map (·.id), sup := s.k.priv, cube := s.k.cube, leaves := [], invals := [], data := [],
      admitted := s.k.priv, waitsVault := false, out := [], sent := false }
  check (kind != .walk || mapOk c) .copyDescriptor
  check (!(kind == .lattice && c.pull && c.srcGlobal) || isSymmetric (BitVec.ofNat 48 c.src)) .copyDescriptor
  check (!(kind == .lattice && !c.pull && c.dstGlobal) || isSymmetric (BitVec.ofNat 48 c.dst)) .copyDescriptor
  .ok { c with prog := if res then skipPieces c 4 s.progress else 0 }

/-- A program's command joins the engine's queue, or the store buffer when its destination is global memory (R122, R221, R224). -/
def State.cpyQueue (s : State) (c : CopyCmd) : Issue := issueOf (do
  let es : List Effect := .reads (polReads c.desc) :: (if c.res then [.resumes] else [])
  await (decide (s.copiesOut < 32)) 0x0A
  if c.dstGlobal then
    s.bufRoom 1
    .ok (es ++ [.buffer (newEntry 1 c.dpol [] (.copy c))])
  else .ok (es ++ [.setEng { s.eng with copies := s.eng.copies ++ [c] }, .ids 1]))

/-! ## Running (R219 to R226) -/

/-- The command numbered `id`, in the engine or held in the open region. -/
def State.findCopy (s : State) (id : Nat) : Option CopyCmd :=
  (s.eng.copies ++ s.buf.filterMap fun e => match e.op with | .copy c => some c | _ => none).find? fun c => c.id == id

/-- Replace a command wherever it stands. -/
def State.setCopy (s : State) (c : CopyCmd) : State :=
  { s with
    eng := { s.eng with copies := s.eng.copies.map fun x => if x.id = c.id then c else x }
    buf := s.buf.map fun e => match e.op with | .copy x => if x.id = c.id then { e with op := .copy c } else e | _ => e }

/-- The pages of global memory that a command translates (R219). -/
def State.copyPages (s : State) (c : CopyCmd) : List Nat :=
  let pages (xs : List (Nat × Nat)) : List Nat := xs.flatMap fun x => pagesOf x.1 x.2
  (if c.srcGlobal && !s.srcAway c then pages (srcExtents c) else []) ++ (if c.dstGlobal && !s.dstAway c then pages (dstExtents c) else [])

/-- R219: the leaves of these pages, which the command keeps, and the TLBs with them. -/
def State.copyLeaves (s : State) (job : BitVec 16) : List Nat → List TlbEntry × Tlb
  | [] => ([], s.tlb)
  | a :: l =>
    match s.leaf .copy job (BitVec.ofNat 48 a) with
    | .ok (e, lvl, tlb) =>
      let (ls, t) := State.copyLeaves { s with tlb := tlb } job l
      (tlbOf job (BitVec.ofNat 48 a) e lvl .copy :: ls, t)
    | .error _ => State.copyLeaves s job l

/-- The command with the translations that it keeps. -/
def State.withLeaves (s : State) (c : CopyCmd) : State × CopyCmd :=
  let (ls, tlb) := s.copyLeaves c.job (s.copyPages c)
  ({ s with tlb := tlb }, { c with leaves := ls, admitted := true, waitsVault := false })

def State.copyGone (s : State) (id : Nat) : State :=
  { s with
    eng := { s.eng with copies := s.eng.copies.filter fun c => c.id != id }
    buf := s.buf.filter fun e => match e.op with | .copy c => c.id != id || !c.res | _ => true }

def execCopyAdmission (s : State) : Host.Outcome State Fault Refusal :=
  match s.findCopy s.ev.id with
  | none => .next s
  | some c =>
    if c.admitted then .next s
    else
      match s.copyAdmits c with
      | .ok => .next (let (s1, c1) := s.withLeaves c; s1.setCopy c1)
      | .waits => .next (s.setCopy { c with waitsVault := true })
      | .stop f => .fault f
      | .fault t =>
        match s.rgn with
        | some r => if c.region = some r.id then .next ((s.copyGone c.id).faultOf c.slot c.seq t) else .next ((s.copyGone c.id).engineFault c.job 5 t.eva)
        | none => .next ((s.copyGone c.id).engineFault c.job 5 t.eva)

/-- Where one end of a piece lies, by the translation that the command keeps; poison met here is an engine error, but the physical window
knows none (R219, R220, R233, R249). -/
def State.endAt (s : State) (c : CopyCmd) (away global : Bool) (a : Nat) (pol : BitVec 32) : Option Xlat :=
  let va : VAddr := BitVec.ofNat 48 a
  if away then some ⟨.remote (s.peerOf c) va, physAttr, s.tlb⟩
  else if !global then some ⟨.spad a, physAttr, s.tlb⟩
  else if va.getLsbD 47 then (if c.sup then some ⟨.here (bits va 0 37), physAttr, s.tlb⟩ else none)
  else
    match c.leaves.find? fun t => t.covers c.job va with
    | none => none
    | some t =>
      match (s.copyK c).homeOf t.entry t.level va with
      | .ok (.here pa) => if s.poisoned pa then none else some ⟨.here pa, leafAttr t.entry pol va, s.tlb⟩
      | .ok l => some ⟨l, leafAttr t.entry pol va, s.tlb⟩
      | .error _ => none

def isHere : Loc → Bool | .here _ | .spad _ => true | _ => false

/-- The packet fields of one end on another node. -/
def farInfo (l : Loc) (scratch : Bool) (pol : BitVec 32) (n : Nat) : RouteInfo :=
  { flow := polClass pol, space := (match l with | .peer .. => 1 | _ => if scratch then 2 else 0), scope := polScope pol,
    type := if n = 4 then 1 else if n = 2 then 5 else 6, addr := BitVec.ofNat 48 (locAddr l) }

/-- One piece moves, or its request is sent. -/
inductive PieceStep where
  | done (s : State) (c : CopyCmd) | full | failed
  deriving DecidableEq, Repr

def State.srcEnd (s : State) (c : CopyCmd) (a : Nat) : Option Xlat := s.endAt c (s.srcAway c) c.srcGlobal a c.spol
def State.dstEnd (s : State) (c : CopyCmd) (a : Nat) : Option Xlat := s.endAt c (s.dstAway c) c.dstGlobal a c.dpol

def Fab.tagParts (f : Fab) (tag : Nat) (ps : List (Nat × Nat × Nat)) : Fab :=
  { f with reqs := f.reqs.map fun q => if q.rtag = tag then { q with parts := ps } else q }

/-- A run of bytes is written at its destination, or sent there. -/
def State.writePiece (s : State) (c : CopyCmd) (dst : Nat) (bs : List Byte) : PieceStep :=
  match s.dstEnd c dst with
  | none => .failed
  | some y =>
    if isHere y.loc then .done (s.writeHome y.loc y.attr bs none) c
    else if s.maySend c.job (s.homeNode y.loc) (polClass c.dpol) then
      let r := farInfo y.loc (!c.dstGlobal) c.dpol bs.length
      let (f, tag) := s.fab.request s.clock s.k.nodeId (.copy c.id) 6 (s.homeNode y.loc) c.job
        (if bs.length ≤ 4 then { r with d3 := BitVec.ofNat 64 (leNat bs) } else r) (if bs.length ≤ 4 then [] else bs)
      .done { s with fab := f } { c with out := c.out ++ [tag] }
    else .full

/-- The parts of a piece with where each lies, and where in the piece. -/
def State.pieceParts (s : State) (c : CopyCmd) : Nat → List (Option Nat × Nat) → Option (List (Nat × Nat × Option Xlat))
  | _, [] => some []
  | off, (a, n) :: l =>
    match (match a with | none => some none | some a => (s.srcEnd c a).map some), State.pieceParts s c (off + n) l with
    | some x, some r => some ((off, n, x) :: r)
    | _, _ => none

/-- The bytes of a part that this node holds. -/
def State.partBytes (s : State) (x : Nat × Nat × Option Xlat) : List Byte :=
  match x.2.2 with | some y => s.readHome y.loc x.2.1 | none => List.replicate x.2.1 0

def partFar (x : Nat × Nat × Option Xlat) : Bool := match x.2.2 with | some y => !isHere y.loc | none => false

/-- The lines that are read take the priority of the access (R243). -/
def State.touchParts (s : State) (l : List (Nat × Nat × Option Xlat)) : State :=
  l.foldl (fun s x => match x.2.2 with | some y => { s with l2 := s.touch y.loc y.attr false } | none => s) s

/-- The aligned word of another node that holds a part. -/
def wordLoc (x : Xlat) : Loc :=
  match x.loc with
  | .peer n a => .peer n (a / 4 * 4)
  | .remote n va => .remote n (va &&& ~~~3#48)
  | l => l

/-- Requests for the words that hold the parts of a piece on other nodes (R272), one for each word; none when a flow is full. -/
def State.askWords (s : State) (c : CopyCmd) (dst : Nat) (far : List (Nat × Nat × Option Xlat)) : List Loc → Option (State × CopyCmd)
  | [] => some (s, c)
  | l :: rest =>
    if s.maySend c.job (s.homeNode l) (polClass c.spol) then
      let ps := far.filterMap fun (off, n, x) => match x with
        | some y => if wordLoc y = l then some (locAddr y.loc - locAddr l, n, dst + off) else none
        | none => none
      let (f, tag) := s.fab.request s.clock s.k.nodeId (.copy c.id) 4 (s.homeNode l) c.job (farInfo l (!c.srcGlobal) c.spol 4) []
      State.askWords { s with fab := f.tagParts tag ps } { c with out := c.out ++ [tag] } dst far rest
    else none

/-- R217: of rows that overlap the later one holds what they share: a piece waits while what an earlier row has for a byte of it is being read
on another node, is kept, or is on its way there. -/
def State.pieceWaits (s : State) (c : CopyCmd) (p : Piece) : Bool :=
  let meets (a n : Nat) : Bool := decide (a < p.dst + p.len ∧ p.dst < a + n)
  let far (q : Req) : Bool := match s.dstEnd c p.dst with
    | some y => !isHere y.loc && q.target == s.homeNode y.loc && q.va == BitVec.ofNat 48 (locAddr y.loc)
    | none => false
  c.kind == .rows && (c.data.any (fun x => meets x.1 x.2.length)
    || s.fab.reqs.any fun q => q.who == .copy c.id && (if q.parts.isEmpty then far q else q.parts.any fun x => meets x.2.2 x.2.1))

/-- One piece: what lies here moves at once; words of other nodes are asked for, and what is known of the piece is kept till they come. -/
def State.movePiece (s : State) (c : CopyCmd) (p : Piece) : PieceStep :=
  match s.pieceParts c 0 p.srcs with
  | none => .failed
  | some parts =>
    if s.pieceWaits c p then .full else
    let next (c : CopyCmd) : CopyCmd := { c with prog := c.prog + 1 }
    if parts.any partFar then
      let far := parts.filter partFar
      let near := (parts.filter fun x => !partFar x).map fun x => (p.dst + x.1, s.partBytes x)
      match (s.touchParts (parts.filter fun x => !partFar x)).askWords { c with data := c.data ++ near } p.dst far ((far.filterMap fun x => x.2.2.map wordLoc).dedup) with
      | some (s1, c1) => .done s1 (next c1)
      | none => .full
    else
      match (s.touchParts parts).writePiece c p.dst (parts.flatMap s.partBytes) with
      | .done s1 c1 => .done s1 (next c1)
      | x => x

/-- The bytes that a command has read of one aligned word of its destination. -/
def wordData (d : List (Nat × List Byte)) (w : Nat) : List (Nat × List Byte) := d.filter fun x => x.1 / 4 == w / 4

/-- Words that are complete are written, until a flow is full (R272). -/
def State.writeData (s : State) (c : CopyCmd) : List Nat → State × CopyCmd × Bool
  | [] => (s, c, true)
  | w :: l =>
    let ds := wordData c.data w
    if pieceLen ds = 4 then
      let bs := (List.range 4).flatMap fun i => (ds.find? fun x => x.1 % 4 == i).elim [] (·.2)
      match s.writePiece { c with data := c.data.filter fun x => x.1 / 4 != w / 4 } (w / 4 * 4) bs with
      | .done s1 c1 => State.writeData s1 c1 l
      | .full => (s, c, true)
      | .failed => (s, c, false)
    else State.writeData s c l
where
  /-- How many bytes there are. -/
  pieceLen (l : List (Nat × List Byte)) : Nat := l.foldl (fun n x => n + x.2.length) 0

/-- Pieces in order until `n` have moved, a flow is full, or one fails. -/
def State.movePieces (s : State) (c : CopyCmd) : Nat → List Piece → State × CopyCmd × Bool
  | 0, _ => (s, c, true)
  | _, [] => (s, c, true)
  | n + 1, p :: l =>
    match s.movePiece c p with
    | .done s1 c1 => State.movePieces s1 c1 n l
    | .full => (s, c, true)
    | .failed => (s, c, false)

/-- The size of pieces: words when an end may lie on another node, so that each travels in one packet. -/
def State.copyUnit (s : State) (c : CopyCmd) : Nat :=
  if c.res || s.srcAway c || s.dstAway c || c.leaves.any (fun t => bits t.entry 40 14 != 0) then 4 else 1024

/-- A command reads words of other nodes that have not come. -/
def State.copyReads (s : State) (c : CopyCmd) : Bool := s.fab.reqs.any fun q => q.who == .copy c.id && !q.parts.isEmpty

/-- Every piece has moved or been asked for, and nothing that was read is left to write. -/
def State.copyIssued (s : State) (c : CopyCmd) : Bool :=
  decide ((piecesFor c (s.copyUnit c)).length ≤ c.prog) && c.data.isEmpty && !s.copyReads c

/-- R215, R221, R226: the payload is done: the signal, and the peer's. -/
def State.copySignals (s : State) (c : CopyCmd) : State :=
  let s1 := if c.sigOn then s.writeHome (.spad c.sigAddr) physAttr (toBytes 8 c.sigVal.toNat) (some (s.k.nodeId, polScope c.sigpol)) else s
  if c.kind = .lattice ∧ c.psigOn then
    if s.peerOf c = s.k.nodeId then
      (s1.writeHome (.spad c.psigAddr) physAttr (toBytes 8 (dwAt c.desc 7).toNat) (some (s.k.nodeId, polScope c.sigpol))).copyGone c.id
    else
      let (f, tag) := s1.fab.request s1.clock s1.k.nodeId (.copy c.id) 6 (s.peerOf c) c.job
        { flow := polClass c.sigpol, space := 2, scope := polScope c.sigpol, sync := 2, type := 3, addr := BitVec.ofNat 48 c.psigAddr, d3 := dwAt c.desc 7 } []
      { s1 with fab := f }.setCopy { c with sent := true, out := [tag] }
  else s1.copyGone c.id

/-- R219, R221: a command may move: it is admitted, no earlier command of the node is unfinished (of those that the buffer still
holds, none with a signal to write, and none that writes global memory as it does), and its global reads wait for the entries of earlier
regions. -/
def State.copyReady (s : State) (c : CopyCmd) : Bool :=
  c.admitted && !(s.eng.copies.any fun x => decide (x.id < c.id))
    && !(s.buf.any fun e => match e.op with
      | .copy x => decide (x.id < c.id) && (x.sigOn || (x.kind == .lattice && x.psigOn) || c.dstGlobal)
      | _ => false)
    && !(c.srcGlobal && s.buf.any fun e => e.state != .opened && decide (e.seq < c.since))

/-- Nothing of the payload is under way any more. -/
def CopyCmd.settled (c : CopyCmd) : Bool := c.out.isEmpty && c.data.isEmpty

/-- What has been read is written, and then `n` pieces of a command move at most; a push sends them over its set (R406). -/
def State.movePart (s : State) (c : CopyCmd) (n : Nat) (ps : List Piece) : State × CopyCmd × Bool :=
  match s.writeData c (c.data.map (·.1)) with
  | (s1, c1, true) =>
    let (s2, c2, ok) := s1.movePieces c1 n ps
    (if c2.prog = c.prog then s2 else s2.dataLeaves c.job c.region c.pushes, c2, ok)
  | r => r

/-- `n` pieces of a command at most, and its end when there are no more. -/
def State.runCopy (s : State) (c : CopyCmd) (n : Nat) : State :=
  let ps := piecesFor c (s.copyUnit c)
  let (s1, c1, ok) := s.movePart c n (ps.drop c.prog)
  if !ok then (s1.copyGone c.id).engineFault c.job 5 (BitVec.ofNat 48 c.src)
  else if ps.length ≤ c1.prog ∧ c1.settled then s1.copySignals c1
  else s1.setCopy c1

/-- R221, R224: a command of the supervisor is performed at its issue; while it waits for earlier commands or for other nodes its bundle
stalls. -/
def State.cpyDirect (s : State) (c : CopyCmd) : Host.Outcome State Fault Refusal :=
  match s.directOf with
  | 0 =>
    if 32 ≤ s.copiesOut then s.settle (.stall 0x0A) else
    match s.copyAdmits c with
    | .fault t => s.settle (.trap t)
    | .stop f => .fault f
    | _ =>
      let (s1, c1) := s.withLeaves c
      let s2 : State := { s1 with eng := { s1.eng with copies := s1.eng.copies ++ [c1] }, nextId := s1.nextId + 1 }
      let s3 := if s2.copyReady c1 then s2.runCopy c1 (piecesFor c1 (s2.copyUnit c1)).length else s2
      if s3.eng.copies.any fun x => x.id == c.id then s3.settle (.pause [.direct (c.id + 1)] 0x0B) else .next s3
  | i + 1 => if s.eng.copies.any fun x => x.id == i then s.settle (.stall 0x0B) else .next s

def State.cpyIssue (s : State) (kind : CopyKind) (x : SSrc) (set : Option DWord) (res : Bool) : Host.Outcome State Fault Refusal :=
  match s.cpyCommand kind x set res with
  | .error i => s.settle i
  | .ok c => if s.k.priv then s.cpyDirect c else s.settle (s.cpyQueue c)

def execCpyl (x : SSrc) (res : Bool) (s : State) : Host.Outcome State Fault Refusal := s.cpyIssue .linear x none res
def execCpy2 (x : SSrc) (res : Bool) (s : State) : Host.Outcome State Fault Refusal := s.cpyIssue .rows x none res
def execCpyw (x : SSrc) (res : Bool) (s : State) : Host.Outcome State Fault Refusal := s.cpyIssue .walk x none res
def execCpyx (x y : SSrc) (res : Bool) (s : State) : Host.Outcome State Fault Refusal := s.cpyIssue .lattice x (some (s.srcS y)) res

/-- How far the progress index stands after the next chunk of a copy, and the pieces that lead there: 64 KiB of payload, or one row of
a walk. -/
def copyChunk (c : CopyCmd) (prog : Nat) : Nat × Nat :=
  let total := if c.kind = .walk then walkRows c else pieceBytes (piecesFor c 4)
  let next := min total (if c.kind = .walk then prog + 1 else (prog / 65536 + 1) * 65536)
  (next, skipPieces c 4 next)

/-- Every chunk has committed. -/
def State.chunksDone (s : State) (c : CopyCmd) : Bool := decide ((copyChunk c s.progress).1 ≤ s.progress)

/-- R132: a resumable command moves its payload chunk by chunk; here it only ends. -/
def State.copyPieces (s : State) (c : CopyCmd) : Nat := if c.res then 0 else (piecesFor c (s.copyUnit c)).length

def execCopyComplete (s : State) : Host.Outcome State Fault Refusal :=
  match s.findCopy s.ev.id with
  | some c =>
    if c.sent then .next (if c.out.isEmpty then s.copyGone c.id else s)
    else if s.copyReady c && (if c.res then s.chunksDone c else s.eng.copies.contains c) then .next (s.runCopy c (s.copyPieces c))
    else .next s
  | none => .next s

/-! ## Synchronisation (R227 to R231) -/

def condCode : WCond → Nat | .eq => 0 | .ne => 1 | .ge => 2
def condHolds : WCond → Nat → Nat → Bool
  | .eq, a, b => a == b
  | .ne, a, b => a != b
  | .ge, a, b => decide (b ≤ a)

/-- R228: the word is read when the wait ends; the trace record counts the clocks waited. -/
def State.waitaIssue (s : State) (c : WCond) (x y : SSrc) : Issue := issueOf (do
  s.needRegion
  let a := bits (s.srcS x) 0 28
  check (a % 8 == 0 && spExtent a 8) .scratchpadAddress
  check (s.k.priv || s.vaultOwned (vaultOf a)) .vaultOwnership
  if condHolds c (Memory.word s.sp a 8) (s.srcS y).toNat then
    .ok [.trace 2 (condCode c) (BitVec.ofNat 64 s.seq.waited)]
  else .error (.stall 0))

def State.sigwIssue (s : State) (set x y : SSrc) (p : Nat) : Issue := issueOf (do
  s.needRegion
  let pol := s.srcY p
  let node ← s.targetOf (s.srcS set)
  let a := bits (s.srcS x) 0 28
  let v := s.srcS y
  check (a % 8 == 0 && spExtent a 8) .scratchpadAddress
  let fl := endFlags (if polRelease pol && !s.k.inScope (polScope pol) node then flagScopeMiss else 0)
  if node = s.k.nodeId then
    check (s.k.priv || s.discipline (vaultOf a) .neither) .vaultDiscipline
    check (s.k.priv || s.vaultOwned (vaultOf a)) .vaultOwnership
    if s.k.priv then .ok (s.homeEffects (.spad a) physAttr (toBytes 8 v.toNat) (s.relOf pol node))
    else
      s.bufRoom 1
      .ok (.buffer (newEntry 1 pol [] (.sigw node a v)) :: fl)
  else
    check (!s.lost node) .partnerLost
    if s.k.priv then s.directly (s.askPeer 6 node { s.sigInfo node a pol false with d3 := v }) (fun _ => [])
    else
      s.bufRoom 1
      let (f, tag) ← s.checkSent s.nextId 6 node (s.sigInfo node a pol true)
      .ok (.setFab f :: .buffer (newEntry 1 pol [tag] (.sigw node a v)) :: fl))

/-- What BACQ and BREL do when they act at once (supervisor mode). -/
def State.actNow (s : State) (op : BufOp) : List Effect :=
  let s1 := s.commitEntry { newEntry 1 0 [] op with job := s.k.jobtag }
  [.setVaults s1.vaults, .setAcqs s1.acqs, .ids (s1.nextId - s.nextId)]

/-- R230, R405: a quarantined vault is refused. -/
def State.bacqIssue (s : State) (x : SSrc) : Issue := issueOf (do
  s.needRegion
  let m : BitVec 32 := (s.srcS x).setWidth 32
  check (bits (s.srcS x) 32 32 == 0) .vaultOwnership
  check ((maskVaults m).all fun v => match s.vaults[v]? with | some y => !y.quarantined | none => false) .vaultOwnership
  if s.k.priv then .ok (s.actNow (.acquire m))
  else
    s.bufRoom 1
    .ok [.buffer (newEntry 1 0 [] (.acquire m))])

/-- R214: a vault that the region names is not given up. -/
def State.brelIssue (s : State) (x : SSrc) : Issue := issueOf (do
  s.needRegion
  let m : BitVec 32 := (s.srcS x).setWidth 32
  check (bits (s.srcS x) 32 32 == 0) .vaultOwnership
  check (match s.rgn with | some r => (r.rmask ||| r.wmask) &&& m == 0 | none => true) .vaultOwnership
  if s.k.priv then .ok (s.actNow (.release m))
  else
    s.bufRoom 1
    .ok [.buffer (newEntry 1 0 [] (.release m))])

/-- R282: the copy engine has issued the last write of a command: its signal, or the last of its payload. -/
def State.copyIdle (s : State) (c : CopyCmd) : Bool := c.sent || (!c.sigOn && !(c.kind == .lattice && c.psigOn) && s.copyIssued c)

/-- R231: work of the current job that an engine has not finished. -/
def State.engineBusy (s : State) (job : BitVec 16) (i : Nat) : Bool :=
  match i with
  | 0 => s.eng.copies.any (fun c => c.job == job && !s.copyIdle c)
      || s.buf.any fun e => e.job == job && e.state != .opened && (match e.op with | .copy _ => true | _ => false)
  | 1 => s.xch.ports.any fun js => js.any fun j => j.job == job && j.recs.any fun r => r.phase != .done
  | 2 => s.buf.any fun e => e.job == job && e.state != .opened && (match e.op with | .mcast .. => true | _ => false)
  | _ => s.eng.gram.any fun g => g.job == job

def State.waiteIssue (s : State) (x : SSrc) : Issue := issueOf (do
  s.needRegion
  let m := s.srcS x
  check (bits m 4 60 == 0) .engineMask
  await (!((List.range 4).any fun i => m.getLsbD i && s.engineBusy s.k.jobtag i)) 0x06
  .ok [])

def execWaita (c : WCond) (x y : SSrc) (s : State) : Host.Outcome State Fault Refusal := s.settle (s.waitaIssue c x y)
def execSigw (set x y : SSrc) (p : Nat) (s : State) : Host.Outcome State Fault Refusal := s.settle (s.sigwIssue set x y p)
def execBacq (x : SSrc) (s : State) : Host.Outcome State Fault Refusal := s.settle (s.bacqIssue x)
def execBrel (x : SSrc) (s : State) : Host.Outcome State Fault Refusal := s.settle (s.brelIssue x)
def execWaite (x : SSrc) (s : State) : Host.Outcome State Fault Refusal := s.settle (s.waiteIssue x)

/-! ## Vault ownership (R211 to R213) -/

/-- Engine work of a job that still names a vault. -/
def CopyCmd.names (c : CopyCmd) (v : Nat) : Bool :=
  let far := c.kind == .lattice && c.set != 0
  (!c.srcGlobal && !(far && c.pull) && (srcExtents c).any fun x => vaultOf x.1 == v)
    || (!c.dstGlobal && !(far && !c.pull) && (dstExtents c).any fun x => vaultOf x.1 == v)
    || (c.sigOn && vaultOf c.sigAddr == v) || (c.kind == .lattice && !far && c.psigOn && vaultOf c.psigAddr == v)

def XchRec.names (r : XchRec) (v : Nat) : Bool :=
  (r.sendLen != 0 && vaultOf r.src == v) || (r.recvLen != 0 && vaultOf r.dst == v) || vaultOf r.sigAddr == v

def GramCmd.names (g : GramCmd) (v : Nat) : Bool :=
  match g.op with
  | .mask _ a _ => vaultOf a == v || vaultOf g.bind.context == v
  | .sample p0 _ _ _ _ _ => vaultOf (bits p0 0 28) == v || vaultOf (bits p0 28 28) == v

def State.vaultInUse (s : State) (job : BitVec 16) (v : Nat) : Bool :=
  s.eng.copies.any (fun c => c.job == job && c.names v)
    || s.buf.any (fun e => e.job == job && (match e.op with | .copy c => c.names v | _ => false))
    || s.xch.ports.any (fun js => js.any fun j => j.job == job && j.recs.any fun r => r.phase != .done && r.names v)
    || s.eng.gram.any fun g => g.job == job && g.names v

/-- R213: the vault `num` is free when no engine work of its owner names it. -/
def execVaultReleaseComplete (s : State) : Host.Outcome State Fault Refusal :=
  match s.vaults[s.ev.num]? with
  | some v =>
    if v.state = .releasing ∧ !s.vaultInUse v.owner s.ev.num then
      .next { s with vaults := s.vaults.set s.ev.num { v with state := .free, last := some v.owner } }
    else .next s
  | none => .next s

/-- R211: scrubbing takes 12,288 clocks, and every byte then reads zero. -/
def State.scrubbed (s : State) (n : Nat) : State :=
  match s.vaults[n]? with
  | some v =>
    if v.state = .scrubbing ∧ v.scrubEnd ≤ s.clock then
      { s with
        vaults := s.vaults.set n { v with state := .owned, last := some v.owner }
        sp := Memory.clear s.sp (0x800000 * n) 0x600000 }
    else s
  | none => s

/-- R212: a grant to a job: through scrubbing when another job owned the vault last. -/
def grantVault (clock : Nat) (job : BitVec 16) (v : Vault) : Vault :=
  if v.state = .owned ∧ v.owner = job then v
  else if v.last = none ∨ v.last = some job then { v with state := .owned, owner := job, last := some job }
  else { v with state := .scrubbing, owner := job, scrubEnd := clock + 12288 }

/-- R212: whether an acquisition can be granted now. -/
def State.grantable (s : State) (a : Acq) : Bool :=
  (maskVaults a.vaults).all fun i =>
    match s.vaults[i]? with
    | some v => !v.quarantined && (v.state == .free || (v.owner == a.job && (v.state == .owned || v.state == .releasing)))
    | none => false

/-- R212, R377: among the acquisitions that can be granted, the highest priority and then the oldest. -/
def pickAcq : List Acq → Option Acq
  | [] => none
  | a :: l => match pickAcq l with | some b => if a.prio < b.prio then some b else some a | none => some a

/-- The acquisition that takes the free vault `num`, or the whole set of its own. -/
def State.nextGrant (s : State) : Option Acq := pickAcq (s.acqs.filter s.grantable)

end Sys2Proof.Machine
end

