-- ==== Sys2Proof/Machine/Exchange.lean ====
section
/-! DEFINITION. The exchange ports (11_exchange R295 to R322): the exchange instructions, posts and admission, data, acknowledgements
and signals. -/

namespace Sys2Proof.Machine

/-! ## What an instruction asks of each port (R312 to R318) -/

/-- R317: the element size of a combine. -/
def combElem (op : Nat) : Nat := if op = 1 then 8 else if op = 2 then 16 else 4

def srcLen (x : DWord) : Nat := bits x 28 28
def srcAddr (x : DWord) : Nat := bits x 0 28
def dstAddr (y : DWord) : Nat := bits y 0 28
/-- R303: the signal word and value. -/
def sigWord (y : DWord) : Nat := bits y 41 5 * 2 ^ 23 + bits y 28 13 * 8
def sigValue (y : DWord) (sighi : Nat) : DWord := BitVec.ofNat 64 (sighi % 256 * 2 ^ 18 + bits y 46 18)

/-- The part of an exchange that one port does, before its number is known: its physical dimension and its record. -/
structure Leg where
  port : Nat
  rcd  : XchRec
  deriving DecidableEq, Repr

def kindCode : XchKind → Nat | .exch => 0 | .exsb => 1 | .trav => 2 | .excc op => 3 + 4 * op

/-- R305: what must agree. The set is part of it for TRAV and EXMD alone. -/
def matchOf (k : XchKind) (md : Bool) (set : Nat) (dir : Nat) (x : DWord) : XchMatch :=
  ⟨BitVec.ofNat 52 (kindCode k + 128 * (if md then 1 else 0) + 256 * dir + 512 * set), BitVec.ofNat 64 (srcLen x)⟩

/-- A record with nothing sent. -/
def State.newRec (s : State) (k : XchKind) (f : XchMatch) (x y : DWord) (partner : BitVec 14) (sighi : Nat) (res : Bool) : XchRec :=
  { slot := s.seq.bun.slot, seq := s.seq.count, xseq := 0, kind := k, fields := f, x := x, y := y, partner := partner,
    src := srcAddr x, sendLen := 0, dst := dstAddr y, recvLen := 0, own := 0, first := false, far := 0,
    limit := 0, sent := 0, acked := 0, landed := 0, phase := .posted, group := s.nextId, sigAddr := sigWord y, sigVal := sigValue y sighi,
    region := s.rgn.map (·.id), commits := s.k.priv, sup := s.k.priv, res := res, again := false }

/-- The exchange of one kind across logical dimension `d` (R313, R314, R316). -/
def State.legAcross (s : State) (k : XchKind) (md : Bool) (set d : Nat) (x y : DWord) (sighi : Nat) (res : Bool) : Leg :=
  let r := s.newRec k (matchOf k md set 0 x) x y (s.k.peer (2 ^ d)) sighi res
  let n := srcLen x
  let up := s.k.lnode.getLsbD d
  let r := match k with
    | .exsb => if up then { r with sendLen := n } else { r with recvLen := n }
    | .excc _ =>
      let l := n / 2
      if up then { r with sendLen := l, recvLen := l, own := srcAddr x + l }
      else { r with src := srcAddr x + l, sendLen := l, recvLen := l, own := srcAddr x, first := true }
    | _ => { r with sendLen := n, recvLen := n }
  ⟨mapDim s.k.dimmap d, { r with limit := r.sendLen }⟩

/-- The dimension in which two neighbours differ. -/
def portBetween (a b : BitVec 14) : Nat := ((List.range 14).find? fun i => (a ^^^ b).getLsbD i).getD 0

/-- R315: one step along the Gray ring. -/
def State.travLegs (s : State) (set : Nat) (dir : Dir) (x y : DWord) (sighi : Nat) : List Leg :=
  let k := (KRegs.setDims set).length
  let q := s.k.pos set
  let next := s.k.ring set ((q + 1) % 2 ^ k)
  let prev := s.k.ring set ((q + 2 ^ k - 1) % 2 ^ k)
  let (dst, src, code) := match dir with | .fwd => (next, prev, 0) | .bwd => (prev, next, 1)
  let f := matchOf .trav false set code x
  let n := srcLen x
  let out := s.newRec .trav f x y dst sighi false
  if dst = src then [⟨portBetween s.k.nodeId dst, { out with sendLen := n, recvLen := n, limit := n }⟩]
  else
    [⟨portBetween s.k.nodeId dst, { out with sendLen := n, limit := n }⟩,
      ⟨portBetween s.k.nodeId src, { s.newRec .trav f x y src sighi false with recvLen := n }⟩]

/-- The descriptors of dimension number `j` of an EXMD (R318): the address alone moves. -/
def moved (v : DWord) (j stride : Nat) : DWord := (v &&& 0xFFFFFFFFF0000000#64) ||| BitVec.ofNat 64 ((bits v 0 28 + j * stride * 2 ^ 23) % 2 ^ 28)

def xkindOf : XKind → XchKind | .exch => .exch | .exsb => .exsb | .excc op => .excc op

/-! ## Checks (R293, R304, R319) -/

/-- What one port's descriptors must satisfy. An extent of no bytes (R302: LEN 0 moves no data) is checked for its alignment alone: no byte range
is touched (R120). -/
def State.legCheck (s : State) (l : Leg) : Except Issue Unit := do
  let r := l.rcd
  let e := match r.kind with | .excc op => combElem op | _ => 4
  let n := srcLen r.x
  let a := srcAddr r.x
  let sends := decide (r.sendLen ≠ 0) || (n == 0 && (r.kind != .exsb || s.k.nodeId.getLsbD l.port))
  let recvs := decide (r.recvLen ≠ 0) || (n == 0 && (r.kind != .exsb || !s.k.nodeId.getLsbD l.port))
  let dlen := match r.kind with | .excc _ => n / 2 | _ => n
  check (bits r.x 56 8 == 0) .exchangeDescriptor
  check (n % (match r.kind with | .excc _ => 2 * e | _ => 4) == 0) .exchangeDescriptor
  check (!sends || a % e == 0) .exchangeDescriptor
  check (!recvs || r.dst % e == 0) .exchangeDescriptor
  check (match r.kind with | .excc _ => n == 0 || vaultOf a != vaultOf r.dst | _ => true) .exchangeDescriptor
  let sends := sends && n != 0
  let recvs := recvs && n != 0
  check (!sends || spExtent a n) .scratchpadAddress
  check (!recvs || spExtent r.dst dlen) .scratchpadAddress
  check (spExtent r.sigAddr 8) .scratchpadAddress
  check (s.k.priv || !sends || s.discipline (vaultOf a) .read) .vaultDiscipline
  check (s.k.priv || !recvs || s.discipline (vaultOf r.dst) .neither) .vaultDiscipline
  check (s.k.priv || s.discipline (vaultOf r.sigAddr) .neither) .vaultDiscipline
  if sends then s.ownOrWait a
  if recvs then s.ownOrWait r.dst
  s.ownOrWait r.sigAddr

/-! ## Ports (R305, R311) -/

def PortJob.fresh (job : BitVec 16) : PortJob := ⟨job, 0, [], []⟩

def Xch.at (x : Xch) (d : Nat) (job : BitVec 16) : PortJob :=
  (((x.ports[d]?).getD []).find? fun j => j.job == job).getD (.fresh job)

def Xch.put (x : Xch) (d : Nat) (j : PortJob) : Xch :=
  let js := (x.ports[d]?).getD []
  { x with ports := x.ports.set d (if js.any (fun k => k.job == j.job) then js.map fun k => if k.job = j.job then j else k else js ++ [j]) }

def PortJob.setRec (j : PortJob) (r : XchRec) : PortJob := { j with recs := j.recs.map fun x => if x.xseq = r.xseq then r else x }

def State.putPort (s : State) (d : Nat) (j : PortJob) : State := { s with xch := s.xch.put d j }

/-! ## Packets (R296, R306, R307) -/

def xseqWord (x : BitVec 12) : Nat := x.toNat * 2 ^ 52

/-- The post of an exchange. -/
def State.postOf (s : State) (job : BitVec 16) (r : XchRec) : Packet :=
  exchangePacket 1 1 s.k.nodeId r.partner job 0 r.dst (BitVec.ofNat 64 (xseqWord r.xseq + r.fields.code.toNat)) r.fields.len 0 0 []

def Packet.fields (p : Packet) : XchMatch := ⟨BitVec.ofNat 52 (bits p.trailer 128 52), p.dw 3⟩

/-- Outgoing data from `sent` up to the record's limit, in packets of at most 16 flits. -/
def State.stream (s : State) (d : Nat) (job : BitVec 16) (r : XchRec) : Nat → State × XchRec
  | 0 => (s, r)
  | fuel + 1 =>
    if r.limit ≤ r.sent then (s, r)
    else
      let n := min 1024 (r.limit - r.sent)
      let p := exchangePacket 0 1 s.k.nodeId r.partner job r.sent (r.far + r.sent) (BitVec.ofNat 64 (xseqWord r.xseq)) 0 0 0
        (Memory.bytes s.sp (r.src + r.sent) n)
      State.stream (s.hop d 1 p) d job { r with sent := r.sent + n } fuel

/-- R406: what has gone counts. -/
def State.streamRec (s : State) (d : Nat) (job : BitVec 16) (r : XchRec) : State :=
  let (s1, r1) := s.stream d job r (r.limit / 1024 + 1)
  let dims : BitVec 14 := match (s.kOf job).logicalDim d with | some i => BitVec.twoPow 14 i | none => 0
  let s1 := if r1.sent = r.sent then s1 else s1.dataLeaves job (if r.commits then none else r.region) dims
  s1.putPort d ((s1.xch.at d job).setRec r1)

/-- R308: the records of a port stream in XSEQ order, each after the last flit of the one before it. -/
def State.streamRecs (s : State) (d : Nat) (job : BitVec 16) : List XchRec → State
  | [] => s
  | r :: l =>
    match r.phase with
    | .done => State.streamRecs s d job l
    | .posted => if r.sendLen = 0 then State.streamRecs s d job l else s
    | .admitted => if r.sendLen ≤ r.limit then State.streamRecs (s.streamRec d job r) d job l else s.streamRec d job r

def State.streamPort (s : State) (d : Nat) (job : BitVec 16) : State := s.streamRecs d job (s.xch.at d job).recs

/-! ## Admission (R306, R214) -/

/-- The vaults that a record uses are owned by the job. -/
def State.legOwned (s : State) (job : BitVec 16) (r : XchRec) : Bool :=
  r.sup || ((r.sendLen == 0 || s.ownedBy job (vaultOf r.src)) && (r.recvLen == 0 || s.ownedBy job (vaultOf r.dst))
    && s.ownedBy job (vaultOf r.sigAddr))

inductive Admit where
  | no | mismatch | yes (s : State)
  deriving DecidableEq, Repr

/-- The exchange with number `x` on port `d` is admitted when the partner's post is here and agrees, and its vaults are owned. -/
def State.admitRec (s : State) (d : Nat) (job : BitVec 16) (x : BitVec 12) : Admit :=
  let j := s.xch.at d job
  match j.recs.find? fun r => r.xseq == x && r.phase == .posted, j.posts.find? fun p => p.xseq == x with
  | some r, some p =>
    if p.fields ≠ r.fields then .mismatch
    else if s.legOwned job r then
      let r1 := { r with phase := .admitted, far := p.xaddr }
      .yes ((s.putPort d ({ j with posts := j.posts.erase p }.setRec r1)).streamPort d job)
    else .no
  | _, _ => .no

/-! ## Completion (R307, R308) -/

def XchRec.finished (r : XchRec) : Bool :=
  r.phase == .admitted && r.sent == r.sendLen && r.acked == r.sendLen && r.landed == r.recvLen

/-- Every record of a group is finished, and everything before it on its ports is done. -/
def Xch.groupReady (x : Xch) (job : BitVec 16) (g : Nat) : Bool :=
  (List.range 14).all fun d =>
    let rs := (x.at d job).recs
    let pre := rs.takeWhile fun r => r.group != g
    !(rs.any fun r => r.group == g) || (pre.all (fun r => r.phase == .done) && rs.all fun r => r.group != g || r.finished)

def Xch.finishGroup (x : Xch) (job : BitVec 16) (g : Nat) : Xch :=
  { x with ports := x.ports.map fun js => js.map fun j =>
      if j.job = job then
        { j with recs := (j.recs.map fun r => if r.group = g then { r with phase := .done } else r).filter fun r => !(r.commits && r.phase == .done) }
      else j }

/-- The signal word is written once, as a release at node scope. -/
def State.writeSignal (s : State) (r : XchRec) : State :=
  s.writeHome (.spad r.sigAddr) physAttr (toBytes 8 r.sigVal.toNat) (some (s.k.nodeId, 0))

/-- Every exchange of a job whose turn has come completes. -/
def State.xchComplete (s : State) (job : BitVec 16) : Nat → State
  | 0 => s
  | n + 1 =>
    let open_ := (List.range 14).flatMap fun d => (s.xch.at d job).recs.filter fun r => r.phase == .admitted
    match open_.find? fun r => s.xch.groupReady job r.group with
    | none => s
    | some r => State.xchComplete ({ s with xch := s.xch.finishGroup job r.group }.writeSignal r) job n

/-- At most 16 exchanges wait on each of 14 ports. -/
def State.xchSettle (s : State) (job : BitVec 16) : State := s.xchComplete job 225

/-! ## Issue (R305, R306, R309) -/

/-- The mismatch fault of an exchange (R306). -/
def mismatchTrap : Trap := { cause := .exchangeMismatch, uclass := 15 }

/-- R301: the partner-lost fault of an exchange names the logical dimension (log 87). -/
def State.lostAcross (s : State) (port : Nat) : Trap :=
  { cause := .partnerLost, dims := match s.k.logicalDim port with | some l => BitVec.twoPow 14 l | none => 0 }

def State.partnerHere (s : State) (port : Nat) (partner : BitVec 14) : Except Issue Unit :=
  if s.lost partner then .error (.trap (s.lostAcross port)) else .ok ()

/-- What has come to pass on the port once a record stands there: a disagreement stays for the admission to find (R306). -/
def State.admitNow (s : State) (port : Nat) (job : BitVec 16) (x : BitVec 12) : State :=
  match s.admitRec port job x with
  | .yes s1 => s1
  | _ => s

/-- One port's part: a replay of a record that it still holds, which counts as admitted at once (R309, log 43), or a new number, a post, and
admission if the partner's post is here. -/
def State.issueLeg (s : State) (l : Leg) : Except Issue State := do
  let job := s.k.jobtag
  let j := s.xch.at l.port job
  match j.recs.find? fun r => r.xseq == j.xseq with
  | some r => do
    check (r.fields == l.rcd.fields && r.x == l.rcd.x && r.y == l.rcd.y) .exchangeReplay
    if r.phase = .posted then s.partnerHere l.port r.partner
    let r1 := { r with slot := l.rcd.slot, seq := l.rcd.seq, region := l.rcd.region, commits := l.rcd.commits, again := true }
    .ok ((s.putPort l.port { j.setRec r1 with xseq := j.xseq + 1 }).admitNow l.port job r.xseq)
  | none => do
    s.partnerHere l.port l.rcd.partner
    await (decide ((j.recs.countP fun r => r.phase != .done) < 16)) 0x0A
    let r := { l.rcd with xseq := j.xseq }
    .ok (((s.putPort l.port { j with recs := j.recs ++ [r], xseq := j.xseq + 1 }).hop l.port 1 (s.postOf job r)).admitNow l.port job r.xseq)

def State.issueLegs (s : State) : List Leg → Except Issue State
  | [] => .ok s
  | l :: ls => do
    let s1 ← s.issueLeg l
    State.issueLegs s1 ls

/-- R309: the group of an instruction that replays a record is the record's own. -/
def Xch.groupOf (x : Xch) (job : BitVec 16) (ls : List Leg) : Option Nat :=
  ls.findSome? fun l => ((x.at l.port job).recs.find? fun r => r.xseq == (x.at l.port job).xseq).map (·.group)

/-- The end of an issue: numbers, posts and what was admitted; an exchange that has completed, now or in the first run of a replay,
writes its signal. -/
def State.exchIssue (s : State) (legs : Except Issue (List Leg)) (res : Bool) : Issue := issueOf (do
  s.needRegion
  let ls ← legs
  ls.forM s.legCheck
  let g := (s.xch.groupOf s.k.jobtag ls).getD s.nextId
  let ls := ls.map fun l => { l with rcd := { l.rcd with group := g } }
  let s1 := (← s.issueLegs ls).xchSettle s.k.jobtag
  let live := (List.range 14).any fun d => (s1.xch.at d s.k.jobtag).recs.any fun r => r.group == g && r.phase != .done
  let sig := match ls with
    | l :: _ => if live then [] else
        [.sp l.rcd.sigAddr (toBytes 8 l.rcd.sigVal.toNat), .setRtags (tagWrite s.rtags (.spad l.rcd.sigAddr) 8 (some (s.k.nodeId, 0)))]
    | [] => []
  .ok ((if res then [.resumes] else []) ++ [.setXch s1.xch, .setFab s1.fab, .ids 1] ++ sig))

/-- R293: one logical dimension. -/
def State.dimOk (s : State) (d : Nat) : Except Issue Unit := check (s.k.consistent && decide (d < s.k.m)) .dimension

def State.oneDim (s : State) (k : XchKind) (d : Nat) (x y : SSrc) (sighi : Nat) : Issue :=
  s.exchIssue (do s.dimOk d; .ok [s.legAcross k false 0 d (s.srcS x) (s.srcS y) sighi false]) false

def State.travIssue (s : State) (set x y : SSrc) (dir : Dir) (sighi : Nat) : Issue :=
  s.exchIssue (do
    let v := s.srcS set
    check (s.k.setOk v false && KRegs.setOf v != 0) .dimension
    .ok (s.travLegs (KRegs.setOf v) dir (s.srcS x) (s.srcS y) sighi)) false

/-- R318. -/
def State.exmdIssue (s : State) (set x y : SSrc) (k : XKind) (res : Bool) (sighi : Nat) : Issue :=
  s.exchIssue (do
    let v := s.srcS set
    check (s.k.setOk v true && KRegs.setOf v != 0) .dimension
    let ds := KRegs.setDims (KRegs.setOf v)
    let stride := bits v 16 5
    check (stride != 0 || decide (ds.length < 2)) .exchangeDescriptor
    check (ds.zipIdx.all fun (d, j) =>
      let one := xkindOf k == .exsb
      let up := s.k.lnode.getLsbD d
      ((one && !up) || decide (vaultOf (srcAddr (s.srcS x)) + j * stride < 32))
        && ((one && up) || decide (vaultOf (dstAddr (s.srcS y)) + j * stride < 32))) .scratchpadAddress
    .ok (ds.zipIdx.map fun (d, j) =>
      let l := s.legAcross (xkindOf k) true (KRegs.setOf v) d (moved (s.srcS x) j stride) (moved (s.srcS y) j stride) sighi res
      if res then { l with rcd := { l.rcd with limit := min l.rcd.sendLen (s.progress + 65536) } } else l)) res

def execExch (dim : Nat) (x y : SSrc) (sighi : Nat) (s : State) : Host.Outcome State Fault Refusal := s.settle (s.oneDim .exch dim x y sighi)
def execExsb (dim : Nat) (x y : SSrc) (sighi : Nat) (s : State) : Host.Outcome State Fault Refusal := s.settle (s.oneDim .exsb dim x y sighi)
def execTrav (set x y : SSrc) (dir : Dir) (sighi : Nat) (s : State) : Host.Outcome State Fault Refusal := s.settle (s.travIssue set x y dir sighi)
def execExccFsum (dim : Nat) (x y : SSrc) (sighi : Nat) (s : State) : Host.Outcome State Fault Refusal := s.settle (s.oneDim (.excc 0) dim x y sighi)
def execExccIsum (dim : Nat) (x y : SSrc) (sighi : Nat) (s : State) : Host.Outcome State Fault Refusal := s.settle (s.oneDim (.excc 1) dim x y sighi)
def execExccLsum (dim : Nat) (x y : SSrc) (sighi : Nat) (s : State) : Host.Outcome State Fault Refusal := s.settle (s.oneDim (.excc 2) dim x y sighi)
def execExccFmax (dim : Nat) (x y : SSrc) (sighi : Nat) (s : State) : Host.Outcome State Fault Refusal := s.settle (s.oneDim (.excc 3) dim x y sighi)
def execExccFmin (dim : Nat) (x y : SSrc) (sighi : Nat) (s : State) : Host.Outcome State Fault Refusal := s.settle (s.oneDim (.excc 4) dim x y sighi)
def execExccImax (dim : Nat) (x y : SSrc) (sighi : Nat) (s : State) : Host.Outcome State Fault Refusal := s.settle (s.oneDim (.excc 5) dim x y sighi)
def execExccImin (dim : Nat) (x y : SSrc) (sighi : Nat) (s : State) : Host.Outcome State Fault Refusal := s.settle (s.oneDim (.excc 6) dim x y sighi)
def execExccBand (dim : Nat) (x y : SSrc) (sighi : Nat) (s : State) : Host.Outcome State Fault Refusal := s.settle (s.oneDim (.excc 7) dim x y sighi)
def execExccBor (dim : Nat) (x y : SSrc) (sighi : Nat) (s : State) : Host.Outcome State Fault Refusal := s.settle (s.oneDim (.excc 8) dim x y sighi)
def execExmd (set x y : SSrc) (k : XKind) (res : Bool) (sighi : Nat) (s : State) : Host.Outcome State Fault Refusal :=
  s.settle (s.exmdIssue set x y k res sighi)

/-! ## Arrivals (R306 to R311) -/

/-- The open region issued a record in this pass; or the supervisor did, and runs still (R401). -/
def State.issuedHere (s : State) (r : XchRec) : Bool :=
  if r.sup then s.k.priv else
  match s.rgn with
  | some g => r.region == some g.id && !g.again && decide (g.seq ≤ r.seq)
  | none => false

/-- Held posts meet the records of a job that wait for them: an agreement admits, a disagreement faults in the open region. -/
def State.admitJob (s : State) (job : BitVec 16) : List (Nat × XchRec) → State
  | [] => s
  | (d, r) :: l =>
    match s.admitRec d job r.xseq with
    | .yes s1 => State.admitJob s1 job l
    | .mismatch => if s.issuedHere r then s.faultOf r.slot r.seq mismatchTrap else State.admitJob s job l
    | .no => State.admitJob s job l

def State.posted (s : State) (job : BitVec 16) : List (Nat × XchRec) :=
  (List.range 14).flatMap fun d => ((s.xch.at d job).recs.filter fun r => r.phase == .posted).map fun r => (d, r)

/-- R306, R309: the records whose admission a commit waits for. -/
def State.unadmitted (s : State) (job : BitVec 16) : List (Nat × XchRec) := (s.posted job).filter fun x => !x.2.again

/-- R306: a record of the open region whose partner's post stands here and disagrees. -/
def State.disagreement (s : State) : Option XchRec :=
  ((s.posted s.k.jobtag).find? fun x =>
    s.issuedHere x.2 && (s.xch.at x.1 s.k.jobtag).posts.any fun p => p.xseq == x.2.xseq && p.fields != x.2.fields).map (·.2)

/-- Admission of everything that can be, and what then completes. -/
def State.admitAllOf (s : State) (job : BitVec 16) : State := (s.admitJob job (s.posted job)).xchSettle job

def State.portFrom (s : State) (p : Packet) : Nat := portBetween s.k.nodeId p.src

/-- R300: a post that a detour has brought a second time: it waits here, its exchange has been admitted, or its number is past. -/
def PortJob.known (j : PortJob) (x : BitVec 12) : Bool :=
  j.posts.any (fun q => q.xseq == x) || j.recs.any (fun r => r.xseq == x && r.phase != .posted)
    || (!(j.recs.any fun r => r.xseq == x) && decide (0 < (j.xseq - x).toNat ∧ (j.xseq - x).toNat ≤ 2048))

/-- R306, R311: a post is held until the exchange with its number is issued here. A partner has at most 16 exchanges that are not
complete, so at most 16 of its posts wait. -/
def State.postArrives (s : State) (p : Packet) : State :=
  let d := s.portFrom p
  let j := s.xch.at d p.job
  if j.known p.xseq then s else (s.putPort d { j with posts := j.posts ++ [p] }).admitAllOf p.job

/-- R317: COMB of elements, with the STATUS bits that it sets. -/
def lsumComb (a b : Nat) : Nat × Flags :=
  let ca := (cellOfPattern a).1
  let cb := (cellOfPattern b).1
  let sum := ca.n.toInt + cb.n.toInt
  let t := ca.tag.join cb.tag
  let wraps := decide (t = .fin) && (decide (sum < -(2 ^ 127)) || decide (2 ^ 127 - 1 < sum))
  ((({ n := ca.n + cb.n, tag := t, count := 0 } : Cell).pattern).toNat, flagIf wraps flagAnchOvf)

def comb (op : Nat) (a b : Nat) : Nat × Flags :=
  let sg (n : Nat) : Int := Int.bmod n (2 ^ 32)
  match op with
  | 0 => fpAdd fmtF32 .rne a b
  | 1 => ((a + b) % 2 ^ 64, 0)
  | 2 => lsumComb a b
  | 3 => (fpMax fmtF32 a b, 0)
  | 4 => (fpMin fmtF32 a b, 0)
  | 5 => (if sg a < sg b then b else a, 0)
  | 6 => (if sg b < sg a then b else a, 0)
  | 7 => (a &&& b, 0)
  | _ => (a ||| b, 0)

/-- Elements of `e` bytes, `own` the bytes here and `far` those that arrive. -/
def combBytes (op e : Nat) (first : Bool) : Nat → List Byte → List Byte → List Byte × Flags
  | 0, _, _ => ([], 0)
  | n + 1, own, far =>
    let a := leNat (own.take e)
    let b := leNat (far.take e)
    let (v, f) := if first then comb op a b else comb op b a
    let (l, g) := combBytes op e first n (own.drop e) (far.drop e)
    (toBytes e v ++ l, f ||| g)

/-- The acknowledgement of what has landed: its OFFSET is the number of bytes (log 22). -/
def State.xchAck (s : State) (job : BitVec 16) (r : XchRec) : Packet :=
  exchangePacket 2 1 s.k.nodeId r.partner job r.landed 0 (BitVec.ofNat 64 (xseqWord r.xseq)) 0 0 0 []

/-- R307, R310, R316: incoming data; a vault that is not the job's refuses it, which is recorded here (log 38). The packets of a stream come in its
order; one that a detour has brought a second time is acknowledged again (R300). -/
def State.dataArrives (s : State) (p : Packet) : State :=
  let d := s.portFrom p
  let j := s.xch.at d p.job
  match j.recs.find? fun r => r.xseq == p.xseq && r.phase != .done with
  | none => s
  | some r =>
    if p.offset ≠ r.landed then s.hop d 1 (s.xchAck p.job r) else
    let bs := p.payload.take (r.recvLen - p.offset)
    let a := r.dst + p.offset
    let held := match s.vaults[vaultOf a]? with
      | some v => v.owner == p.job && !v.quarantined && (v.state == .owned || (v.state == .releasing && r.phase == .admitted))
      | none => false
    if !r.sup && !held then s.engineFault p.job 5 0
    else
      let (out, fl) := match r.kind with
        | .excc op => combBytes op (combElem op) r.first (bs.length / combElem op) (Memory.bytes s.sp (r.own + p.offset) bs.length) bs
        | _ => (bs, 0)
      let s1 := (s.writeHome (.spad a) physAttr out none).setStatus fl
      let r1 := { r with landed := r.landed + bs.length }
      let s2 := (s1.putPort d (j.setRec r1)).hop d 1 (s1.xchAck p.job r1)
      s2.xchSettle p.job

/-- R307: the partner has taken bytes. -/
def State.ackArrives (s : State) (p : Packet) : State :=
  let d := s.portFrom p
  let j := s.xch.at d p.job
  match j.recs.find? fun r => r.xseq == p.xseq && r.phase == .admitted with
  | none => s
  | some r => (s.putPort d (j.setRec { r with acked := max r.acked p.offset })).xchSettle p.job

def execExchangePostArrival (s : State) : Host.Outcome State Fault Refusal := .next (s.postArrives s.ev.packet)
def execExchangeDataArrival (s : State) : Host.Outcome State Fault Refusal := .next (s.dataArrives s.ev.packet)
def execExchangeAckArrival (s : State) : Host.Outcome State Fault Refusal := .next (s.ackArrives s.ev.packet)

/-! ## Engine errors (R220) -/

/-- R220, R402: the admitted work of the engines with this number stops and writes no signal word: a copy, an exchange, a grammar command, a
multicast that has committed or its serial stream. -/
def State.commandStops (s : State) (id : Nat) : Option State :=
  (s.eng.copies.find? fun c => c.id == id && c.admitted).map (fun c => (s.copyGone id).engineFault c.job 5 0)
    <|> ((s.xch.ports.flatten.flatMap fun j => j.recs.map fun r => (j.job, r)).find? fun x => x.2.group == id && x.2.phase == .admitted).map
      (fun (job, r) =>
        let s1 := { s with xch := s.xch.finishGroup job r.group }
        (((List.range 14).foldl (fun s d => s.streamPort d job) s1).xchSettle job).engineFault job 5 0)
    <|> (s.eng.gram.find? fun g => g.id == id).map
      (fun g => { s with eng := { s.eng with gram := s.eng.gram.filter fun x => x.id != id } }.engineFault g.job 5 0)
    <|> (s.buf.find? fun e => e.id == id && e.state != .opened && (match e.op with | .mcast .. => true | _ => false)).map
      (fun e => { s with
        buf := s.buf.filter (fun x => x.id != id), fab := { s.fab with serial := s.fab.serial.filter fun x => x.id != id } }.engineFault e.job 5 0)

/-- R220: admitted work of an engine meets poison, a soft error or a refusal. -/
def execEngineError (s : State) : Host.Outcome State Fault Refusal := .next ((s.commandStops s.ev.id).getD s)

/-! ## A resumable EXMD (R132, R318) -/

/-- The records of the resumable EXMD of the open region. -/
def State.exmdRecs (s : State) : List (Nat × XchRec) :=
  (List.range 14).flatMap fun d =>
    ((s.xch.at d s.k.jobtag).recs.filter fun r => r.res && r.region == s.rgn.map (·.id)).map fun r => (d, r)

/-- Bytes done on every dimension. -/
def XchRec.progress (r : XchRec) : Nat :=
  let out := if r.acked = r.sendLen then max r.sendLen r.recvLen else r.acked
  let inn := if r.landed = r.recvLen then max r.sendLen r.recvLen else r.landed
  min out inn

/-- The next chunk may be sent. -/
def State.exmdNext (s : State) (prog : Nat) : State :=
  s.exmdRecs.foldl (fun s (d, r) =>
    if r.phase = .admitted then
      let r1 := { r with limit := max r.limit (min r.sendLen (prog + 65536)) }
      (s.putPort d ((s.xch.at d s.k.jobtag).setRec r1)).streamPort d s.k.jobtag
    else s) s

/-! ## Partners that are lost, and vaults that come (R301, R214) -/

/-- R301: exchanges that wait for a quarantined partner raise the partner-lost fault in their open region. -/
def State.partnersLost (s : State) : State :=
  match (s.posted s.k.jobtag).find? fun x => s.lost x.2.partner && s.issuedHere x.2 with
  | some (d, r) => s.faultOf r.slot r.seq (s.lostAcross d)
  | none => s

end Sys2Proof.Machine
end

