-- ==== Sys2Proof/Machine/Fabric.lean ====
section
/-! DEFINITION. The routed fabric (12_fabric R323 to R349) and the links (11_exchange R295 to R300): multicasts, LSTAT, routing, flows,
responses, and the pilot token. -/

namespace Sys2Proof.Machine

/-! ## Multicasts (R344, R345) -/

/-- The addresses that the checks of a range name: its start, and the start of each further page. -/
def checkAddrs (va n : Nat) : List Nat := (pagesOf va n).map fun a => max a va

/-- R344: the operands of a multicast. -/
def State.mcastIssue (s : State) (ordered : Bool) (set x y : SSrc) (p : Nat) : Issue := issueOf (do
  s.needRegion
  let pol := s.srcY p
  check (s.k.setOk (s.srcS set) false) .dimension
  let d := s.srcS x
  let n := srcLen d
  check (bits d 56 8 == 0 && n % 4 == 0 && decide (4 ≤ n ∧ n ≤ 65536)) .fabricOperand
  let va ← formVa (s.srcS y)
  checkAt (isSymmetric va) .address va
  checkAt (va.toNat % 4 == 0) .memoryAlignment va
  s.spCheck (srcAddr d) n .read
  check (s.k.priv || s.vaultOwned (vaultOf (srcAddr d))) .vaultOwnership
  let dims := BitVec.ofNat 14 (KRegs.setOf (s.srcS set))
  let peers := (spanned s.k.nodeId (s.physMask dims)).filter fun m => m != s.k.nodeId
  checkAt (!(peers.any s.lost) && !(ordered && s.lost (s.serialiser dims))) .partnerLost va
  let own : Except Issue Unit := (checkAddrs va.toNat n).forM fun a =>
    match s.targetLoc s.k.jobtag 0 (BitVec.ofNat 48 a) 4 true with
    | .ok _ => .ok ()
    | .error st => .error (.trap (statusTrap st s.k.nodeId (BitVec.ofNat 48 a)))
  own
  s.bufRoom ((n + 63) / 64)
  let cls := polClass pol
  await (peers.all fun m =>
    let t := s.fab.flowTo s.k.jobtag m cls
    !t.retiring && decide (t.unacked.length + s.loadsFor s.k.jobtag m cls + (checkAddrs va.toNat n).length ≤ 32)) 0x0B
  let rel := polRelease pol && (spanned s.k.nodeId (s.physMask dims)).all (s.k.inScope (polScope pol))
  let (f, tags) := (peers.flatMap fun m => (checkAddrs va.toNat n).map fun a => (m, a)).foldl (fun (f, tags) (m, a) =>
    let r : RouteInfo := { flow := cls, check := true, scope := polScope pol, type := 1, addr := BitVec.ofNat 48 a }
    let (f1, t) := f.request s.clock s.k.nodeId (.bufCheck s.nextId) 6 m s.k.jobtag r []
    (f1, tags ++ [t])) (s.fab, [])
  .ok ([.setFab f, .buffer (newEntry ((n + 63) / 64) pol tags (.mcast ordered dims va (Memory.bytes s.sp (srcAddr d) n))),
      .wait ⟨0, 0, 0, false, false, none, none, 0, none, 0, true, .no, .mcastRead⟩]
    ++ endFlags (if !s.k.priv && polRelease pol && !rel then flagScopeMiss else 0)))

def execMcast (set x y : SSrc) (p : Nat) (s : State) : Host.Outcome State Fault Refusal := s.settle (s.mcastIssue false set x y p)
def execMcasto (set x y : SSrc) (p : Nat) (s : State) : Host.Outcome State Fault Refusal := s.settle (s.mcastIssue true set x y p)

/-! ## LSTAT (R348) -/

def sat16 (n : Nat) : Nat := min n 65535

def State.linkWord (s : State) (d : Nat) : DWord :=
  let l := (s.fab.links[d]?).getD .reset
  BitVec.ofNat 64 (sat16 l.replays * 2 ^ 48 + sat16 l.tagFails * 2 ^ 32 + sat16 l.errors * 2 ^ 16 + linkState s.k.linkstat d)

def State.routerWord (s : State) : DWord :=
  BitVec.ofNat 64 (s.fab.token.drained % 2 ^ 32 * 2 ^ 32 + s.fab.token.lapsSeen.toNat * 2 ^ 16 + sat16 s.fab.resent)

def State.lstatIssue (s : State) (d : SDst) (x : SSrc) : Issue := issueOf (do
  s.needRegion
  let v := s.srcS x
  check (bits v 6 58 == 0 && decide (bits v 4 2 < 2) && (bits v 4 2 == 0 || bits v 0 4 == 0)) .fabricOperand
  if bits v 4 2 = 0 then
    s.dimOk (bits v 0 4)
    .ok [.land 2 0 (.scalar d (s.linkWord (mapDim s.k.dimmap (bits v 0 4))))]
  else .ok [.land 2 0 (.scalar d s.routerWord)])

def execLstat (d : SDst) (x : SSrc) (s : State) : Host.Outcome State Fault Refusal := s.settle (s.lstatIssue d x)

/-! ## Deliveries -/

/-- An accepted packet is the next act that the node takes. -/
def State.pushAct (s : State) (row : Instr) (d : Nat) (p : Packet) : State :=
  { s with inbox := ⟨row, { dim := d, packet := p }⟩ :: s.inbox }

/-- Link-control packets by CTYPE (R385, R391, R405, R407). -/
def controlRow (ctype : Nat) : Option Instr :=
  match ctype with
  | 1 => some .barrierStepArrival | 2 => some .presenceNoticeArrival | 3 => some .fenceNoticeArrival
  | 4 => some .quarantineNoticeArrival | 5 => some .releaseNoticeArrival | 6 => some .ejectionReportArrival | _ => none

/-- The two ends of a flow that is retired tell one another so (R331, log 88): CTYPE 7 asks the destination, 8 is its answer. -/
def retirePacket (src dst : BitVec 14) (job : BitVec 16) (ctype flow : Nat) : Packet :=
  controlPacket src dst job (BitVec.ofNat 64 (ctype + flow * 2 ^ 8))

/-- What a packet that has reached its destination is to the node (R296, R327). -/
def Packet.row (p : Packet) : Option Instr :=
  match p.kind with
  | 0 => some .exchangeDataArrival | 1 => some .exchangePostArrival | 2 => some .exchangeAckArrival
  | 3 => controlRow (bits (p.dw 2) 0 8)
  | 4 | 6 | 7 | 8 | 9 => some .flowPacketArrival
  | 5 => some .remoteResponseArrival | 10 => some .sequenceAckArrival | 11 => some .pilotTokenArrival
  | 12 => some .waitProbeArrival | 13 => some .shootDownArrival | 14 => some .shootDownAckArrival
  | _ => none

/-- R326, R327: reserved values and kinds are discarded and counted. -/
def State.deliver (s : State) (d : Nat) (p : Packet) : State :=
  let ctype := if p.kind = 3 then bits (p.dw 2) 0 8 else 0
  if 4 ≤ p.kind ∧ p.reserved then s.linkError d
  else if ctype = 7 ∨ ctype = 8 then
    { s with inbox := ⟨.flowRetire, { job := p.job, peer := p.src, flow := bits (p.dw 2) 8 5, flag := true, num := ctype - 7 }⟩ :: s.inbox }
  else if ctype = 12 then { s with fab := updLink s.fab (bits (p.dw 2) 8 4) fun l => { l with detoured := l.detoured - 1 } }
  else if ctype = 15 then s
  else
    match p.row with
    | some row => s.pushAct row d p
    | none => s.linkError d

/-! ## Router buffers (R324, R329, R338) -/

/-- A packet leaves its buffer, and the next one of its input and lane stands at the head. -/
def Fab.unbuffer (f : Fab) (clock : Nat) (i : Nat) : Fab :=
  match f.bufs[i]? with
  | none => f
  | some b =>
    let rest := f.bufs.eraseIdx i
    match rest.findIdx? fun x => x.lane == b.lane && x.input == b.input with
    | some j => { f with bufs := rest.modify j fun x => { x with since := clock, suspect := false } }
    | none => { f with bufs := rest }

/-- Only the packet at the head of a buffer moves. -/
def Fab.atHead (f : Fab) (i : Nat) : Bool :=
  match f.bufs[i]? with
  | none => false
  | some b => f.bufs.findIdx? (fun x => x.lane == b.lane && x.input == b.input) == some i

def Fab.buffer (f : Fab) (clock lane input : Nat) (p : Packet) : Fab := { f with bufs := f.bufs ++ [⟨lane, input, clock, p, false⟩] }

def usable (f : Fab) (i : Nat) : Bool := f.rtcfg.getLsbD i
def nmMask (f : Fab) : BitVec 14 := BitVec.ofNat 14 (bits f.rtcfg 50 14)
def nmThresh (f : Fab) : Nat := bits f.rtcfg 47 3
def nmOn (f : Fab) : Bool := f.rtcfg.getLsbD 46
/-- R328: the suspect time-out in clocks. -/
def suspectTime (f : Fab) : Nat := max 1 (bits f.rtcfg 30 16) * 64
def tokenTime (f : Fab) : Nat := bits f.rtcfg 14 16 * 65536

/-- Dimensions in which two nodes differ. -/
def differ (a b : BitVec 14) : List Nat := (List.range 14).filter fun i => (a ^^^ b).getLsbD i

/-- The occupancy of an output (R329), as the link's credits show. -/
def occOf (f : Fab) (i : Nat) : Nat := match f.links[i]? with | some l => min 4 (l.inUse 0) | none => 0

def Packet.setNonmin (p : Packet) (v : Bool) (inter : BitVec 14) : Packet :=
  { p with trailer := putBits (putBits p.trailer (64 + 43) 1 (if v then 1 else 0)) (64 + 29) 14 inter.toNat }

/-- R329, R330: INJECT. The intermediate lies in the subcube of the packet's job; a packet of a job that this node does not know takes none. -/
def State.injected (s : State) (rnd : BitVec 14) (p : Packet) : Packet :=
  let prod := (differ s.k.nodeId p.dst).filter (usable s.fab)
  if nmOn s.fab && decide (nmThresh s.fab ≤ 4) && !prod.isEmpty && prod.all (fun i => decide (nmThresh s.fab ≤ occOf s.fab i)) then
    let m := rnd &&& nmMask s.fab &&& ((s.cubeOf p.job).elim 0 (·.submask))
    if m = 0 then p.setNonmin false 0 else p.setNonmin true (s.k.nodeId ^^^ m)
  else p.setNonmin false 0

/-- The least occupied of some outputs, the lowest on a tie. -/
def leastOcc (f : Fab) : List Nat → Option Nat
  | [] => none
  | i :: l => match leastOcc f l with | some j => if occOf f i ≤ occOf f j then some i else some j | none => some i

/-- R299: the path of a detour for dimension `d` by way of `e`, with `left` of its crossings d and e still to come (log 23). -/
def Packet.onDetour (p : Packet) (d e left : Nat) : Packet := { p with path := some (d, e, left) }
def Packet.offDetour (p : Packet) : Packet := { p with path := none }

/-- Where on its detour a packet of the detour lane is at a node. Of an exchange packet its own trailer tells: SRC and DST are the two ends of
the link, and what the node differs from DST in is still to be crossed (R299). -/
def Packet.onWay (p : Packet) (node : BitVec 14) : Option (Nat × Nat × Nat) :=
  match p.path with
  | some x => some x
  | none =>
    if 3 ≤ p.kind then none
    else
      match differ p.src p.dst, differ node p.dst with
      | [d], [] => some (d, d, 0)
      | [d], [e] => some (d, e, 1)
      | [d], [a, b] => some (d, if a = d then b else a, 2)
      | _, _ => none

/-- The far end's acknowledgement of a packet on a detour (R300, log 88). -/
def Packet.detourAck (p : Packet) : Bool := p.kind == 3 && bits (p.dw 2) 0 8 == 12

/-- The first crossing of a detour. -/
def State.detourBy (s : State) (d e lane : Nat) (p : Packet) (held : Option (Nat × Nat)) (wait : Nat × Bool := (0, false)) : State :=
  let f := updLink s.fab e (·.send (if lane = 4 then 4 else 2) (p.onDetour d e 2) held wait)
  { s with fab := updLink f d fun l => { l with detoured := if p.detourAck then l.detoured else l.detoured + 1 } }

/-- A routed packet crosses a dimension by the detour (R299), behind what waits there when the link is down (R300); or it waits. -/
def State.detourSend (s : State) (d : Nat) (p : Packet) (held : Option (Nat × Nat)) (wait : Nat × Bool) : Option State :=
  let e := detourDim s.k.detour d
  match linkState s.k.linkstat d with
  | 2 => some (s.hop d 2 p held wait)
  | 1 => if e < 14 ∧ e ≠ d ∧ linkState s.k.linkstat e = 1 then some (s.detourBy d e 2 p held wait) else none
  | _ => none

/-- R329: ROUTE. `none` when the packet must wait. Its buffer here is its own until it has left on the link (R324). -/
def State.routed (s : State) (d : Nat) (held : Option (Nat × Nat)) (p : Packet) (wait : Nat × Bool := (0, false)) : Option State :=
  let p := if p.nonmin && p.inter == s.k.nodeId then p.setNonmin false p.inter else p
  let goal := if p.nonmin then p.inter else p.dst
  if goal = s.k.nodeId then some ((s.deliver d p).release held)
  else
    let prod := differ s.k.nodeId goal
    match leastOcc s.fab (prod.filter (usable s.fab)) with
    | none => s.detourSend (prod.headD 0) p held wait
    | some i => if occOf s.fab i < 4 then some (s.hop i 0 p held wait) else none

/-- R300, R329: the packet numbered `i` has somewhere to go. -/
def State.canRoute (s : State) (i : Nat) : Bool :=
  match s.fab.bufs[i]? with
  | none => false
  | some b => s.fab.atHead i && ((b.input == 14 && nmOn s.fab) || (s.routed 0 none b.packet).isSome)

/-- One try of the buffered packet number `i`. -/
def State.routeOne (s : State) (i : Nat) : State :=
  match s.fab.bufs[i]? with
  | none => s
  | some b =>
    if !s.fab.atHead i then s
    else
      let p := if b.input = 14 then s.injected (Config.freeRouterRandom s.freeCount) b.packet else b.packet
      let s1 := { s with freeCount := s.freeCount + 1 }
      match { s1 with fab := s1.fab.unbuffer s.clock i }.routed (if b.input < 14 then b.input else 0) (some (b.lane, b.input)) p (b.since, b.suspect) with
      | some s2 => s2
      | none => s1

/-! ### What a link sends next (R325) -/

/-- The oldest packet of a lane that has a buffer of the next router. -/
def Link.first (l : Link) (lane : Nat) : Option Outbound :=
  if lane = 0 ∨ l.inUse lane < laneRoom lane then l.ready.find? fun o => o.lane == lane else none

def Link.choice (l : Link) : Option Outbound :=
  let data := if l.exLast then l.first 0 <|> l.first 1 else l.first 1 <|> l.first 0
  (if l.ctlLast && data.isSome then none else l.first 3)
    <|> l.first 4 <|> (if 2 ≤ l.detRow && data.isSome then none else l.first 2) <|> data

/-- The oldest packet that waits for a link which is down and whose detour can take it; a packet on another's detour waits for the link. -/
def Link.oldest (l : Link) : Option Outbound := l.ready.find? fun o => o.packet.path.isNone

/-- What leaves the port of a dimension next: over the link when it is up and its replay buffer has room (R297, log 31), and its detour is empty:
until then nothing but the acknowledgements of the other end's detour goes (log 24); over the detour in order while it is down (R300). -/
def State.leaving (s : State) (d : Nat) : Option Outbound :=
  match s.fab.links[d]? with
  | none => none
  | some l =>
    match linkState s.k.linkstat d with
    | 1 =>
      if l.replay.length < 64 ∧ !(s.testing 4 && (s.err.selft.any fun t => t.unit_ == d)) then
        (if l.detoured = 0 then l.choice else l.ready.find? fun o => o.packet.detourAck)
      else none
    | 2 => l.oldest
    | _ => none

/-- The runaway buffer of this router is empty again (R340). -/
def State.ranAway (s : State) (o : Outbound) : State := if o.lane = 4 then { s with fab := { s.fab with runaway := none } } else s

def State.transmit (s : State) (d : Nat) : State :=
  match s.leaving d with
  | none => s
  | some o =>
    if linkState s.k.linkstat d = 1 then (({ s with fab := updLink s.fab d (·.put o) }.ranAway o).release o.held)
    else { s with fab := updLink s.fab d fun l => { l with ready := l.ready.erase o } }.detourBy d (detourDim s.k.detour d) o.lane o.packet o.held (o.since, o.suspect)

/-- ROUTE: a router buffer is tried, or, when the act's flag is set, a link takes its next packet. -/
def execRoute (s : State) : Host.Outcome State Fault Refusal := .next (if s.ev.flag then s.transmit s.ev.dim else s.routeOne s.ev.id)

/-- R338: the packet numbered `i` has stood at the head of its buffer, unable to advance, for the time-out. -/
def State.suspectDue (s : State) (i : Nat) : Bool :=
  match s.fab.bufs[i]? with
  | some b => !b.suspect && s.fab.atHead i && !s.canRoute i && decide (b.since + suspectTime s.fab ≤ s.clock)
  | none => false

/-- A packet that has been given its output and still holds its adaptive buffer, since the link has not taken it. -/
def Outbound.adaptive (o : Outbound) : Bool :=
  (o.held.any fun h => h.1 == 0 || h.1 == 2) && (o.lane == 0 || o.lane == 2) && (match o.packet.path with | some x => x.2.2 == 2 | none => true)

def Fab.readyAt (f : Fab) (d i : Nat) : Option Outbound := f.links[d]?.bind fun l => l.ready[i]?

/-- R338: the same of number `i` of the packets that wait for the link of dimension `d`. -/
def State.suspectWaits (s : State) (d i : Nat) : Bool :=
  match s.fab.readyAt d i with
  | some o => o.adaptive && !o.suspect && s.leaving d != some o && decide (o.since + suspectTime s.fab ≤ s.clock)
  | none => false

/-- SUSPECT_TIMEOUT: a packet of a router buffer, or, when the act's flag is set, one that waits for the link of the act's dimension. -/
def execSuspectTimeout (s : State) : Host.Outcome State Fault Refusal :=
  .next (if s.ev.flag then
      (if s.suspectWaits s.ev.dim s.ev.id then
        { s with fab := updLink s.fab s.ev.dim fun l => { l with ready := l.ready.modify s.ev.id fun o => { o with suspect := true } } } else s)
    else if s.suspectDue s.ev.id then { s with fab := { s.fab with bufs := s.fab.bufs.modify s.ev.id fun b => { b with suspect := true } } } else s)

/-! ## Links (R297 to R300) -/

def Packet.goal (p : Packet) : BitVec 14 := if 4 ≤ p.kind ∧ p.kind ≤ 9 ∧ p.nonmin then p.inter else p.dst

/-- R340: a packet on the runaway lane: for this node, or across the lowest dimension in which it differs from DST. It holds the router's
one runaway buffer. -/
def State.runOn (s : State) (d : Nat) (p : Packet) (held : Option (Nat × Nat)) : State :=
  if p.dst = s.k.nodeId then (((s.deliver d p).sendControl (controlPacket s.k.nodeId p.inter p.job 6))).release held
  else ({ s with fab := { s.fab with runaway := some p } }).hop ((differ s.k.nodeId p.dst).headD 0) 4 p held

/-- R299, R329: a packet of the detour lane that has left its detour: a routed one, and a control packet whose destination is further on, goes
on from the detour buffer. -/
def State.offLane2 (s : State) (d : Nat) (p : Packet) : State :=
  if p.kind < 4 ∧ p.dst = s.k.nodeId then (s.deliver d p).release (some (2, d))
  else if p.kind < 3 then (s.linkError d).release (some (2, d))
  else { s with fab := s.fab.buffer s.clock 2 d p }

/-- R299: a packet on a detour crosses the next dimension of its path; at the far end it goes on, and its sender learns that it came
(R300). -/
def State.onPath (s : State) (d : Nat) (p : Packet) (path : Nat × Nat × Nat) : State :=
  let (dd, e, left) := path
  let lane := p.lane
  match left with
  | 0 =>
    let q := p.offDetour
    let s1 := if q.detourAck then s else s.control dd 0 (BitVec.ofNat 64 (12 + dd * 2 ^ 8))
    if lane = 4 then s1.runOn d q (some (4, d)) else s1.offLane2 d q
  | n + 1 => s.hop (if n = 1 then dd else e) lane (p.onDetour dd e n) (some (lane, d))

def State.setToken (s : State) (t : Token) : State := { s with fab := { s.fab with token := t } }

/-- R342: every router notes the generation of a token that passes it, and discards one of a lower generation. -/
def State.sawToken (s : State) (p : Packet) : Option State :=
  let gen := BitVec.ofNat 32 (bits (p.dw 3) 0 32)
  if p.kind ≠ 11 then some s
  else if gen < s.fab.token.maxGen then none
  else some (s.setToken { s.fab.token with maxGen := gen, seen := s.clock })

/-- A packet whose tag and number have checked goes on by its lane (R324). -/
def State.byLane (s : State) (d : Nat) (p : Packet) : State :=
  match p.lane with
  | 0 => { s with fab := s.fab.buffer s.clock 0 d p }
  | 1 => (if p.dst = s.k.nodeId then s.deliver d p else s.linkError d).release (some (1, d))
  | 2 => match p.onWay s.k.nodeId with | some x => s.onPath d p x | none => s.offLane2 d p
  | 3 => if p.dst = s.k.nodeId then (s.deliver d p).release (some (3, d)) else s.sendControl p (some (3, d))
  | 4 => match p.path with | some x => s.onPath d p x | none => s.runOn d p (some (4, d))
  | _ => s.linkError d

def State.accept (s : State) (d : Nat) (p : Packet) : State :=
  match s.sawToken p with
  | some s1 => if p.isFiller then s1.release (some (p.lane, d)) else s1.byLane d p
  | none => s.release (some (p.lane, d))

/-- A link that goes down: what it has sent and nothing has acknowledged waits first at its port again, in its order (R297, R300). -/
def Link.down (l : Link) (ack : Nat) : Link :=
  { l with
    replay := [], failed := 0, asked := 0, asking := false, replaying := false, lseq := 0, expect := 0
    ready := (((l.replay.drop ack).filter fun p => !p.isFiller).map fun p => ⟨p.lane, p, none, 0, false⟩) ++ l.ready }

/-- The packet waits for its first crossing of dimension `e`, on the detour of another dimension. -/
def Outbound.firstOver (o : Outbound) (e : Nat) : Bool := match o.packet.path with | some x => x.2.1 == e && x.2.2 == 2 | none => false

/-- R300: what waits to begin its detour by dimension `e` waits at its own port again, in its order, for the detour that DETOUR will name. -/
def Fab.undetour (f : Fab) (e : Nat) : Fab :=
  let back := ((f.links[e]?).elim [] (·.ready)).filter (·.firstOver e)
  let f1 := updLink f e fun l => { l with ready := l.ready.filter fun o => !o.firstOver e }
  (List.range 14).foldl (fun f d =>
    let mine := back.filter fun o => o.packet.path.any fun x => x.1 == d
    updLink f d fun l => { l with
      ready := (mine.map fun o => { o with packet := o.packet.offDetour }) ++ l.ready
      detoured := l.detoured - mine.countP fun o => !o.packet.detourAck }) f1

/-- R297: eight replays of one packet have failed; `ack` packets of the replay buffer had been acknowledged. -/
def State.dropLink (s : State) (d ack : Nat) : State :=
  let f := (updLink s.fab d (·.down ack)).undetour d
  { s with fab := { f with rtcfg := putBits f.rtcfg d 1 0 }, k := s.k.setLink d 2 }

/-- R128: the packet answers a request of the open region. -/
def State.consumed (s : State) (p : Packet) : Bool :=
  p.kind == 5 && s.rgn.isSome && s.fab.reqs.any fun q =>
    q.rtag == p.rtag && (match q.who with | .wait id => s.pipe.waits.any fun w => w.id == id && w.inRgn | .bufCheck _ => true | _ => false)

/-- R128, R402: a tag has failed and the link is severed, so nothing replays its packet: a datum of the open region is lost with it. -/
def State.tagLost (s : State) (d : Nat) (p : Packet) : State :=
  if linkState s.k.linkstat d = 3 ∧ s.consumed p then
    s.endStall.takeTrap { cause := .integrityTag, uclass := 4, unit := d, detail := p.tag.setWidth 16, slotless := true }
  else s

/-- The packets of the replay buffer up to one LSEQ, and those after it. -/
def Link.acked (l : Link) (n : BitVec 8) : Link :=
  if l.replay.any (fun q => q.lseq == n) then { l with replay := (l.replay.dropWhile fun q => q.lseq != n).drop 1, asked := 0 } else l

/-- R297: the other end lacks the packets from one LSEQ on: they are sent again in order. -/
def Link.resend (l : Link) (n : BitVec 8) : Link :=
  { l with out := l.out ++ l.replay.dropWhile (fun q => q.lseq != n), replays := l.replays + 1, asked := l.asked + 1 }

/-- R297, R324: a message of the link protocol (log 88). An end that is asked for a replay while its own request has not been answered asks
again: its request may be what the other end lacks. -/
def State.linkTold (s : State) (d ctype v : Nat) : State :=
  match ctype with
  | 9 => { s with fab := updLink s.fab d (·.acked (BitVec.ofNat 8 v)) }
  | 10 =>
    let l := (s.fab.links[d]?).getD .reset
    let s1 := s.tellLink d 13 0
    let s2 := { s1 with fab := updLink s1.fab d (·.resend (BitVec.ofNat 8 v)) }
    let s3 := if l.asking then s2.tellLink d 10 l.expect.toNat else s2
    if 8 ≤ l.asked then s3.dropLink d 0 else s3
  | 11 => { s with fab := updLink s.fab d (·.give v) }
  | 13 => { s with fab := updLink s.fab d fun l => { l with asking := false, replaying := l.asking || l.replaying } }
  | _ => { s with fab := updLink s.fab d fun l => { l with used := l.used.modify (v % 8) (· + v / 8) } }

/-- The kind of a message of the link protocol. -/
def Packet.told (p : Packet) : Option Nat :=
  let c := bits (p.dw 2) 0 8
  if p.kind = 3 ∧ 9 ≤ c ∧ c ≤ 14 ∧ c ≠ 12 then some c else none

/-- R297: a replay is asked for, from the first packet that is lacking, unless one that has been asked for has not begun. Where one had begun,
that replay has failed; after the eighth the link is down. -/
def State.askReplay (s : State) (d : Nat) (l : Link) : State :=
  if l.asking then s
  else
    let n := if l.replaying then l.failed + 1 else l.failed
    let s1 := { s with fab := updLink s.fab d fun l => { l with asking := true, replaying := false, failed := n, replays := l.replays + 1 } }.tellLink
      d 10 l.expect.toNat
    if 8 ≤ n then s1.dropLink d 0 else s1

/-- R297: a packet on the link of dimension `dim`. A bad tag or a gap in LSEQ discards it, and every later one until a replay; a message that is
lost so may have been the request of a replay. A packet of a number that has come is acknowledged again. -/
def State.linkArrives (s : State) (d : Nat) (p : Packet) : State :=
  let l := (s.fab.links[d]?).getD .reset
  if p.intact then
    match p.told with
    | some c => s.linkTold d c (bits (p.dw 2) 8 8)
    | none =>
      if p.lseq = l.expect then
        ({ s with fab := updLink s.fab d fun l => { l with expect := l.expect + 1, failed := 0, asking := false, replaying := false } }.tellLink
          d 9 p.lseq.toNat).accept d p
      else if (l.expect - p.lseq).toNat ≤ 64 then s.tellLink d 9 (l.expect - 1).toNat
      else s.askReplay d l
  else
    let s1 := { s with fab := updLink s.fab d fun l => { l with tagFails := l.tagFails + 1 } }
    (if l.asking && p.told.isSome then s1.tellLink d 10 l.expect.toNat else s1.askReplay d l).tagLost d p

/-- A quarantined node answers only the control window (R405). -/
def execLinkPacketArrival (s : State) : Host.Outcome State Fault Refusal := .next (s.linkArrives s.ev.dim s.ev.packet)

/-- R298, R300: `count` packets of the replay buffer had been acknowledged; the rest are sent again over the detour, in order. -/
def execLinkDown (s : State) : Host.Outcome State Fault Refusal :=
  .next (if linkState s.k.linkstat s.ev.dim = 1 then s.dropLink s.ev.dim s.ev.count else s)

/-- R324: the buffers of one lane at one input of this router that are in use. -/
def State.occupied (s : State) (d lane : Nat) : Nat :=
  (s.fab.bufs.countP fun b => b.lane == lane && b.input == d) + (s.fab.links.flatMap (·.ready)).countP fun o => o.held == some (lane, d)

/-- A link that comes up: its numbers begin again; of the next router's buffers those are in use that its waiting packets have taken, until the
other end says what it holds. -/
def Link.retrained (l : Link) : Link :=
  { l with
    lseq := 0, expect := 0, failed := 0, asked := 0, asking := false, replaying := false, replay := []
    used := [l.ready.countP fun o => o.lane == 0, 0, 0, 0, 0] }

/-- R300: the link is up; it sends again when every packet on its detour has been acknowledged (log 24). Each end tells the other which buffers
are in use still. -/
def State.repair (s : State) (d : Nat) : State :=
  let live := !s.lost (s.neighbour d)
  let s1 : State := { s with
    k := s.k.setLink d 1
    fab := { updLink s.fab d (·.retrained) with rtcfg := putBits s.fab.rtcfg d 1 (if live then 1 else 0) } }
  (List.range 5).foldl (fun s lane => if s.occupied d lane = 0 then s else s.tellLink d 14 (lane + 8 * s.occupied d lane)) s1

/-- A quarantined link is held down (R405). -/
def execLinkRepair (s : State) : Host.Outcome State Fault Refusal :=
  .next (if s.err.links.getLsbD s.ev.dim then s else s.repair s.ev.dim)

/-! ## What has been done elsewhere (R331, R333, R336, R337) -/

def Fab.dropReq (f : Fab) (tag : Nat) : Fab := { f with reqs := f.reqs.filter fun q => q.rtag != tag }

/-- What an access that waits at its issue learns of its request. -/
def Fab.answer (f : Fab) (q : Req) (node : BitVec 14) (status : Nat) (v : DWord) (keep : Bool) : Fab :=
  { f with answers := f.answers ++ [⟨q.job, q.who, node, q.va, status, v, keep⟩] }

def State.entryBy (s : State) (id : Nat) : Option BufEntry := s.buf.find? fun e => e.id == id

/-- The virtual address that a request of a load or of an entry stands for. -/
def State.requestVa (s : State) (q : Req) : VAddr :=
  match q.who with
  | .wait id => match s.pipe.waits.find? fun w => w.id == id with | some w => (match w.op with | .load va .. => va | _ => q.va) | none => q.va
  | .bufDrain id | .bufCheck id =>
    match s.entryBy id with
    | some e => (match e.op with | .store _ _ va .. | .reduce _ _ va .. | .cache _ va .. => va | _ => q.va)
    | none => q.va
  | _ => q.va

/-- A packet of a draining entry is done with; after the last one the entry is. -/
def State.partDone (s : State) (id tag : Nat) : State :=
  match s.entryBy id with
  | none => s
  | some e =>
    let out := e.out.erase tag
    if out.isEmpty && e.state == .sent then s.entryGone id else s.setEntry { e with out := out }

def State.copyPart (s : State) (id tag : Nat) : State :=
  match s.findCopy id with
  | some c => s.setCopy { c with out := c.out.erase tag }
  | none => s

/-- R272: a word that a copy has read on another node: its bytes, and what of the destination they make complete is written. -/
def State.copyRead (s : State) (c : CopyCmd) (q : Req) (v : DWord) : State :=
  let bs := toBytes 8 v.toNat
  let c1 := { c with out := c.out.erase q.rtag, data := c.data ++ q.parts.map fun (off, n, dst) => (dst, (bs.drop off).take n) }
  let (s1, c2, ok) := s.writeData c1 (c1.data.map (·.1))
  if ok then s1.setCopy c2 else (s1.copyGone c.id).engineFault c.job 5 (BitVec.ofNat 48 q.va.toNat)

def State.serialPart (s : State) (id tag : Nat) : State :=
  let f := { s.fab with serial := s.fab.serial.map fun (x : Serial) => if x.id = id then { x with out := x.out.erase tag } else x }
  { s with fab := f }.serialRun 4096

/-- R333: an acknowledged write, reduction or stream has performed. Reads, atomics and checks are answered by their responses. -/
def State.completed (s : State) (p : Packet) : State :=
  if p.check || p.kind == 4 || p.kind == 7 then s
  else
    match s.fab.reqs.find? fun q => q.rtag == p.rtag with
    | none => s
    | some q =>
      let s1 := { s with fab := s.fab.dropReq p.rtag }
      match q.who with
      | .bufDrain id => s1.partDone id p.rtag
      | .copy id => s1.copyPart id p.rtag
      | .serial id => s1.serialPart id p.rtag
      | .direct _ => { s1 with fab := s1.fab.answer q p.dst 0 0 true }
      | _ => s1

/-- R333: the flow named by the act sends its acknowledgement. -/
def execSequenceAckSend (s : State) : Host.Outcome State Fault Refusal :=
  let r := s.fab.flowFrom s.ev.job s.ev.peer s.ev.flow
  .next (if r.ackDue.isSome then { s with fab := s.fab.putRx { r with ackDue := none } }.sendControl (s.ackPacket r) else s)

/-- R332: a sequenced packet at its destination, and the serial streams that it moves on (R345). -/
def execFlowPacketArrival (s : State) : Host.Outcome State Fault Refusal := .next ((s.flowArrive s.ev.dim s.ev.packet).serialRun 4096)

/-- R337: what a failure means to whoever sent the request. -/
def State.failReq (s : State) (q : Req) (t : Trap) (c : Cause) (einfo : DWord) : State :=
  let s1 := { s with fab := s.fab.dropReq q.rtag }
  match q.who with
  | .wait id =>
    match s1.pipe.waits.find? fun w => w.id == id && w.outstanding with
    | some w => s1.faultOf w.slot w.seq t
    | none => s1
  | .bufCheck id =>
    match s1.entryBy id with
    | some e => if e.state = .opened then s1.faultOf e.slot e.seq t else s1
    | none => s1
  | .bufDrain id =>
    match s1.entryBy id with
    | some e =>
      let s2 := s1.dropEntry e c (s.requestVa q) einfo
      if t.cause = .vaultOwnership then s2.engineFault e.job 15 (s.requestVa q) else s2
    | none => s1
  | .copy id =>
    match s1.findCopy id with
    | some cp => (s1.copyGone id).engineFault cp.job 5 q.va
    | none => s1
  | .serial id => (s1.droppedEntry q.job c q.va einfo).serialPart id q.rtag
  | .atomic _ | .atomicCheck | .direct _ | .prefetch => s1
  | .peek u pa => { s1 with fab := { s1.fab with peeks := s1.fab.peeks ++ [⟨u, q.target, pa, 6, 0⟩] } }

/-- EINFO of a status (R397). -/
def statusInfo (st : Nat) (node : BitVec 14) : DWord := BitVec.ofNat 64 (node.toNat * 2 ^ 16 + st * 2 ^ 8 + 15)

def statusCause (st : Nat) : Cause := if st ≤ 3 then .remoteTranslation else if st = 4 then .poison else .vaultOwnership

/-- R37, R123, R279: the value of a load from another node. -/
def State.loadAnswer (s : State) (w : Wait) (p : Packet) : State :=
  match w.op with
  | .load va l _ t pol _ =>
    let bs := overlay (toBytes (tyBytes t) (p.dw 3).toNat) (s.forwardTo w l va (tyBytes t))
    s.arriveTraced w (.scalar (loadValue t (leNat bs))) (if !w.sup && polAcquire pol && p.sync % 2 == 0 then flagScopeMiss else 0)
  | _ => s

/-- What a unit has read on a peer: the word, or, for the fetch path, the words of its flit (R90, log 85). -/
def peeksOf (u : Nat) (pa : Nat) (p : Packet) : List Peek :=
  if p.payload.isEmpty then [⟨u, p.src, pa, p.status, p.dw 3⟩]
  else (List.range 8).map fun i => ⟨u, p.src, pa / 64 * 64 + 8 * i, p.status, BitVec.ofNat 64 (leNat ((p.payload.drop (8 * i)).take 8))⟩

/-- R337: a STATUS of a write that an acknowledgement had already covered: the entry is dropped all the same. -/
def State.failedLate (s : State) (p : Packet) : State :=
  let s1 := s.droppedEntry p.job (statusCause p.status) p.addr (statusInfo p.status p.src)
  if p.status = 5 then s1.engineFault p.job 15 p.addr else s1

/-- R336, R337: a response to a request of this node. -/
def State.answered (s : State) (p : Packet) : State :=
  match s.fab.reqs.find? fun q => q.rtag == p.rtag with
  | none => if p.status = 0 then s else s.failedLate p
  | some q =>
    let done := { s with fab := s.fab.dropReq p.rtag }
    match q.who with
    | .atomic _ | .direct _ | .atomicCheck => { done with fab := done.fab.answer q p.src p.status (p.dw 3) (p.sync % 2 == 1) }
    | .peek u pa => { done with fab := { done.fab with peeks := done.fab.peeks ++ peeksOf u pa p } }
    | who =>
      if p.status ≠ 0 then s.failReq q (statusTrap p.status p.src (s.requestVa q)) (statusCause p.status) (statusInfo p.status p.src)
      else
        match who with
        | .wait id =>
          match done.pipe.waits.find? fun w => w.id == id && w.outstanding with
          | some w => done.loadAnswer w p
          | none => done
        | .bufCheck id =>
          match done.entryBy id with
          | some e => done.setEntry { e with out := e.out.erase p.rtag }
          | none => done
        | .copy id =>
          match done.findCopy id with
          | some c => done.copyRead c q (p.dw 3)
          | none => done
        | .bufDrain id => done.partDone id p.rtag
        | .serial id => done.serialPart id p.rtag
        | _ => done

def execRemoteResponseArrival (s : State) : Host.Outcome State Fault Refusal := .next (s.answered s.ev.packet)

/-- R333: an acknowledgement covers the packets up to its number, and in class 15 those that its bitmap marks: they have performed, but for the last
packet of a serial stream, which is held until its copies are acknowledged (R345). -/
def acked (flow : Nat) (last : BitVec 12) (map : Nat) (x : BitVec 12 × Packet) : Bool :=
  let off := (x.1 - last - 1).toNat
  decide (2048 ≤ off) || (flow == 15 && decide (off < 32) && map.testBit off && !(x.2.kind == 9 && x.2.type == 1))

/-- R333: what the acknowledgement of a flow covers is done with. -/
def State.seqAck (s : State) (p : Packet) : State :=
  let flow := bits (p.dw 3) 12 5
  let last := BitVec.ofNat 12 (bits (p.dw 3) 0 12)
  let t := s.fab.flowTo p.job p.src flow
  let (fin, left) := t.unacked.partition (acked flow last (bits (p.dw 4) 0 32))
  if fin.isEmpty then s
  else
    let f := s.fab.putTx { t with unacked := left, since := s.clock, tries := 0, dead := false }
    fin.foldl (fun s x => s.completed x.2) { s with fab := f }

/-- R336, R337: an acknowledgement with a STATUS tells first of the write or reduction that was not done (log 86). -/
def execSequenceAckArrival (s : State) : Host.Outcome State Fault Refusal :=
  let p := s.ev.packet
  .next ((if p.status = 0 then s else s.answered p).seqAck p)

/-! ## Retransmission (R331, R333) -/

def TxFlow.timedOut (t : TxFlow) (clock : Nat) : Bool := !t.unacked.isEmpty && decide (t.since + 115200 ≤ clock)

/-- R333: the destination of a flow is unreachable. -/
def State.unreachable (s : State) (t : TxFlow) : State :=
  let s1 := { s with fab := s.fab.putTx { t with unacked := [], tries := 0, dead := true } }
  t.unacked.foldl (fun s x =>
    match s.fab.reqs.find? fun q => q.rtag == x.2.rtag with
    | some q =>
      let tr : Trap := { cause := .partnerLost, eva := s.requestVa q }
      match q.who with
      | .atomicCheck | .atomic _ | .direct _ => { s with fab := (s.fab.dropReq q.rtag).answer q q.target 6 0 false }
      | _ => s.failReq q tr .partnerLost 0
    | none => s) s1

def State.retransmit (s : State) (t : TxFlow) : State :=
  if t.timedOut s.clock then
    if 8 ≤ t.tries then s.unreachable t
    else
      let f := s.fab.putTx { t with since := s.clock, tries := t.tries + 1 }
      let f := t.unacked.foldl (fun f x => f.inject s.clock x.2) f
      { s with fab := { f with resent := min 65535 (f.resent + t.unacked.length) } }
  else s

def execRetransmitTimeout (s : State) : Host.Outcome State Fault Refusal := .next (s.retransmit (s.fab.flowTo s.ev.job s.ev.peer s.ev.flow))

/-- The sender of a flow that has been quiet for 1,800,000 clocks asks its other end to forget it. -/
def State.retire (s : State) (t : TxFlow) : State :=
  if t.unacked.isEmpty && !t.retiring && decide (t.since + 1800000 ≤ s.clock) && s.fab.tx.contains t then
    { s with fab := s.fab.putTx { t with retiring := true } }.sendControl (retirePacket s.k.nodeId t.dst t.job 7 t.flow)
  else s

/-- R331: a flow is retired by an exchange between its two ends: its sender asks; when the act's flag is set, its receiver is asked (0) and
forgets it, or the sender is answered (1) and does. -/
def execFlowRetire (s : State) : Host.Outcome State Fault Refusal :=
  let j := s.ev.job
  let n := s.ev.peer
  let fl := s.ev.flow
  .next (if !s.ev.flag then s.retire (s.fab.flowTo j n fl)
    else if s.ev.num = 0 then
      { s with fab := { s.fab with rx := s.fab.rx.filter fun r => !(r.is j n fl && r.pool.isEmpty) } }.sendControl (retirePacket s.k.nodeId n j 8 fl)
    else { s with fab := { s.fab with tx := s.fab.tx.filter fun t => !(t.is j n fl && t.retiring) } })

/-! ## The pilot token (R339 to R342) -/

/-- The dimensions that bring-up found installed. -/
def KRegs.lattice (k : KRegs) : List Nat := (List.range 14).filter fun d => linkState k.linkstat d != 0

/-- R294 over physical dimensions. -/
def ringNode (node : BitVec 14) (ds : List Nat) (q : Nat) : BitVec 14 :=
  let g := q ^^^ (q / 2)
  (ds.zipIdx).foldl (fun n (t, j) => (n &&& ~~~(BitVec.twoPow 14 t)) ||| (if g.testBit j then BitVec.twoPow 14 t else 0)) node

def ringPos (node : BitVec 14) (ds : List Nat) : Nat :=
  let g := (ds.zipIdx).foldl (fun g (t, j) => if node.getLsbD t then g + 2 ^ j else g) 0
  (List.range 14).foldl (fun q i => q ^^^ (g / 2 ^ (i + 1))) g

/-- The next live position of the ring. -/
def State.nextHolder (s : State) : Option (BitVec 14) :=
  let ds := s.k.lattice
  let n := 2 ^ ds.length
  let q := ringPos s.k.nodeId ds
  ((List.range (n - 1)).map fun i => ringNode s.k.nodeId ds ((q + 1 + i) % n)).find? fun m => !s.lost m

def tokenPacket (src dst : BitVec 14) (gen laps : BitVec 32) : Packet :=
  routedPacket 11 3 src dst 0 { d3 := gen.setWidth 64, d4 := laps.setWidth 64 } []

/-- The token goes on; a node that is alone keeps it. -/
def State.passToken (s : State) : State :=
  match s.nextHolder with
  | some m => (s.setToken { s.fab.token with held := false, waiting := false, seen := s.clock }).sendControl
      (tokenPacket s.k.nodeId m s.fab.token.gen s.fab.token.laps)
  | none => s.setToken { s.fab.token with waiting := false }

/-- R330, R342: a partition reset drops every packet of its job, in every lane, but for the notices that announce it (R388), and the buffers that they hold are free again; a token that
waits for one of them goes on. -/
def State.purgeLanes (s : State) (job : BitVec 16) : State :=
  let mine (p : Packet) : Bool := p.job == job && !(p.kind == 3 && bits (p.dw 2) 0 8 == 2)
  let held := ((s.fab.bufs.filter fun b => mine b.packet).map fun b => (b.lane, b.input))
    ++ s.fab.links.flatMap fun l => (l.ready.filter fun o => mine o.packet).filterMap (·.held)
  let clear (l : Link) : Link :=
    (l.ready.filter fun o => mine o.packet && o.lane == 0).foldl (fun l _ => l.give 0)
      { l with ready := l.ready.filter (fun o => !mine o.packet), replay := l.replay.map fun p => if mine p then p.filler else p }
  let s1 : State := { s with fab := { s.fab with
    bufs := s.fab.bufs.filter fun b => !mine b.packet
    links := s.fab.links.map clear
    runaway := s.fab.runaway.filter fun p => !mine p } }
  let s2 := held.foldl (fun s h => s.release (some h)) s1
  if s2.fab.token.waiting && s2.fab.token.drainJob == job then s2.passToken else s2

/-- A suspect packet: the number of its buffer, or the link that it waits for and its number there; since when it has been blocked, and the input
at which it stands. -/
structure Blocked where
  link  : Option Nat
  num   : Nat
  since : Nat
  input : Nat
  deriving DecidableEq, Repr

/-- The suspect packets of this router. -/
def State.suspects (s : State) : List Blocked :=
  (s.fab.bufs.zipIdx.filter fun x => x.1.suspect).map (fun x => ⟨none, x.2, x.1.since, x.1.input⟩)
    ++ (s.fab.links.zipIdx.flatMap fun l => (l.1.ready.zipIdx.filter fun x => x.1.suspect && x.1.adaptive).map fun x =>
      ⟨some l.2, x.2, x.1.since, (x.1.held.getD (0, 14)).2⟩)

/-- R339: the suspect packet that has been blocked longest, at the lowest dimension among equals. -/
def pickSuspect : List Blocked → Option Blocked
  | [] => none
  | x :: l =>
    match pickSuspect l with
    | none => some x
    | some y => if x.since < y.since ∨ (x.since = y.since ∧ x.input ≤ y.input) then some x else some y

/-- The packet leaves its buffer: from the buffer itself, or from the link that it waits for. -/
def State.takeOut (s : State) (b : Blocked) : Option (Packet × State) :=
  match b.link with
  | none => (s.fab.bufs[b.num]?).map fun x => (x.packet, { s with fab := s.fab.unbuffer s.clock b.num }.release (some (x.lane, x.input)))
  | some d => (s.fab.readyAt d b.num).map fun o =>
    let f := updLink s.fab d fun l => (if o.lane = 0 then l.give 0 else l : Link)
    let f := updLink f d fun l => { l with ready := l.ready.eraseIdx b.num }
    let f := match o.packet.path with | some x => updLink f x.1 fun l => { l with detoured := l.detoured - 1 } | none => f
    (o.packet.offDetour, { s with fab := f }.release o.held)

/-- R340: a suspect packet leaves its buffer for the runaway lane. INTER names the node that drained it, to which DST reports
(log 25). -/
def State.drain (s : State) (q : Packet) : State :=
  let p := q.setNonmin false s.k.nodeId
  let t := s.fab.token
  let s2 := s.setToken { t with waiting := true, drained := t.drained + 1, drainJob := p.job }
  if p.dst = s.k.nodeId then (s2.deliver 0 p).pushAct .ejectionReportArrival 0 p
  else { s2 with fab := { s2.fab with runaway := some p } }.hop ((differ s.k.nodeId p.dst).headD 0) 4 p

/-- R339: a node that has taken the token. -/
def State.useToken (s : State) : State :=
  match (pickSuspect s.suspects).bind s.takeOut with
  | some (p, s1) => s1.drain p
  | none => s.passToken

/-- R342: a token of a lower generation is discarded. A lap ends at ring position 0. -/
def State.tokenArrives (s : State) (p : Packet) : State :=
  let gen := BitVec.ofNat 32 (bits (p.dw 3) 0 32)
  let t := s.fab.token
  if gen < t.maxGen then s
  else
    let laps := BitVec.ofNat 32 (bits (p.dw 4) 0 32) + (if ringPos s.k.nodeId s.k.lattice = 0 then 1 else 0)
    (s.setToken { t with held := true, gen := gen, laps := laps, seen := s.clock, maxGen := gen, lapsSeen := laps.setWidth 16, waiting := false }).useToken

def execPilotTokenArrival (s : State) : Host.Outcome State Fault Refusal := .next (s.tokenArrives s.ev.packet)

/-- R341: the drained packet has been ejected or discarded. -/
def execEjectionReportArrival (s : State) : Host.Outcome State Fault Refusal := .next (if s.fab.token.waiting then s.passToken else s)

/-- R342: this node is the lowest live one of the lattice. -/
def State.lowestLive (s : State) : Bool :=
  let ds := s.k.lattice
  ((List.range (2 ^ ds.length)).map (ringNode s.k.nodeId ds)).all fun m => s.lost m || decide (s.k.nodeId ≤ m)

def State.tokenLost (s : State) : Bool :=
  !s.fab.token.held && !s.k.lattice.isEmpty && decide (s.fab.token.seen + tokenTime s.fab ≤ s.clock)

def execTokenLossTimeout (s : State) : Host.Outcome State Fault Refusal :=
  .next (if s.tokenLost && s.lowestLive then
    let t := s.fab.token
    (s.setToken { t with held := true, gen := t.maxGen + 1, laps := 0, seen := s.clock, maxGen := t.maxGen + 1, waiting := false }).useToken
  else s)

end Sys2Proof.Machine
end

