-- ==== Sys2Proof/Machine/Chunk.lean ====
section
/-! DEFINITION. The chunks of resumable operations (04_regions R132, 06_vector R182, 08_scratchpad R225, 11_exchange R318). -/

namespace Sys2Proof.Machine

/-- The chunk of 256 lanes that comes next of a gather: the lanes of the register are written now (R182). -/
def State.gatherChunk (s : State) (w : Wait) (b n : Nat) (idx : VReg) (m : Mask) : State :=
  let lo := s.progress
  match s.gatherLanes n (gatherAddrs b n lo (lo + 256) idx m) with
  | .error c => s.faultOf w.slot w.seq { cause := c }
  | .ok vs =>
    let lanes := laneBits 4 (laneWindow lo (lo + 256) (active m 4))
    let s1 : State := match w.vd with
      | some (.reg d) => { s with regs := { s.regs with v := s.regs.v.set d (mergeV ((s.regs.v[d]?).getD 0) (ofLanes 4 vs) lanes) } }
      | _ => s
    s1.chunked 256

/-- The chunk of a wait of the open region. -/
def State.waitChunk (s : State) (w : Wait) : State :=
  match w.op with
  | .gather b idx m ew true => if s.progress < 2048 then s.gatherChunk w b (ewBytes ew) idx m else s
  | .scatter b data idx m ew true =>
    if !s.storesBefore w.seq || decide (2048 ≤ s.progress) then s
    else
      match s.scatterTo w b data idx m (ewBytes ew) s.progress (s.progress + 256) with
      | .ok s1 => s1.chunked 256
      | .error s1 => s1
  | _ => s

/-- The next chunk of a copy: its pieces go out as flows have room, and when every one has been acknowledged the chunk commits. -/
def State.copyChunked (s : State) (c : CopyCmd) : State :=
  let (next, upto) := copyChunk c s.progress
  if next ≤ s.progress then s
  else
    let (s1, c1, ok) := s.movePart c (upto - c.prog) ((piecesFor c 4).drop c.prog)
    if !ok then (s1.copyGone c.id).engineFault c.job 5 (BitVec.ofNat 48 c.src)
    else
      let s2 := s1.setCopy c1
      if upto ≤ c1.prog ∧ c1.settled then
        s2.chunked (next - s.progress)
      else s2

/-- The resumable command of the open region. -/
def State.resCopy (s : State) : Option CopyCmd :=
  match s.rgn with
  | some r => (s.heldCopies ++ s.eng.copies).find? fun c => c.res && c.region == some r.id
  | none => none

/-- The next chunk of a resumable EXMD has been done on every dimension: its length. -/
def State.exmdChunk (s : State) : Option Nat :=
  let rs := s.exmdRecs.map (·.2)
  let total := rs.foldl (fun n r => max n (max r.sendLen r.recvLen)) 0
  let next := min total (s.progress + 65536)
  if rs.isEmpty || decide (next ≤ s.progress) then none
  else if rs.all fun r => r.phase == .done || (r.phase == .admitted && decide (next ≤ r.progress)) then some (next - s.progress) else none

/-- A chunk of an operation that is none of the matrix array's can be done now. -/
def State.chunkReady (s : State) : Bool :=
  match s.rgn with
  | none => false
  | some r =>
    r.resum && r.resIssued && s.mat.queue.isEmpty &&
      (match s.pipe.waits.find? fun w => w.outstanding && w.inRgn with
        | some w =>
          (match w.op with
            | .gather _ _ _ _ res => res && decide (s.progress < 2048)
            | .scatter _ _ _ _ _ res => res && decide (s.progress < 2048) && s.storesBefore w.seq
            | _ => false)
        | none =>
          match s.resCopy with
          | some c => c.admitted && s.copyReady c && !s.chunksDone c && (decide (c.prog < (copyChunk c s.progress).2) || c.settled)
          | none => s.exmdChunk.isSome)

/-- R132: the next chunk of the resumable operation of the open region, and its commit. -/
def State.nextChunk (s : State) : Host.Outcome State Fault Refusal :=
  match s.rgn with
  | none => .next s
  | some r =>
    if !r.resum || !r.resIssued then .next s
    else
      match s.mat.queue.head? with
      | some e =>
        match e.op with
        | .mac mul tile a av b k true => s.macChunks e mul tile a av b k.toNat 1
        | _ => .next s
      | none =>
        match s.pipe.waits.find? fun w => w.outstanding && w.inRgn with
        | some w => .next (s.waitChunk w)
        | none =>
          match s.resCopy with
          | some c => .next (if c.admitted && s.copyReady c then s.copyChunked c else s)
          | none =>
            match s.exmdChunk with
            | some n => .next ((s.chunked n).exmdNext (s.progress + n))
            | none => .next s

def execChunkCommit (s : State) : Host.Outcome State Fault Refusal := s.nextChunk

end Sys2Proof.Machine
end

