-- ==== Sys2Proof/Machine/Control.lean ====
section
/-! DEFINITION. Branches, loops, traps, DELAY and BRK (03_sequencer R88 to R108). -/

namespace Sys2Proof.Machine

/-- R88: a redirect with `k` delay bundles loses to one of the same bundle, and to an earlier one that falls due with it. One that
loses beats none (log 95). -/
def State.redirectLoses (s : State) (k : Nat) : Bool :=
  s.seq.redirects.any fun r => r.seq == s.seq.count || r.left == k + 1

/-- R25: PC + 16 × offset, cut to 48 bits. -/
def State.branchTarget (s : State) (off : Int) : VAddr := s.seq.pc + BitVec.ofInt 48 (16 * off)

/-- A taken branch: its redirect, its trace word and whatever else it does, unless it loses (R88); word 1 of the record of one that loses at its issue
is 0 (log 108). -/
def State.takeBranch (s : State) (k : Nat) (target : VAddr) (w1 : DWord) (link : List Effect) : Issue :=
  if s.redirectLoses k then .done [] else .done ([.redirect (k + 1) target, .taken w1] ++ link)

/-- R94: the link value, as a scalar result. -/
def State.linkTo (s : State) (d : SDst) : List Effect := [.land 1 0 (.scalar d ((s.seq.pc + 64).setWidth 64))]

def State.braIssue (s : State) (p : Nat) (neg : Bool) (off : Int) : Issue :=
  if s.srcP p != neg then s.takeBranch 2 (s.branchTarget off) 0 [] else .done []

/-- R93. -/
def State.brmIssue (s : State) (taken : Bool) (off : Int) : Issue :=
  if taken then s.takeBranch 2 (s.branchTarget off) 0 [] else .done []

def maskNone (l : List Mask) : Bool := topMask l == 0
def maskAll (l : List Mask) : Bool := parentMask l &&& ~~~topMask l == 0

/-- R95: a register target; its bits [3:0] must be zero (R12), and that is checked before a loss is looked for (log 107). -/
def State.jumpIssue (s : State) (x : SSrc) (link : List Effect) : Issue := issueOf (do
  let target : VAddr := (s.srcS x).setWidth 48
  check (target &&& 0xF#48 == 0) .misalignedTarget
  match s.takeBranch 3 target (target.setWidth 64) link with
  | .done es => .ok es
  | i => .error i)

/-- R97, R100, R119: LOOP and LOOPI with a count `n`; a push writes its level. -/
def State.loopIssue (s : State) (n : BitVec 32) (off : Nat) (w1 : DWord) : Issue := issueOf (do
  let fin : VAddr := s.seq.pc + BitVec.ofNat 48 (16 * off)
  check (decide (s.seq.loops.length < 6)) .loopStack
  check (s.seq.loops.all fun l => decide (fin.toNat ≤ l.fin.toNat)) .loopStack
  check (match s.seq.loops.head? with | some l => l.fin != s.seq.pc | none => true) .loopStack
  if n = 0 then .ok [.skip fin]
  else do
    let ws ← s.varWrite [.l s.seq.loops.length]
    .ok (ws ++ [.pushLoop ⟨s.seq.pc + 16, fin, 0, n⟩, .taken w1]))

/-- R98, R100. -/
def State.leaveIssue (s : State) : Issue := issueOf (do
  check (decide (s.fin.leaves < s.seq.loops.length)) .loopStack
  .ok [.leave, .taken 0])

/-- R106: a trap request is held until the region commits. -/
def State.trapIssue (s : State) (imm : Nat) : Issue := issueOf (do
  check (!s.k.priv && s.inRegion && s.seq.trapReq.isNone) .trapContext
  .ok [.trapReq (BitVec.ofNat 26 imm), .taken 0])

def execBra (p : Nat) (neg : Bool) (off : Int) (s : State) : Host.Outcome State Fault Refusal := s.settle (s.braIssue p neg off)
def execCall (off : Int) (s : State) : Host.Outcome State Fault Refusal :=
  s.settle (s.takeBranch 3 (s.branchTarget off) 0 (s.linkTo (.reg 62)))
def execBri (x : SSrc) (s : State) : Host.Outcome State Fault Refusal := s.settle (s.jumpIssue x [])
def execCalli (d : SDst) (x : SSrc) (s : State) : Host.Outcome State Fault Refusal := s.settle (s.jumpIssue x (s.linkTo d))
def execRet (x : SSrc) (s : State) : Host.Outcome State Fault Refusal := s.settle (s.jumpIssue x [])
def execLoop (x : SSrc) (off : Nat) (s : State) : Host.Outcome State Fault Refusal :=
  s.settle (s.loopIssue ((s.srcS x).setWidth 32) off (((s.srcS x).setWidth 32).setWidth 64))
def execLoopi (n : Nat) (off : Nat) (s : State) : Host.Outcome State Fault Refusal := s.settle (s.loopIssue (BitVec.ofNat 32 n) off 0)
def execLeave (s : State) : Host.Outcome State Fault Refusal := s.settle s.leaveIssue
def execBrmNone (off : Int) (s : State) : Host.Outcome State Fault Refusal := s.settle (s.brmIssue (maskNone s.regs.masks) off)
def execBrmAll (off : Int) (s : State) : Host.Outcome State Fault Refusal := s.settle (s.brmIssue (maskAll s.regs.masks) off)
def execBrmAny (off : Int) (s : State) : Host.Outcome State Fault Refusal := s.settle (s.brmIssue (!maskNone s.regs.masks) off)
def execTrap (imm : Nat) (s : State) : Host.Outcome State Fault Refusal := s.settle (s.trapIssue imm)
def execDelay (n : Nat) (s : State) : Host.Outcome State Fault Refusal := s.settle (.done [.delay n, .taken 0])
def execBrk (_imm : Nat) (s : State) : Host.Outcome State Fault Refusal := s.settle (.done [.brk, .taken 0])

/-! ## The sequencer's own steps -/

/-- R88, R89: the redirects that are due, and the loop actions of the bundle at the program counter, choose the next address. -/
def State.redirectDueIssue (s : State) : State := s.advance s.seq.pc s.fin

def execBranchRedirectDue (s : State) : Host.Outcome State Fault Refusal := .next s.redirectDueIssue

/-- R36 to R40, R68: what is due at the end of a bundle lands, or the antidependence fault is taken (R119). -/
def execResultLanding (s : State) : Host.Outcome State Fault Refusal :=
  match s.landings with
  | .ok s' => .next s'
  | .error t => .next (s.takeTrap t)

/-- R113: a 4,096th consecutive bundle outside region mode. -/
def execOutsideRegionLimit (s : State) : Host.Outcome State Fault Refusal :=
  if !s.k.priv && !s.inRegion && decide (4095 ≤ s.seq.outside) then s.settle (.trap { cause := .regionContext, slotless := true }) else .next s

/-- R42, R43, R400: an illegal encoding in slot `num` reaches issue. -/
def execIllegalEncoding (s : State) : Host.Outcome State Fault Refusal :=
  { s with seq := { s.seq with bun := { s.seq.bun with slot := s.ev.num } } }.settle (.trap { cause := .illegalEncoding })

end Sys2Proof.Machine
end

