-- ==== Sys2Proof/Machine/Grammar.lean ====
section
/-! DEFINITION. The grammar engine (13_grammar R350 to R363) and sampling (R364 to R370). -/

namespace Sys2Proof.Machine

/-! ## The image (R350 to R354) -/

/-- A doubleword of the bound image, as performed (R354). -/
def State.imageWord (s : State) (b : Binding) (off : Nat) : Except Issue DWord := do
  let va : VAddr := b.image + BitVec.ofNat 48 off
  let pol := s.srcY b.policy
  let x ← s.translateBy .grammar va .read pol
  s.wordAt 2 x.loc pol va 0x0B

def badImage (b : Bool) : Except Issue Unit := check b .grammarImage

structure GHead where
  nc : Nat
  v  : Nat
  nsym : Nat
  ns : Nat
  start : Nat
  cmap : Nat
  sit : Nat
  trans : Nat
  pool : Nat
  deriving DecidableEq, Repr

/-- R350. -/
def State.imageHead (s : State) (b : Binding) : Except Issue GHead := do
  let w ← (List.range 8).mapM fun i => s.imageWord b (8 * i)
  let d (i : Nat) : DWord := dwAt w i
  let h : GHead := ⟨bits (d 1) 32 32, bits (d 1) 0 32, bits (d 2) 32 32, bits (d 2) 0 32, bits (d 3) 0 16, bits (d 4) 0 48, bits (d 5) 0 48,
    bits (d 6) 0 48, bits (d 7) 0 48⟩
  badImage (bits (d 0) 48 16 == 0 && bits (d 0) 32 16 == 1 && bits (d 0) 0 32 == 0x4D524731 && decide (1 ≤ h.nc ∧ h.nc ≤ 65536)
    && decide (1 ≤ h.v ∧ h.v ≤ 262144) && decide (2 ≤ h.nsym ∧ h.nsym ≤ 65536) && decide (1 ≤ h.ns ∧ h.ns ≤ 65536)
    && bits (d 3) 16 48 == 0 && decide (h.start < h.ns) && ([4, 5, 6, 7].all fun i => bits (d i) 48 16 == 0 && bits (d i) 0 6 == 0)
    && decide (h.ns * h.nsym ≤ 2 ^ 24))
  .ok h

/-- R351: the class of a token. -/
def State.tokenClass (s : State) (b : Binding) (h : GHead) (tok : Nat) : Except Issue Nat := do
  let w ← s.imageWord b (h.cmap + tok / 4 * 8)
  let c := bits w (16 * (tok % 4)) 16
  badImage (decide (c < h.nc))
  .ok c

structure GSit where
  acc : Bool
  mruns : Nat
  moff : Nat
  tcount : Nat
  toff : Nat
  deriving DecidableEq, Repr

/-- R351: the situation of a state and a top symbol. -/
def State.situation (s : State) (b : Binding) (h : GHead) (st top : Nat) : Except Issue GSit := do
  let a := h.sit + 16 * (st * h.nsym + top)
  let x ← s.imageWord b a
  let y ← s.imageWord b (a + 8)
  let g : GSit := ⟨x.getLsbD 63, bits x 32 20, bits x 0 32, bits y 32 17, bits y 0 32⟩
  badImage (bits x 52 11 == 0 && bits y 49 15 == 0 && decide (g.tcount ≤ 65536) && (g.mruns != 0 || g.tcount == 0))
  .ok g

structure GTrans where
  cls : Nat
  next : Nat
  npop : Nat
  push : List Nat
  deriving DecidableEq, Repr

/-- R352: one transition. -/
def State.transition (s : State) (b : Binding) (h : GHead) (off : Nat) : Except Issue GTrans := do
  let x ← s.imageWord b off
  let y ← s.imageWord b (off + 8)
  let n := bits x 34 2
  let ps := (List.range 3).map fun i => bits y (16 * i) 16
  let t : GTrans := ⟨bits x 0 16, bits x 16 16, bits x 32 2, ps.take n⟩
  badImage (bits x 36 28 == 0 && bits y 48 16 == 0 && decide (t.next < h.ns) && decide (t.cls < h.nc)
    && (t.push.all fun p => decide (1 ≤ p ∧ p < h.nsym)) && (ps.drop n).all (· == 0))
  .ok t

/-- R352, R354: the list of a situation, which is read whole and must rise strictly. -/
def State.transitions (s : State) (b : Binding) (h : GHead) (off : Nat) (above : Option Nat) : Nat → Except Issue (List GTrans)
  | 0 => .ok []
  | n + 1 => do
    let t ← s.transition b h off
    badImage (match above with | some c => decide (c < t.cls) | none => true)
    .ok (t :: (← State.transitions s b h (off + 16) (some t.cls) n))

/-- R353: the runs of a mask from token `pos` on: the bits and where they end. -/
def State.maskRuns (s : State) (b : Binding) (off pos acc : Nat) : Nat → Except Issue (Nat × Nat)
  | 0 => .ok (acc, pos)
  | n + 1 => do
    let w ← s.imageWord b (off / 8 * 8)
    let r := bits w (off % 8 * 8) 32
    badImage (r / 2 ^ 18 % 2 ^ 13 == 0)
    let len := r % 2 ^ 18 + 1
    let acc := if 2 ^ 31 ≤ r then acc + (2 ^ len - 1) * 2 ^ pos else acc
    State.maskRuns s b (off + 4) (pos + len) acc n

/-- The mask of a situation as a number whose bit t is token t's. -/
def State.maskOf (s : State) (b : Binding) (h : GHead) (g : GSit) : Except Issue Nat := do
  let (m, fin) ← s.maskRuns b (h.pool + 4 * g.moff) 0 0 g.mruns
  badImage (g.mruns == 0 || fin == h.v)
  .ok m

/-- R243, R246: the lines of the image that a command has read, by offset and length, are in the L2, and their translations in the TLB of the
grammar engine (log 122). -/
def State.imageTouched (s : State) (b : Binding) (runs : List (Nat × Nat)) : State :=
  (runs.flatMap fun x => rangeLines (b.image + BitVec.ofNat 48 x.1).toNat x.2).foldl (fun s a =>
    match s.translateBy .grammar (BitVec.ofNat 48 a) .read (s.srcY b.policy) with
    | .ok x => { s with tlb := x.tlb, l2 := s.touch x.loc x.attr false }
    | .error _ => s) s

/-- What has been read stands in the L2 and the TLB. -/
def imageEffects (s : State) : List Effect := [.setTlb s.tlb, .setL2 s.l2]

def sitRun (h : GHead) (st top : Nat) : Nat × Nat := (h.sit + 16 * (st * h.nsym + top), 16)

/-! ## The context (R355, R356) -/

structure GCtx where
  state : Nat
  depth : Nat
  steps : Nat
  refused : Nat
  acc : Bool
  deriving DecidableEq, Repr

def ctxWord (sp : Memory) (a i : Nat) : DWord := Memory.dword sp (a + 8 * i)
def ctxSym (sp : Memory) (a i : Nat) : Nat := Memory.word sp (a + 64 + 2 * i) 2

def ctxReserved (sp : Memory) (a : Nat) : Bool :=
  bits (ctxWord sp a 0) 37 27 == 0 && (List.range 6).all fun i => ctxWord sp a (i + 2) == 0

def readCtx (sp : Memory) (a : Nat) : GCtx :=
  let d := ctxWord sp a 0
  let e := ctxWord sp a 1
  ⟨bits d 0 16, bits d 16 16, bits e 0 32, bits e 32 32, d.getLsbD 36⟩

/-- R356: a valid context under a header; its top symbol. -/
def ctxTop (sp : Memory) (a : Nat) (c : GCtx) : Nat := ctxSym sp a (c.depth - 1)

def ctxOk (sp : Memory) (a : Nat) (h : GHead) : Bool :=
  let c := readCtx sp a
  let top := ctxTop sp a c
  ctxReserved sp a && decide (1 ≤ c.depth ∧ c.depth ≤ 4096) && ctxSym sp a 0 == 0 && (decide (c.depth ≤ 1) || top != 0)
    && decide (c.state < h.ns ∧ top < h.nsym)

/-- R120, R207, R214: where a context may lie. -/
def State.ctxPlace (s : State) (a : Nat) : Except Issue Unit := do
  check (spExtent a 8256) .scratchpadAddress
  check (s.k.priv || s.discipline (vaultOf a) .neither) .vaultDiscipline
  s.ownOrWait a

/-! ## GBIND, GSTAT (R357, R359, R362) -/

/-- The record with LAST, STATE, DEPTH and REFUSED. -/
def gstatOf (last st depth refused : Nat) : DWord := BitVec.ofNat 64 (last % 16 * 2 ^ 52 + st * 2 ^ 32 + depth * 2 ^ 16 + refused)

def State.gbindIssue (s : State) (x y : SSrc) : Issue := issueOf (do
  s.needRegion
  let a := s.srcS x
  let c := s.srcS y
  check (bits a 51 13 == 0 && bits a 0 6 == 0 && bits c 28 36 == 0 && bits c 0 6 == 0) .grammarOperand
  .ok [.setEng { s.eng with bind := ⟨true, BitVec.ofNat 48 (bits a 0 48), bits a 48 3, bits c 0 28, gstatOf 15 0 0 0⟩ }])

def State.gstatIssue (s : State) (d : SDst) : Issue := issueOf (do
  s.needRegion
  let b := s.eng.bind
  .ok [.land 2 0 (.scalar d (BitVec.ofNat 64 ((if b.bound then 2 ^ 63 else 0) + b.gstat.toNat % 2 ^ 63)))])

def execGbind (x y : SSrc) (s : State) : Host.Outcome State Fault Refusal := s.settle (s.gbindIssue x y)
def execGstat (d : SDst) (s : State) : Host.Outcome State Fault Refusal := s.settle (s.gstatIssue d)

/-! ## GMASK (R360, R363) -/

/-- R360: the length of a bitmap. -/
def bitmapLen (v : Nat) : Nat := 64 * ((v + 511) / 512)

def State.gmaskIssue (s : State) (p : Nat) (x : SSrc) : Issue := issueOf (do
  s.needRegion
  let b := s.eng.bind
  let a := s.srcS x
  check b.bound .grammarBinding
  check (bits a 28 36 == 0) .grammarOperand
  check (bits a 0 6 == 0) .scratchpadAddress
  s.ctxPlace b.context
  s.spCheck (bits a 0 28) 64 .write
  let h ← s.imageHead b
  s.spCheck (bits a 0 28) (bitmapLen h.v) .write
  await (decide (s.eng.gram.length < 8)) 0x0A
  let us ← s.varWrite (predUnits p)
  .ok (us ++ imageEffects (s.imageTouched b [(0, 64)]) ++ [.reads [.y b.policy],
    .setEng { s.eng with gram := s.eng.gram ++ [⟨s.nextId, s.seq.count, s.k.jobtag, b, s.srcY b.policy, .mask p (bits a 0 28) (bitmapLen h.v)⟩] },
    .wait ⟨0, 0, 0, false, false, none, none, 0, some p, 48, true, .no, .gmask⟩]))

def execGmask (p : Nat) (x : SSrc) (s : State) : Host.Outcome State Fault Refusal := s.settle (s.gmaskIssue p x)

/-- R360: stores, scatters and drains that a command follows. -/
def State.writesBefore (s : State) (seq : Nat) : Bool :=
  s.storesBefore seq
    && !(s.pipe.waits.any fun w => w.outstanding && decide (w.seq < seq) && (match w.op with | .scatter .. => true | _ => false))
    && !(s.mat.queue.any fun e => decide (e.seq < seq) && (match e.op with | .drain .. => true | _ => false))

/-- The bitmap that a GMASK writes. -/
def State.gmaskValue (s : State) (b : Binding) : Except Issue Nat := do
  let h ← s.imageHead b
  check (ctxOk s.sp b.context h) .grammarContext
  let c := readCtx s.sp b.context
  let g ← s.situation b h c.state (ctxTop s.sp b.context c)
  s.maskOf b h g

/-- What a GMASK reads of the image, as far as it can be told now. -/
def State.gmaskReads (s : State) (b : Binding) : List (Nat × Nat) :=
  match s.imageHead b with
  | .error _ => [(0, 64)]
  | .ok h =>
    let c := readCtx s.sp b.context
    let top := ctxTop s.sp b.context c
    [(0, 64), sitRun h c.state top] ++ match s.situation b h c.state top with
      | .ok g => [(h.pool + 4 * g.moff, 4 * g.mruns)]
      | .error _ => []

/-- R70: a command uses its policy register as it stood at its issue. -/
def State.underPolicy (s : State) (g : GramCmd) : State := { s with regs := { s.regs with y := s.regs.y.set g.bind.policy g.pol } }

def State.gramDone (s : State) (id : Nat) : State :=
  { s with eng := { s.eng with gram := s.eng.gram.filter fun g => g.id != id }, fab := s.fab.clearPeeks 2 }

/-- A predicate that an engine gives, with its scoreboard bit (R37). -/
def State.arrivePred (s : State) (w : Wait) (b : Bool) : State :=
  match w.pd with
  | some p => { s with regs := s.regs.writeP p b }
  | none => s

/-- What a command of the engine finds while its region is open. -/
def State.gramStop (s : State) (w : Wait) (i : Issue) : Host.Outcome State Fault Refusal :=
  match i with
  | .trap t => .next ((s.gramDone w.id).faultOf w.slot w.seq t)
  | .pause es _ => .next (applyAll s es)
  | .halt f => .fault f
  | _ => .next s

def State.oldestGram (s : State) (id : Nat) : Option (GramCmd × Wait) :=
  match s.eng.gram with
  | g :: _ =>
    if g.id = id then (s.pipe.waits.find? fun w => w.id == id && w.outstanding).map fun w => (g, w) else none
  | [] => none

/-- R360: the command at the head of the queue writes its bitmap, and its predicate lands. -/
def execGmaskExecute (s : State) : Host.Outcome State Fault Refusal :=
  match s.oldestGram s.ev.id with
  | some (g, w) =>
    match g.op with
    | .mask _ a n =>
      if !s.writesBefore g.seq || !(s.k.priv || s.vaultOwned (vaultOf g.bind.context)) then .next s
      else
        let u := s.underPolicy g
        match u.gmaskValue g.bind with
        | .error i => s.gramStop w i
        | .ok m =>
          let x := u.imageTouched g.bind (u.gmaskReads g.bind)
          let s1 := (({ s with sp := Memory.write s.sp a (toBytes n m), tlb := x.tlb, l2 := x.l2 }.gramDone g.id).arrivePred w (m != 0)).arrive w.id .nothing 0
          .next (s1.traceArrival w (.scalar (if m = 0 then 0 else 1)))
    | _ => .next s
  | none => .next s

/-! ## GSTEP (R361) -/

structure GResult where
  code : Nat
  ctx : GCtx
  /-- symbols written to the stack, from a position on -/
  pos : Nat
  syms : List Nat
  deriving DecidableEq, Repr

/-- R361: a step under a valid context. -/
def State.gstepOn (s : State) (b : Binding) (h : GHead) (c : GCtx) (tok : Nat) : Except Issue GResult := do
  if h.v ≤ tok then .ok ⟨4, c, 0, []⟩
  else
    let g ← s.situation b h c.state (ctxTop s.sp b.context c)
    let cls ← s.tokenClass b h tok
    let ts ← s.transitions b h (h.trans + 16 * g.toff) none g.tcount
    match ts.find? fun t => t.cls == cls with
    | none => .ok ⟨1, c, 0, []⟩
    | some t =>
      if c.depth - 1 < t.npop then .ok ⟨3, c, 0, []⟩
      else if 4096 < c.depth - t.npop + t.push.length then .ok ⟨2, c, 0, []⟩
      else
        let d := c.depth - t.npop + t.push.length
        let top := match t.push.getLast? with | some p => p | none => ctxSym s.sp b.context (d - 1)
        let now ← s.situation b h t.next top
        .ok ⟨0, { c with state := t.next, depth := d, acc := now.acc }, c.depth - t.npop, t.push⟩

/-- R361: the step, with its counts. -/
def State.gstepResult (s : State) (tok : DWord) : Except Issue GResult := do
  let b := s.eng.bind
  let h ← s.imageHead b
  if tok = BitVec.twoPow 64 63 then
    check (ctxReserved s.sp b.context) .grammarContext
    let g ← s.situation b h h.start 0
    .ok ⟨5, ⟨h.start, 1, 0, 0, g.acc⟩, 0, [0]⟩
  else
    check (ctxOk s.sp b.context h) .grammarContext
    let r ← s.gstepOn b h (readCtx s.sp b.context) tok.toNat
    if r.code = 0 then .ok { r with ctx := { r.ctx with steps := (r.ctx.steps + 1) % 2 ^ 32 } }
    else .ok { r with ctx := { r.ctx with refused := min (r.ctx.refused + 1) (2 ^ 32 - 1) } }

/-- What a step that has found `r` has read of the image. -/
def State.gstepReads (s : State) (tok : DWord) (r : GResult) : List (Nat × Nat) :=
  let b := s.eng.bind
  match s.imageHead b with
  | .error _ => []
  | .ok h =>
    let c := readCtx s.sp b.context
    let top := ctxTop s.sp b.context c
    (0, 64) :: (if r.code = 5 then [sitRun h h.start 0] else if r.code = 4 then []
      else sitRun h c.state top :: (h.cmap + tok.toNat / 4 * 8, 8) :: (match s.situation b h c.state top with
        | .ok g => [(h.trans + 16 * g.toff, 16 * g.tcount)]
        | .error _ => [])
      ++ (if r.code = 0 then [sitRun h r.ctx.state (r.syms.getLast?.getD (ctxSym s.sp b.context (r.ctx.depth - 1)))] else []))

/-- What a step writes: the context, the record and D. -/
def State.gstepEffects (s : State) (d : SDst) (r : GResult) : List Effect :=
  let b := s.eng.bind
  let c := r.ctx
  let d0 := c.state + c.depth * 2 ^ 16 + r.code * 2 ^ 32 + (if c.acc then 2 ^ 36 else 0)
  let soft := decide (1 ≤ r.code ∧ r.code ≤ 4)
  let refused := min 65535 (bits b.gstat 0 16 + (if soft then 1 else 0))
  let v : DWord := BitVec.ofNat 64 (c.state * 2 ^ 32 + c.depth * 2 ^ 16 + (if c.acc then 2 ^ 8 else 0) + r.code)
  [.sp b.context (toBytes 8 d0 ++ toBytes 8 (c.refused * 2 ^ 32 + c.steps)),
    .sp (b.context + 64 + 2 * r.pos) (r.syms.flatMap (toBytes 2)),
    .setEng { s.eng with bind := { b with gstat := gstatOf r.code c.state c.depth refused } },
    .setFab (s.fab.clearPeeks 2),
    .land 0 0 (.scalar d v)] ++ s.traceValue v

def State.gstepIssue (s : State) (d : SDst) (x : SSrc) : Issue :=
  let tok := s.srcS x
  s.boundaryIssue
    (do
      s.needRegion
      let b := s.eng.bind
      check b.bound .grammarBinding
      check (!tok.getLsbD 63 || tok == BitVec.twoPow 64 63) .grammarOperand
      s.ctxPlace b.context
      await (s.k.priv || s.vaultOwned (vaultOf b.context)) 0x0F
      let _ ← s.gstepResult tok
      .ok ())
    (fun s => do
      let r ← s.gstepResult tok
      .ok (imageEffects (s.imageTouched s.eng.bind (s.gstepReads tok r)) ++ s.gstepEffects d r))

def execGstep (d : SDst) (x : SSrc) (s : State) : Host.Outcome State Fault Refusal := s.settle (s.gstepIssue d x)

/-! ## SAMPLE (R365 to R368) -/

/-- R366: the integer nearest to 2^(31 + j/256): the greatest N with (2N − 1)^256 at most 2^(8192 + j). -/
def exp2Root (j : Nat) : Nat → Nat → Nat
  | 0, n => n
  | k + 1, n => let m := n + 2 ^ k; exp2Root j k (if (2 * m - 1) ^ 256 ≤ 2 ^ (8192 + j) then m else n)

def exp2T (j : Nat) : Nat := if j = 256 then 2 ^ 32 else exp2Root j 33 0

/-- R366, for a value −n / 2^149 that is at least −32. -/
def exp2Fixed (n : Nat) : Nat :=
  let z : Int := -(n : Int)
  let m := (-(z / 2 ^ 149)).toNat
  let r := (z % 2 ^ 149).toNat
  let j := 256 * r / 2 ^ 149
  let f := 256 * r % 2 ^ 149 * 2 ^ 16 / 2 ^ 149
  let base := exp2T j + ((exp2T (j + 1) - exp2T j) * f + 2 ^ 15) / 2 ^ 16
  (base + 2 ^ m / 2) / 2 ^ m

/-- R366: EXP2Q of an f32. -/
def exp2Q (z : Nat) : Nat :=
  match fmtF32.decode z with
  | .fin _ n e =>
    let scaled := scaleNum n (e + 149)
    if 32 * 2 ^ 149 < scaled then 0 else exp2Fixed scaled
  | .zero _ => 2 ^ 31
  | _ => 0

/-- R367: LOG2E. -/
def log2E : Nat := 0x3FB8AA3B

/-- R367: the weight of a logit under the greatest one. -/
def weight (m invt x : Nat) : Nat :=
  match fmtF32.decode x with
  | .nan => 0
  | .inf true => 0
  | fx =>
    if x = m then 2 ^ 31
    else
      let diff := (exactAdd .rne fx (fmtF32.decode m).negate).1
      let d := (fmtF32.pack .rne false 0 (exactMul diff (fmtF32.decode invt))).1
      if d = fmtF32.inf true then 0 else exp2Q (fpMul fmtF32 .rne d log2E).1

/-- R155: the greatest logit that is a number; none when there is none. -/
def greatest (l : List (Nat × Nat)) : Nat :=
  l.foldl (fun m (_, x) => if fmtF32.isNan x then m else if fmtF32.key m < fmtF32.key x then x else m) (fmtF32.inf true)

/-- The first whose running sum passes the target. -/
def passes (target : Nat) : Nat → List (Nat × Nat) → Option Nat
  | _, [] => none
  | sum, (i, w) :: l => if target < sum + w then some i else passes target (sum + w) l

/-- R367: the token drawn from the legal logits, as pairs of index and value. -/
def drawToken (u : DWord) (invt : Nat) (l : List (Nat × Nat)) : Nat :=
  let m := greatest l
  let ws := l.map fun (i, x) => (i, weight m invt x)
  let total := ws.foldl (fun n (_, w) => n + w) 0
  if total = 0 then
    match l.find? fun (_, x) => x == m with
    | some (i, _) => i
    | none => (l.head?.map (·.1)).getD 0
  else (passes (u.toNat * total / 2 ^ 64) 0 ws).getD 0

def sampleN (p1 : DWord) : Nat := bits p1 0 18 + 1

/-- R365: the operands of a pair. -/
def sampleOk (p0 p1 : DWord) : Bool :=
  bits p0 56 7 == 0 && bits p0 0 6 == 0 && (p0.getLsbD 63 || bits p0 28 6 == 0) && bits p1 18 14 == 0
    && (match fmtF32.decode (bits p1 32 32) with | .fin false _ _ => true | _ => false)

def State.sampleIssue (s : State) (d : SDst) (x p : Nat) : Issue := issueOf (do
  s.needRegion
  let p0 := s.srcS (.reg x)
  let p1 := s.srcS (.reg (x + 1))
  check (sampleOk p0 p1) .grammarOperand
  s.spCheck (bits p0 0 28) (4 * sampleN p1) .read
  if !p0.getLsbD 63 then s.spCheck (bits p0 28 28) ((sampleN p1 + 7) / 8) .read
  await (decide (s.eng.gram.length < 8)) 0x0A
  let us ← s.varWrite (sDstUnits d ++ predUnits p)
  .ok (us ++ drawEffects ++ [
    .setEng { s.eng with gram := s.eng.gram ++ [⟨s.nextId, s.seq.count, s.k.jobtag, s.eng.bind, 0, .sample p0 p1 p s.regs.fmt s.k.rngKey s.drawCtr⟩] },
    .wait ⟨0, 0, 0, false, false, some d, none, 0, some p, 96, false, .no, .sample⟩]))

def execSample (d : SDst) (x : Nat) (p : Nat) (s : State) : Host.Outcome State Fault Refusal := s.settle (s.sampleIssue d x p)

/-- The legal logits of a command. -/
def State.legalLogits (s : State) (p0 p1 : DWord) : List (Nat × Nat) :=
  let n := sampleN p1
  let m := if p0.getLsbD 63 then 2 ^ n - 1 else Memory.word s.sp (bits p0 28 28) ((n + 7) / 8)
  let xs := splitN n (2 ^ 32) (Memory.word s.sp (bits p0 0 28) (4 * n))
  (xs.zipIdx.filter fun (_, i) => m.testBit i).map fun (x, i) => (i, x)

/-- R367: the command at the head of the queue draws. -/
def execSampleExecute (s : State) : Host.Outcome State Fault Refusal :=
  match s.oldestGram s.ev.id with
  | some (g, w) =>
    match g.op with
    | .sample p0 p1 _ fmt key ctr =>
      let l := s.legalLogits p0 p1
      let s1 := (s.gramDone g.id).arrivePred w (!l.isEmpty)
      if l.isEmpty then .next (s1.arriveTraced w (.scalar 0xFFFFFFFF#64) flagNoLegal)
      else .next (s1.arriveTraced w (.scalar (BitVec.ofNat 64 (drawToken (mix key ctr (fmtStream fmt) 0) (bits p1 32 32) l))) 0)
    | _ => .next s
  | none => .next s

/-! ## RAND, RANDS (R369, R370) -/

def State.randIssue (s : State) (d : VDst) (x : SSrc) : Issue := issueOf (do
  s.needRegion
  let v := s.srcS x
  check (bits v 16 48 == 0) .grammarOperand
  let ls := (List.range 1024).map fun i => (mix s.k.rngKey s.drawCtr (bits v 0 16) i).toNat
  .ok (drawEffects ++ [.land 6 0 (.vector d (ofLanes 8 ls) (maskBits s.top 4))]))

def State.randsIssue (s : State) (d : SDst) (x : SSrc) : Issue := issueOf (do
  s.needRegion
  let v := s.srcS x
  check (bits v 32 32 == 0) .grammarOperand
  .ok (drawEffects ++ [.land 2 0 (.scalar d (mix s.k.rngKey s.drawCtr (bits v 0 16) (bits v 16 16)))]))

def execRand (d : VDst) (x : SSrc) (s : State) : Host.Outcome State Fault Refusal := s.settle (s.randIssue d x)
def execRands (d : SDst) (x : SSrc) (s : State) : Host.Outcome State Fault Refusal := s.settle (s.randsIssue d x)

end Sys2Proof.Machine
end

