-- ==== Sys2Proof/Machine/Sched.lean ====
section
/-! DEFINITION. Launch queues, selection, groups, presence and watchdogs (14_launch R373 to R392), and partition reset (R388). -/

namespace Sys2Proof.Machine

/-! ## Launch records (R376) -/

def recEntry (r : Record) : VAddr := BitVec.ofNat 48 (bits r 0 48)
def recRetrace (r : Record) : BitVec 8 := BitVec.ofNat 8 (bits r 56 8)
def recArgs (r : Record) : BitVec 48 := BitVec.ofNat 48 (bits r 64 48)
def recKey (r : Record) : DWord := dwOf r 3
def recBudget (r : Record) : BitVec 48 := BitVec.ofNat 48 (bits r 384 48)
/-- Group slot `k`: armed, and its group. -/
def recArmed (r : Record) (k : Nat) : Bool := r.getLsbD (448 + 32 + k)
def recGroup (r : Record) (k : Nat) : Nat := bits r (448 + 8 * k) 8
/-- R390: the value of GROUPS. -/
def recGroups (r : Record) : DWord :=
  BitVec.ofNat 64 ((List.range 4).foldl (fun n k => n + (recGroup r k + if recArmed r k then 2 ^ 15 else 0) * 2 ^ (16 * k)) 0)

/-- R375, R376, R405: what a record must satisfy on this node. -/
def State.recOk (s : State) (r : Record) : Bool :=
  bits r 52 4 == 0 && bits r 0 4 == 0 && decide (bits r 176 16 ≤ 32768) && bits r 286 2 == 0 && bits r 270 2 == 0 && bits r 376 8 == 0
    && bits r 432 16 == 0 && bits r 484 28 == 0
    && consistent s.k.nodeId (recSubcube r).subbase (recSubcube r).submask (recSubcube r).dimmap
    && (maskVaults (recVaults r)).all fun v => match s.vaults[v]? with | some y => !y.quarantined | none => false

/-! ## Queues (R373 to R377) -/

def State.queue (s : State) (q : Nat) : LQueue := (s.sch.queues[q]?).getD .reset
def State.setQueue (s : State) (q : Nat) (g : LQueue → LQueue) : State := { s with sch := updQueue s.sch q g }
def LQueue.prio (l : LQueue) : Nat := (l.recs.head?.map recPrio).getD 0
def LQueue.job (l : LQueue) : Option (BitVec 16) := l.recs.head?.map recJob

/-- R374. -/
def qstateCode : QState → Nat
  | .idle => 0 | .acquiring => 1 | .ready => 2 | .running => 3 | .saved => 4 | .held => 5 | .resetting => 6

def LQueue.qstat (l : LQueue) : DWord :=
  BitVec.ofNat 64 (l.done.toNat * 2 ^ 32 + l.refused * 2 ^ 16 + l.recs.length * 2 ^ 13 + l.prio * 2 ^ 8 + qstateCode l.state)

/-- R377, step 1: the oldest record's program becomes current and requests its vaults. -/
def State.beginRecord (s : State) (q : Nat) : State :=
  match (s.queue q).recs.head? with
  | none => s.setQueue q fun l => { l with state := .idle, hold := .none, region := none, started := false }
  | some r =>
    { s.setQueue q (fun l => { l with state := .acquiring, hold := .none, region := none, started := false, serviced := false }) with
      acqs := s.acqs ++ [⟨s.nextId, recJob r, recPrio r, true, recVaults r, q⟩]
      nextId := s.nextId + 1 }

/-- R373, R412, R413: the current program of a queue has ended, and DONE counts it. -/
def State.endRecord (s : State) (q : Nat) : State :=
  let s1 := s.setQueue q fun l => { l with recs := l.recs.tail, done := l.done + 1 }
  let s2 : State := { s1 with
    acqs := s1.acqs.filter fun a => !(a.whole && a.queue == q)
    sch := { s1.sch with
      running := if s1.sch.running = some q then none else s1.sch.running
      notices := s1.sch.notices.filter fun n => n.queue != some q }
    hst := if s1.hst.qdoneen.getLsbD q then s1.hst.setHint s1.k.vector 8 else s1.hst }
  s2.beginRecord q

/-- R375: a refusal. -/
def State.refuse (s : State) (q : Nat) : State := s.setQueue q fun l => { l with refused := min 65535 (l.refused + 1) }

/-- A record arrives at a queue: 0 accepted, 1 the queue is full, 2 a check fails (R375, R384). -/
def State.takeRecord (s : State) (q : Nat) (r : Record) : State × Nat :=
  if 4 ≤ (s.queue q).recs.length then (s.refuse q, 1)
  else if !s.recOk r then (s.refuse q, 2)
  else
    let s1 := s.setQueue q fun l => { l with recs := l.recs ++ [r] }
    (if (s.queue q).recs.isEmpty then s1.beginRecord q else s1, 0)

/-- R375, R416, R422, R423: a write to a queue's SLOT; `broken` says that it is not one aligned write of 64 bytes. -/
def State.slotWrite (s : State) (q : Nat) (broken : Bool) (r : Record) : State :=
  if broken || !s.hst.featSet || s.hst.brstat != 0x70 || decide (2 ≤ s.hst.pstate.toNat) then s.refuse q else (s.takeRecord q r).1

/-- R373: an offset of the launch window: node of the package, queue, offset in the page. -/
def launchPage (off : Nat) : Nat × Nat × Nat := (off / 2 ^ 18, off / 2 ^ 12 % 64, off % 2 ^ 12)

/-- R373, R375: a write of bytes to the launch window. Only this node's pages concern it, and of them only SLOT takes writes. -/
def State.launchWrite (s : State) (off : Nat) (bs : List Byte) : State :=
  let (n, q, o) := launchPage off
  if n ≠ s.k.nodeId.toNat % 4 ∨ 64 ≤ o then s
  else s.slotWrite q (decide (o ≠ 0 ∨ bs.length ≠ 64)) (BitVec.ofNat 512 (leNat bs))

/-- The act gives the bytes and where in the window they fall, or, with no bytes, the queue and the record themselves. -/
def execSlotWrite (s : State) : Host.Outcome State Fault Refusal :=
  .next (if s.ev.bytes.isEmpty then s.slotWrite (s.ev.num % 64) s.ev.flag s.ev.record else s.launchWrite s.ev.off s.ev.bytes)

/-! ## Selection (R378, R379) -/

/-- R407: a job that is fenced on this node. -/
def State.fencedJob (s : State) (job : BitVec 16) : Bool := s.err.fenced.contains job

def State.readyQueues (s : State) : List (Nat × LQueue) :=
  (s.sch.queues.zipIdx.map fun (l, q) => (q, l)).filter fun x =>
    (x.2.state == .ready || x.2.state == .saved) && !(match x.2.job with | some j => s.fencedJob j | none => false)

def bestPrio (l : List (Nat × LQueue)) : Option Nat :=
  l.foldl (fun m x => match m with | none => some x.2.prio | some p => some (max p x.2.prio)) none

/-- The queue that runs or is held. -/
def State.occupant (s : State) : Option (Nat × LQueue) :=
  (s.sch.queues.zipIdx.map fun (l, q) => (q, l)).find? fun x => x.2.state == .running || x.2.state == .held

/-- Of queues of one priority, the one nearest after the rotation pointer. -/
def nearest (ptr : Nat) : List Nat → Option Nat
  | [] => none
  | q :: l => match nearest ptr l with | some r => if (q + 64 - ptr) % 64 ≤ (r + 64 - ptr) % 64 then some q else some r | none => some q

/-- R378: the ready queue of priority `p` that SELECT takes. -/
def State.chosen (s : State) (p : Nat) : Option Nat :=
  nearest ((s.sch.next[p]?).getD 0) ((s.readyQueues.filter fun x => x.2.prio == p).map (·.1))

/-- R378: what SELECT starts. The supervisor's RFT runs SELECT, so nothing starts while it runs (R399). -/
def State.selects (s : State) : Option Nat :=
  if s.k.priv || s.hst.off || decide (2 ≤ s.hst.pstate.toNat) || s.err.stopped || s.err.node || s.occupant.isSome then none
  else
    match bestPrio s.readyQueues with
    | none => none
    | some p => s.chosen p

/-- R378, R379: SELECT with a program that runs or is held: a pre-emption request, and its grace period. -/
def State.requestSwitch (s : State) : State :=
  match s.occupant, bestPrio s.readyQueues with
  | some x, some p =>
    if x.2.prio < p ∧ s.sch.preempt.isNone then { s with sch := { s.sch with preempt := some (s.clock + s.hst.grace.toNat) } } else s
  | _, _ => s

/-! ## Starting (R377) -/

/-- An entry of the group table (R389). -/
structure Group where
  valid : Bool
  mask : BitVec 14
  base : BitVec 14
  sig : Nat
  vault : Nat
  gen : BitVec 16
  deriving DecidableEq, Repr

def groupOf (e : DWord) : Group :=
  ⟨e.getLsbD 63, BitVec.ofNat 14 (bits e 48 14), BitVec.ofNat 14 (bits e 34 14), bits e 29 5 * 2 ^ 23 + bits e 16 13 * 8, bits e 29 5,
    BitVec.ofNat 16 (bits e 0 16)⟩

def State.group (s : State) (g : Nat) : Group := groupOf ((s.k.gtable[g]?).getD 0)

/-- R390. -/
def State.groupsOk (s : State) (r : Record) : Bool :=
  let ks := (List.range 4).filter (recArmed r)
  decide (ks.map (recGroup r)).Nodup && ks.all fun k =>
    let g := s.group (recGroup r k)
    let c := recSubcube r
    g.valid && decide (s.k.nodeId &&& ~~~g.mask = g.base) && decide (g.mask &&& ~~~c.submask = 0) && decide (g.base &&& ~~~c.submask = c.subbase)
      && (recVaults r).getLsbD g.vault

/-- R385: the presence map of a job begins anew with its program, unless the node runs or holds another of the job (log 131). -/
def State.freshMap (s : State) (q : Nat) (job : BitVec 16) : State :=
  if s.sch.queues.zipIdx.any fun (l, i) => i != q && l.job == some job && (l.state == .running || l.state == .held || l.state == .saved) then s
  else { s with sch := { s.sch with presence := s.sch.presence.filter fun x => x.1 != job } }

/-- R377, step 3. -/
def State.startProgram (s : State) (q : Nat) (r : Record) : State :=
  let c := recSubcube r
  let k := { s.k with
    jobtag := recJob r, subbase := c.subbase, submask := c.submask, dimmap := c.dimmap, rngKey := recKey r, rngCtr := 0, retrace := recRetrace r,
    wdbudget := recBudget r, wdleft := recBudget r, groups := recGroups r, rcount := 0, rtag := 0, priv := false }.derive
  let s1 : State := { s with
    k := k
    regs := { s.regs.emptyQueues with s := s.regs.s.set 2 ((recArgs r).setWidth 64), masks := [] }
    seq := { s.seq with
      pc := recEntry r, redirects := [], loops := [], delay := 0, delayEnd := .none, trapReq := none, dueTrap := none, issued := 0, outside := 0,
      perform := none, words := [], pend := none, waited := 0, stall := none, bun := .start }
    pipe := ⟨[], [], []⟩
    rgn := none
    eng := { s.eng with bind := { s.eng.bind with bound := false } }
    xch := { s.xch with ports := s.xch.ports.map fun js => setXseq js (recJob r) 0 }
    sch := { updQueue s.sch q (fun l => { l with state := .running, started := true }) with
      running := some q, serving := none, preempt := none } }
  ((s1.trace 6 0 ((recEntry r).setWidth 64)).freshMap q (recJob r)).announce (recJob r) .present

/-- R381: a saved program is about to resume: the supervisor brings its context back. -/
def State.askResume (s : State) (q : Nat) : State :=
  let s1 := { s with sch := { s.sch with preempt := none } }.enter (causeWord 3 Cause.resumeRequest.code) (s.queue q).epc 0 0 .none none
  { s1 with sch := { s1.sch with serving := some q } }

/-- R378: SELECT takes queue `num`; its program starts or resumes. -/
def execQueueStart (s : State) : Host.Outcome State Fault Refusal :=
  .next (match s.selects with
    | none => s
    | some q =>
      if q ≠ s.ev.num then s
      else
        let l := s.queue q
        let s1 := { s with sch := { s.sch with next := s.sch.next.set l.prio ((q + 1) % 64) } }
        match l.state, l.recs.head? with
        | .ready, some r => s1.startProgram q r
        | .saved, _ => s1.askResume q
        | _, _ => s1)

/-! ## Vaults that are granted (R211, R212, R377) -/

/-- R211, R377: the program of a queue has the vaults that it asked for: its set has been granted, and none of it is being scrubbed (log 124). -/
def State.vaultsReady (s : State) (q : Nat) : Bool :=
  match (s.queue q).recs.head? with
  | some r => (s.queue q).state == .acquiring && !(s.acqs.any fun a => a.whole && a.queue == q)
      && (maskVaults (recVaults r)).all fun v => (s.vaults[v]?).all fun y => y.state != .scrubbing
  | none => false

/-- R377, steps 2 and 3: a queue's program has its vaults; its group slots are checked. -/
def State.granted (s : State) (q : Nat) : State :=
  match (s.queue q).recs.head? with
  | none => s
  | some r =>
    if s.groupsOk r then (s.setQueue q fun l => { l with state := .ready }).requestSwitch
    else
      let s1 := s.errorRecord 6 (recJob r) 0 q 15 0 (recEntry r) 0 0 false
      { s1 with vaults := mapVaults s1.vaults (recVaults r) (releaseOne (recJob r)) }.endRecord q

/-- R212, R377: the acquisition whose turn it is takes its vaults. -/
def execVaultAcquisitionGrant (s : State) : Host.Outcome State Fault Refusal :=
  .next (match s.nextGrant with
    | none => s
    | some a =>
      let s1 := { s with vaults := mapVaults s.vaults a.vaults (grantVault s.clock a.job), acqs := s.acqs.erase a }
      (if s1.vaultsReady a.queue then s1.granted a.queue else s1).admitAllOf a.job)

/-- R211, R214: a scrubbed vault is its job's: what waited for it is admitted, and queues that it was the last vault for are ready. -/
def execScrubComplete (s : State) : Host.Outcome State Fault Refusal :=
  let s1 := s.scrubbed s.ev.num
  .next (match s1.vaults[s.ev.num]? with
    | some v => ((List.range 64).foldl (fun s q => if s.vaultsReady q then s.granted q else s) s1).admitAllOf v.owner
    | none => s1)

/-! ## LAUNCH, EXIT, YIELD (R384) -/

/-- The operands of LAUNCH. -/
def State.launchCheck (s : State) (v : DWord) : Except Issue Record := do
  let a := bits v 0 28
  check (bits v 28 4 == 0 && bits v 38 26 == 0 && a % 64 == 0) .launch
  check (spExtent a 64) .scratchpadAddress
  match s.rgn with
  | some _ => check (s.k.priv || s.discipline (vaultOf a) .read) .vaultDiscipline
  | none => check (s.k.priv || s.vaultOwned (vaultOf a)) .vaultOwnership
  let r : Record := ofDws (Memory.dwords s.sp a 8)
  let c := recSubcube r
  check (recJob r == s.k.jobtag && decide (recPrio r ≤ s.curPrio) && decide (c.submask &&& ~~~s.k.submask = 0)
    && decide ((c.subbase ^^^ s.k.subbase) &&& ~~~s.k.submask = 0)) .launch
  .ok r

def State.launchIssue (s : State) (d : SDst) (x : SSrc) : Issue :=
  let v := s.srcS x
  let r := s.launchCheck v
  s.boundaryIssue (do let _ ← r; .ok ()) (fun s => do
    let r : Record := ofDws (Memory.dwords s.sp (bits v 0 28) 8)
    let (s1, code) := s.takeRecord (bits v 32 6) r
    .ok [.setSch s1.sch, .setAcqs s1.acqs, .ids (s1.nextId - s.nextId), .land 0 0 (.scalar d (BitVec.ofNat 64 code))])

/-- What EXIT does to the running queue. -/
def State.exits (s : State) (code : BitVec 32) : State :=
  match s.sch.running with
  | none => s
  | some q =>
    let vs := ((s.queue q).recs.head?.map recVaults).getD 0
    let s1 := (s.setQueue q fun l => { l with exit := code })
    { s1 with vaults := mapVaults s1.vaults vs (releaseOne s1.k.jobtag) }.endRecord q

def State.exitEffects (s : State) (code : BitVec 32) : List Effect :=
  let s1 := s.exits code
  [.setSch s1.sch, .setVaults s1.vaults, .setAcqs s1.acqs, .setHst s1.hst, .ids (s1.nextId - s.nextId)]

/-- R106, R384: a trap that the commit brings is taken before EXIT performs; EXIT then issues again outside region mode. -/
def State.exitIssue (s : State) (x : SSrc) : Issue :=
  let code : BitVec 32 := (s.srcS x).setWidth 32
  match s.rgn with
  | none => .done (s.exitEffects code)
  | some r => issueOf (do
      s.commitReady r
      let first := s.signEffects r ++ [.commit]
      let t := (s.signed r).commitRegion
      if t.seq.dueTrap.isSome then .error (.pause first 0x09) else .ok (first ++ t.exitEffects code))

/-- R384: SELECT would choose another queue of equal priority. -/
def State.yieldsTo (s : State) : Bool := bestPrio s.readyQueues == some s.curPrio && s.sch.running.isSome

def State.yieldIssue (s : State) : Issue :=
  s.boundaryIssue (.ok ()) (fun s => .ok (if s.yieldsTo then [.yields] else []))

def execLaunch (d : SDst) (x : SSrc) (s : State) : Host.Outcome State Fault Refusal := s.settle (s.launchIssue d x)
def execExit (x : SSrc) (s : State) : Host.Outcome State Fault Refusal := s.settle (s.exitIssue x)
def execYield (s : State) : Host.Outcome State Fault Refusal := s.settle s.yieldIssue

/-! ## Pre-emption (R379, R135) -/

/-- R135: a discard for an event; RCOUNT counts it, and it is no retrace (R131). -/
def State.discardFor (s : State) (r : Region) (c : Cause) (eva : VAddr) (einfo : DWord) : State :=
  let d := (s.dropRegion r).traceDiscard c.code r.snap.entry
  d.enter (causeWord 3 c.code) r.snap.entry eva einfo .region d.rgn

/-- R379: the grace period is over. A region that commits is not discarded any more (R129). -/
def State.graceOver (s : State) : Bool :=
  !s.k.priv && (s.rgn.any fun r => !r.committing) && (match s.sch.preempt with | some t => decide (t ≤ s.clock) | none => false)

def execGraceExpiry (s : State) : Host.Outcome State Fault Refusal :=
  .next (match s.rgn with
    | some r => if s.graceOver then { s with sch := { s.sch with preempt := none } }.endStall.discardFor r .preemption 0 0 else s
    | none => s)

/-! ## Presence (R385) -/

/-- The logical dimension of a job's subcube that a packet crossed. -/
def cubeDim (c : Subcube) (d : Nat) : Option Nat := (List.range (popc c.submask)).find? fun i => mapDim c.dimmap i == d

/-- R385: a notice goes on across every logical dimension above the one that brought it. -/
def State.forwardNotice (s : State) (p : Packet) : State :=
  match s.jobCube p.job with
  | none => s
  | some c =>
    match cubeDim c (s.portFrom p) with
    | none => s
    | some d => (((List.range (popc c.submask)).filter fun i => d < i).map (mapDim c.dimmap)).foldl (fun s i => s.control i p.job (p.dw 2)) s

/-! ## Partition reset (R388) -/

/-- The physical ranges of a job's pages that are homed here: every leaf that its tables hold (R236). -/
def tableLeaves (m : Memory) : Nat → Nat → Nat → List (Nat × Nat)
  | 0, _, _ => []
  | fuel + 1, lvl, t =>
    (List.range (if lvl = 4 then 32 else 512)).flatMap fun i =>
      let e := m.dword (t + 8 * i)
      if !e.getLsbD 0 then []
      else if e.getLsbD 1 then (if bits e 40 14 = 0 then [(bits e 16 21 * 2 ^ 16, if lvl = 3 then 2 ^ 21 else 2 ^ 16)] else [])
      else if lvl = 4 then [] else tableLeaves m fuel (lvl + 1) (bits e 8 29 * 2 ^ 8)

def State.jobPages (s : State) (job : BitVec 16) : List (Nat × Nat) :=
  let d := Memory.dword s.hbm (s.hst.jtbase.toNat + 16 * job.toNat)
  if d.getLsbD 0 then tableLeaves s.hbm 4 1 (bits d 12 25 * 2 ^ 12) else []

/-- Step 5: pins of the job's lines. A table is read only where some line is pinned. -/
def State.unpinJob (s : State) (job : BitVec 16) : List L2Line :=
  if s.l2.any fun x => decide (0 < x.pins) then
    let ps := s.jobPages job
    s.l2.map fun x => if ps.any (fun p => decide (p.1 ≤ x.line * 128 ∧ x.line * 128 < p.1 + p.2)) then { x with pins := 0 } else x
  else s.l2

def freeOf (job : BitVec 16) (v : Vault) : Vault :=
  if v.state = .owned ∧ v.owner = job then { v with state := .releasing }
  else if v.state = .scrubbing ∧ v.owner = job then { v with state := .free } else v

/-- R330: packets and flows of the job. -/
def Fab.purge (f : Fab) (job : BitVec 16) : Fab :=
  { f with
    answers := f.answers.filter fun a => a.job != job
    tx := f.tx.filter fun t => t.job != job
    rx := f.rx.filter fun r => r.job != job
    reqs := f.reqs.filter fun q => q.job != job
    serial := f.serial.filter fun x => x.job != job
    shoots := f.shoots.filter fun x => x.job != job
    gone := f.gone.filter fun g => g.job != job
    probes := f.probes.filter fun p => p.job != job }

/-- R408: errors of the job that no test has followed get their records, of kind 8. -/
def State.recordUntested (s : State) (job : BitVec 16) : State :=
  let us := s.err.untested.filter fun u => u.job == job
  let s1 := us.foldl (fun (s : State) u => s.errorRecord 8 u.job u.cause u.queue u.uclass u.unit_ u.epc u.eva u.einfo
    (u.cause.toNat % 4096 == 0x015) 0 (some u.csn)) s
  { s1 with err := { s1.err with untested := s1.err.untested.filter fun u => u.job != job } }

/-- Steps 2 to 5: everything of the job stops. -/
def State.stopJob (s : State) (job : BitVec 16) : State :=
  let mine := s.k.jobtag == job && s.sch.running.isSome
  let s1 : State := match s.rgn with
    | some r => if mine && !s.k.priv then { s.dropRegion r with rgn := none } else s
    | none => s
  let s2 : State := { s1 with
    pipe := if mine && !s1.k.priv then ⟨[], [], []⟩ else s1.pipe
    seq := if mine && !s1.k.priv then { s1.seq with redirects := [], delay := 0, delayEnd := .none, trapReq := none, dueTrap := none, perform := none, words := [], pend := none, waited := 0, stall := none }
      else s1.seq
    buf := s1.buf.filter fun e => e.job != job
    eng := { s1.eng with copies := s1.eng.copies.filter (fun c => c.job != job), gram := s1.eng.gram.filter (fun g => g.job != job) }
    xch := { s1.xch with ports := s1.xch.ports.map fun js => js.filter fun j => j.job != job }
    fab := s1.fab.purge job
    vaults := s1.vaults.map (freeOf job)
    acqs := s1.acqs.filter fun a => a.job != job || a.whole
    l2 := s1.unpinJob job
    k := if s1.k.jobtag = job then { s1.k with groups := s1.k.groups &&& ~~~0x8000800080008000#64 } else s1.k
    err := { s1.err with fenced := s1.err.fenced.filter (fun f => f != job), engine := s1.err.engine.filter fun e => e.1 != job }
    sch := { s1.sch with
      barriers := s1.sch.barriers.filter fun b => b.job != job
      early := s1.sch.early.filter fun x => x.1 != job
      preempt := if mine then none else s1.sch.preempt } }
  (s2.purgeLanes job).recordUntested job

/-- R434: the entry bundle of the region of a job that the reset discards, of the first queue that has one, or 0. -/
def State.heldEntry (s : State) (qs : List Nat) : VAddr :=
  (qs.findSome? fun q => (if s.sch.running = some q ∧ !s.k.priv then s.rgn else (s.queue q).region).map fun g => g.snap.entry).getD 0

/-- R435: after a reset every entry of the job's presence map reads reset. -/
def State.allReset (s : State) (job : BitVec 16) : State :=
  match s.jobCube job with
  | none => s
  | some c =>
    { s with sch := { s.sch with presence := (s.sch.presence.filter fun x => x.1 != job)
        ++ (List.range (2 ^ popc c.submask)).map fun l => (job, l, Presence.reset) } }

/-- Steps 2 to 6 on this node; the record carries the cause with which the supervisor that issued QRST was entered, or 0; a node where the job is
current in no queue writes one too (R434), for queue 0 (log 58). -/
def State.resetJob (s : State) (job cause : BitVec 16) : State :=
  let qs := (s.sch.queues.zipIdx.filter fun (l, _) => l.job == some job && l.state != .idle).map (·.2)
  qs.foldl State.endRecord (((s.stopJob job).allReset job).errorRecord 4 job cause (qs.headD 0) 15 0 (s.heldEntry qs) 0 0 false)

/-- R388: bit 30 of doubleword 2 marks a reset notice that goes across a detour, for the nodes between (log 125). -/
def detourNotice : Nat := 30

/-- Step 1: the notice, and, marked, the same across the detours of links that are down (R388). -/
def State.announceReset (s : State) (job : BitVec 16) : State :=
  match s.jobCube job with
  | none => s
  | some c =>
    let l := logicalOf s.k.nodeId c.submask c.dimmap
    let d2 := BitVec.ofNat 64 (0x02 + 3 * 2 ^ 8 + l * 2 ^ 16)
    let downs := ((List.range 14).filter fun d => c.submask.getLsbD d && linkState s.k.linkstat d == 2).map (detourDim s.k.detour)
    downs.foldl (fun s e => s.control e job (d2 ||| BitVec.twoPow 64 detourNotice)) (s.announce job .reset)

/-- R385, R388: a notice updates the map and goes on; a reset notice resets the job here too. A node between the ends of a detour only purges, and
passes nothing on; one of the job's subcube has the notice from a neighbour there. -/
def State.noticeArrives (s : State) (p : Packet) : State :=
  if (p.dw 2).getLsbD detourNotice then
    (if (s.jobCube p.job).isSome then s else { s with fab := s.fab.purge p.job }.purgeLanes p.job)
  else
  let st := bits (p.dw 2) 8 8
  let s1 := { s with sch := { s.sch with presence := setPresence s.sch.presence p.job (bits (p.dw 2) 16 14) (presenceOf st) } }
  let s2 := s1.forwardNotice p
  if st = 3 then s2.resetJob p.job 0 else s2

def execPresenceNoticeArrival (s : State) : Host.Outcome State Fault Refusal := .next (s.noticeArrives s.ev.packet)

/-- R385: the supervisor has held a queue's region for more than 4,096 clocks. -/
def State.serviceDue (s : State) (q : Nat) : Bool :=
  let l := s.queue q
  l.state == .held && !l.overdue && decide (l.since + 4096 < s.clock)

def execServiceHoldTimeout (s : State) : Host.Outcome State Fault Refusal :=
  .next (if s.serviceDue s.ev.num then
    match (s.queue s.ev.num).job with
    | some j => (s.setQueue s.ev.num fun l => { l with serviced := true, overdue := true }).announce j .service
    | none => s
  else s)

/-! ## Watchdogs (R387) -/

def State.watchdogDue (s : State) : Bool :=
  !s.k.priv && s.sch.running.isSome && s.k.wdbudget != 0 && s.k.wdleft == 0 && !(s.sch.notices.any fun n => n.cause == .watchdogExpiry)

/-- An urgent event discards the open region at once; outside region mode, and once the region commits, it waits for a boundary (R113, R129,
R135). -/
def State.urgent (s : State) (c : Cause) (eva : VAddr) (einfo : DWord) : State :=
  match s.rgn with
  | some r => if s.k.priv || r.committing then s.notice ⟨c, eva, einfo, true, s.sch.running⟩ else s.endStall.discardFor r c eva einfo
  | none => s.notice ⟨c, eva, einfo, true, s.sch.running⟩

def execWatchdogExpiry (s : State) : Host.Outcome State Fault Refusal :=
  .next (if s.watchdogDue then s.urgent .watchdogExpiry 0 0 else s)

/-! ## Group barriers (R391, R392) -/

/-- The group that a slot of GROUPS names, if it is armed. -/
def State.slotGroup (s : State) (k : Nat) : Option Nat := if s.k.groups.getLsbD (16 * k + 15) then some (bits s.k.groups (16 * k) 8) else none

def groupDims (g : Group) : List Nat := (List.range 14).filter fun d => g.mask.getLsbD d

def State.setBarriers (s : State) (l : List Barrier) : State := { s with sch := { s.sch with barriers := l } }

def Barrier.same (a b : Barrier) : Bool := a.slot == b.slot && a.job == b.job

/-- R391: the packet of a step. -/
def stepWord (g step : Nat) (gen : BitVec 16) : DWord := BitVec.ofNat 64 (0x01 + g * 2 ^ 8 + step * 2 ^ 16 + gen.toNat * 2 ^ 20)

/-- Completion: GEN increases, and the signal word is written as a release at node scope. -/
def State.barrierDone (s : State) (b : Barrier) : State :=
  let g := s.group b.group
  let e := (s.k.gtable[b.group]?).getD 0
  let s1 := { s with k := { s.k with gtable := s.k.gtable.set b.group (putBits e 0 16 b.gen.toNat) } }
  let s2 := s1.writeHome (.spad g.sig) physAttr (toBytes 8 b.gen.toNat) (some (s.k.nodeId, 0))
  s2.setBarriers (s2.sch.barriers.filterMap fun x => if x.same b then (if x.bar then some { x with finished := true } else none) else some x)

/-- Step `b.sent − 1` has been sent; while the partner's is here the butterfly goes on. -/
def State.butterfly (s : State) (b : Barrier) : Nat → State
  | 0 => s
  | n + 1 =>
    let ds := groupDims (s.group b.group)
    let key := (b.job, b.group, b.gen, b.sent - 1)
    if s.sch.early.contains key then
      let s1 := { s with sch := { s.sch with early := s.sch.early.erase key } }
      match ds[b.sent]? with
      | none => s1.barrierDone b
      | some d =>
        let b1 := { b with sent := b.sent + 1 }
        State.butterfly ((s1.setBarriers (s1.sch.barriers.map fun x => if x.same b then b1 else x)).control d b.job (stepWord b.group b.sent b.gen)) b1 n
    else s

/-- R391: the entries that an arrival waits for. -/
def State.arrivalWaits (s : State) (b : Barrier) : Bool := s.buf.any fun e => e.job == b.job && e.state != .opened && decide (e.seq ≤ b.since)

def State.barrierArrives (s : State) (b : Barrier) : State :=
  match (groupDims (s.group b.group)).head? with
  | none => s.barrierDone b
  | some d =>
    let b1 := { b with sent := 1 }
    State.butterfly ((s.setBarriers (s.sch.barriers.map fun x => if x.same b then b1 else x)).control d b.job (stepWord b.group 0 b.gen)) b1 15

/-- The arrival of a group slot of a job, numbered `num`, goes out; the job's program need not run any more. -/
def execBarrierArrival (s : State) : Host.Outcome State Fault Refusal :=
  .next (match s.sch.barriers.find? fun b => b.slot == s.ev.num && b.job == s.ev.job && b.sent == 0 && !b.finished with
    | some b => if s.arrivalWaits b then s else s.barrierArrives b
    | none => s)

/-- R391: a partner's step, held until this node has sent its own of the same step and generation. -/
def State.stepArrives (s : State) (p : Packet) : State :=
  let d2 := p.dw 2
  let g := bits d2 8 8
  let gen := BitVec.ofNat 16 (bits d2 20 16)
  let s1 := { s with sch := { s.sch with early := s.sch.early ++ [(p.job, g, gen, bits d2 16 4)] } }
  match s1.sch.barriers.find? fun b => b.job == p.job && b.group == g && b.gen == gen && decide (0 < b.sent) && !b.finished with
  | some b => s1.butterfly b 15
  | none => s1

def execBarrierStepArrival (s : State) : Host.Outcome State Fault Refusal := .next (s.stepArrives s.ev.packet)

/-- R392: the operand, and an armed slot. -/
def State.groupSlot (s : State) (x : SSrc) : Except Issue (Nat × Nat) := do
  let v := s.srcS x
  check (bits v 2 62 == 0) .group
  match s.slotGroup (bits v 0 2) with
  | some g => .ok (bits v 0 2, g)
  | none => .error (.cause .group)

/-- The arrival outstanding on a slot. -/
def State.barrierOf (s : State) (k : Nat) : Option Barrier := s.sch.barriers.find? fun b => b.slot == k && b.job == s.k.jobtag

def State.newBarrier (s : State) (k g : Nat) (bar : Bool) : Effect :=
  .setSch { s.sch with barriers := s.sch.barriers ++ [⟨k, g, (s.group g).gen + 1, s.seq.count, 0, false, s.k.jobtag, bar⟩] }

/-- R392: no arrival of GSIG is outstanding. -/
def State.mayArrive (s : State) (k : Nat) : Except Issue Unit :=
  check (match s.barrierOf k with | some b => b.bar | none => true) .group

def State.gsigIssue (s : State) (x : SSrc) : Issue :=
  let slot := s.groupSlot x
  s.boundaryIssue (do let (k, _) ← slot; s.mayArrive k) (fun s => do
    let (k, g) ← slot
    .ok [s.newBarrier k g false])

def State.gwaitIssue (s : State) (x : SSrc) : Issue :=
  let slot := s.groupSlot x
  s.boundaryIssue (do let _ ← slot; .ok ()) (fun s => do
    let (k, _) ← slot
    await (s.barrierOf k).isNone 0x0C
    .ok [])

def State.barIssue (s : State) (x : SSrc) : Issue :=
  let slot := s.groupSlot x
  s.boundaryIssue (do let (k, _) ← slot; s.mayArrive k) (fun s => do
    let (k, g) ← slot
    match s.barrierOf k with
    | none => .error (.pause [s.newBarrier k g true] 0x0C)
    | some b =>
      await b.finished 0x0C
      .ok [.setSch { s.sch with barriers := s.sch.barriers.filter fun y => !y.same b }])

def execBar (x : SSrc) (s : State) : Host.Outcome State Fault Refusal := s.settle (s.barIssue x)
def execGsig (x : SSrc) (s : State) : Host.Outcome State Fault Refusal := s.settle (s.gsigIssue x)
def execGwait (x : SSrc) (s : State) : Host.Outcome State Fault Refusal := s.settle (s.gwaitIssue x)

end Sys2Proof.Machine
end

