-- ==== Sys2Proof/Machine/Watch.lean ====
section
/-! DEFINITION. What a stalled program waits for: wait reasons and the watchdogs that they freeze (14_launch R386), the edges of blocked
units and the probes that follow them (12_fabric R346, R347), and the words of a bundle (03_sequencer R90). -/

namespace Sys2Proof.Machine

/-! ## The bundle at the program counter -/

/-- Two runs of bytes have a byte in common. -/
def runsMeet (a n b m : Nat) : Bool := decide (a < b + m ∧ b < a + n)

/-- The copy commands that have committed: those of the engine, and those whose turn in the buffer has not come. -/
def State.copiesDue (s : State) : List CopyCmd :=
  s.eng.copies ++ s.buf.filterMap fun e => match e.op with | .copy c => if e.state = .opened then none else some c | _ => none

/-- R90: what this node has begun to write of a bundle at `va` otherwise than by a store: a copy that is under way, or one that an INVAL of the
bundle has followed, a reduction or a multicast that has committed. The bundle is whole again when it has performed. -/
def State.codeMoves (s : State) (va : Nat) : Bool :=
  (s.copiesDue.any fun c => c.job == s.k.jobtag && c.dstGlobal && (decide (0 < c.prog) || c.invals.any fun x => runsMeet x.1 x.2 va 16)
      && (dstExtents c).any fun x => runsMeet x.1 x.2 va 16)
    || s.buf.any fun e => e.state != .opened && e.job == s.k.jobtag && (match e.op with
      | .reduce _ _ a .. => runsMeet a.toNat 8 va 16
      | .mcast _ _ a data => runsMeet a.toNat data.length va 16
      | _ => false)

/-- The words of a bundle held here, with the committed stores of this node that have not left the buffer: from a commit on it is wholly new
(R90). -/
def State.wordsNow (s : State) (pa : Nat) : List (BitVec 32) :=
  if s.storePending (.here pa) s.seq.pc 16 then
    let bs := overlay (Memory.bytes s.hbm pa 16) (forwardOf (s.buf.filter fun e => e.state != .opened) (.here pa) s.seq.pc 16)
    (List.range 4).map fun i => BitVec.ofNat 32 (leNat ((bs.drop (4 * i)).take 4))
  else s.wordsAt pa

/-- The slot words of a bundle where its translation lies: here, or read from the peer that is its home (R240) when no store to it waits
here (R90). -/
def State.wordsOf (s : State) (x : Xlat) (va : VAddr) : Except Issue (List (BitVec 32)) := do
  await (!s.codeMoves va.toNat) 0x08
  match x.loc with
  | .here pa => .ok (s.wordsNow pa)
  | l => do
    await (!s.storePending l va 16) 0x08
    let a ← s.wordAt 0 l 0 va 0x08
    let b ← s.wordAt 0 (locPlus l 8) 0 va 0x08
    .ok [a.setWidth 32, (a >>> 32).setWidth 32, b.setWidth 32, (b >>> 32).setWidth 32]

/-- The instructions of the stalled bundle whose guards hold. -/
def State.stalledInstrs (s : State) : List Instr :=
  let instrs (ws : List (BitVec 32)) : List Instr :=
    let w (n : Nat) : Nat := ((ws[n]?).getD 0).toNat
    match decodeBundle (w 0) (w 1) (w 2) (w 3) with
    | .badMode => []
    | .slots l => ((goodSlots l 0).filter fun x => s.guardHolds x.2).map fun x => x.2.instr
  if !s.seq.words.isEmpty then instrs s.seq.words
  else
    match s.fetchAt s.seq.pc with
    | .error _ => []
    | .ok x => match s.wordsOf x s.seq.pc with | .error _ => [] | .ok ws => instrs ws

/-! ## Edges (R346) -/

/-- An exchange that has been admitted and waits for a link that is severed (R300). -/
def State.severedRecs (s : State) (job : BitVec 16) : List (Nat × XchRec) :=
  (List.range 14).flatMap fun d =>
    if linkState s.k.linkstat d = 3 then ((s.xch.at d job).recs.filter fun r => r.phase == .admitted && !r.finished).map fun r => (d, r) else []

/-- The partners of exchanges of a job that are not admitted, or that wait for a severed link. -/
def State.postedEdges (s : State) (job : BitVec 16) : List (BitVec 14) := (s.posted job ++ s.severedRecs job).map fun x => x.2.partner

/-- The targets of requests that nothing has answered, and of flows that nothing has acknowledged. -/
def State.requestEdges (s : State) (job : BitVec 16) : List (BitVec 14) :=
  (s.fab.reqs.filter fun q => q.job == job).map (·.target) ++ (s.fab.tx.filter fun t => t.job == job && !t.unacked.isEmpty).map (·.dst)

/-- The edges of one copy command. -/
def State.copyEdges (s : State) (c : CopyCmd) : List (BitVec 14) :=
  (if c.kind = .lattice ∧ s.peerOf c ≠ s.k.nodeId then [s.peerOf c] else [])
    ++ (s.fab.reqs.filter fun q => q.who == .copy c.id).map (·.target)

/-- The edges of the commands and exchanges of a job that will write a signal word. -/
def State.signalEdges (s : State) (job : BitVec 16) (a : Nat) : List (BitVec 14) :=
  (s.copiesDue.filter fun c => c.job == job && c.sigOn && c.sigAddr == a).flatMap s.copyEdges
    ++ (List.range 14).flatMap fun d => ((s.xch.at d job).recs.filter fun r => r.phase != .done && r.sigAddr == a).map (·.partner)

/-- Members of a barrier's group that this node does not know to have arrived. -/
def State.barrierEdges (s : State) (b : Barrier) : List (BitVec 14) :=
  let g := s.group b.group
  let known := ((groupDims g).take (b.sent - 1)).foldl (fun m i => m ||| BitVec.twoPow 14 i) (0 : BitVec 14)
  (spanned s.k.nodeId g.mask).filter fun n => ((n ^^^ s.k.nodeId) &&& ~~~known) != 0

/-- The address that a WAITA of the stalled bundle waits on. -/
def State.waitAddr (s : State) : Option Nat :=
  s.stalledInstrs.findSome? fun i => match i with | .waita _ x _ => some (bits (s.srcS x) 0 28) | _ => none

/-- The group slot that a BAR or GWAIT waits on. -/
def State.waitSlot (s : State) : Option Nat :=
  s.stalledInstrs.findSome? fun i => match i with | .bar x | .gwait x => some (bits (s.srcS x) 0 2) | _ => none

/-- The engines that a WAITE waits for. -/
def State.waitMask (s : State) : Nat :=
  (s.stalledInstrs.findSome? fun i => match i with | .waite x => some (bits (s.srcS x) 0 4) | _ => none).getD 0

/-- The edges of the engines of a mask (R231). -/
def State.engineEdges (s : State) (job : BitVec 16) (m : Nat) : List (BitVec 14) :=
  (if m.testBit 0 then (s.copiesDue.filter fun c => c.job == job).flatMap s.copyEdges else [])
    ++ (if m.testBit 1 then (List.range 14).flatMap fun d => ((s.xch.at d job).recs.filter fun r => r.phase != .done).map (·.partner) else [])
    ++ (if m.testBit 2 then (s.buf.filter fun e => e.job == job && (match e.op with | .mcast .. => true | _ => false)).flatMap s.entryHomes else [])

/-- The program of a job stalls with a cause of R111. -/
def State.stalledOn (s : State) (job : BitVec 16) (cause : Nat) : Bool :=
  !s.k.priv && s.sch.running.isSome && s.k.jobtag == job && (match s.seq.stall with | some (c, _) => c == cause | none => false)

/-- Every edge of the blocked units of a job. -/
def State.edges (s : State) (job : BitVec 16) : List (BitVec 14) :=
  let waita := if s.stalledOn job 0 then (match s.waitAddr with | some a => s.signalEdges job a | none => []) else []
  let bars := (s.sch.barriers.filter fun b => b.job == job && !b.finished).flatMap s.barrierEdges
  (s.postedEdges job ++ s.requestEdges job ++ waita ++ bars).dedup.filter fun n => n != s.k.nodeId

/-- A unit of this node waits for the job. -/
def State.blocked (s : State) (job : BitVec 16) : Bool := !(s.edges job).isEmpty || s.stalledOn job 0

/-! ## Wait reasons (R386) -/

def reasonWord (code who detail : Nat) : DWord := BitVec.ofNat 64 (code * 2 ^ 60 + who % 2 ^ 14 * 2 ^ 46 + detail % 2 ^ 46)

/-- The dimension whose partner the open region's exchanges wait for. -/
def State.postedDim (s : State) : Option Nat :=
  ((s.unadmitted s.k.jobtag).find? fun x => x.2.region == s.rgn.map (·.id)).map (·.1)

/-- The node that a stalled access waits for (R251, R254). -/
def State.askedNode (s : State) : Option (BitVec 14) :=
  (s.fab.reqs.find? fun q => q.who == s.performer || (match q.who with | .atomicCheck | .direct _ | .peek .. => true | _ => false)).map (·.target)

/-- The target of a flow of the running job that takes no more packets, or that cannot be reached (R331, R333). -/
def State.fullFlow (s : State) : Option (BitVec 14) :=
  (s.fab.tx.find? fun t => t.job == s.k.jobtag && (t.dead || decide (32 ≤ t.unacked.length))).map (·.dst)

/-- The target of a request of a load that has not arrived, of those whose wait `p` accepts. -/
def State.loadNode (s : State) (p : Wait → Bool) : Option (BitVec 14) :=
  (s.fab.reqs.find? fun q => match q.who with | .wait id => s.pipe.waits.any fun w => w.id == id && w.outstanding && p w | _ => false).map (·.target)

/-- The register that a load will write is an operand of the stalled bundle. -/
def State.stallsOn (s : State) (w : Wait) : Bool :=
  match w.sd with
  | some (.reg n) => s.stalledInstrs.any fun i => (usesOf i).s.contains (.reg n) || (usesOf i).sd == some (.reg n)
  | _ => false

/-- The target that an atomic, a check, a load or the word of a signature waits for in a commit stall (R128, R336). -/
def State.awaitedNode (s : State) : Option (BitVec 14) :=
  (s.fab.reqs.find? fun q =>
    q.who == s.performer || (match q.who with | .atomicCheck | .peek 1 _ => true | .bufCheck _ => q.job == s.k.jobtag | _ => false)).map (·.target)
    <|> s.loadNode fun _ => true

/-- R386, code 2: the node that the unit which stalls the sequencer waits for: a load whose register or queue entry is pending, a request at its
issue, a commit. -/
def State.targetNode (s : State) (cause : Nat) : Option (BitVec 14) :=
  match cause with
  | 0x01 | 0x02 => s.loadNode s.stallsOn
  | 0x03 => s.loadNode fun w => w.sd == some .queue
  | 0x08 => (s.fab.reqs.find? fun q => match q.who with | .peek 0 _ => true | _ => false).map (·.target)
  | 0x09 => s.awaitedNode
  | 0x0B => s.askedNode <|> s.fullFlow
  | _ => none

/-- The vault that a stall with cause 0x0F waits for: the first that the job does not own of those that an opening region names, that the copies
and exchanges use whose admission a commit waits for, or that holds the context of a GSTEP (R115, R214, R219). -/
def State.vaultAwaited (s : State) : Nat :=
  let masks : BitVec 32 := match s.seq.perform with
    | some o => o.rmask ||| o.wmask
    | none => s.rgn.elim 0 fun r => if r.again || r.counted == 0 then r.rmask ||| r.wmask else 0
  let used (names : Nat → Bool) : List Nat := (List.range 32).filter names
  let vs := maskVaults masks ++ ((s.heldCopies.filter (·.waitsVault)).flatMap fun c => used c.names)
    ++ ((s.unadmitted s.k.jobtag).flatMap fun x => used x.2.names)
    ++ (if s.stalledInstrs.any fun i => match i with | .gstep .. => true | _ => false then [vaultOf s.eng.bind.context] else [])
  (vs.find? fun v => !s.vaultOwned v).getD 0

/-- The word of the unit that stalls the sequencer with a cause of R111; a vault stands in the detail field. -/
def State.reasonOf (s : State) (cause : Nat) : DWord :=
  match cause with
  | 0x00 => reasonWord 3 0 (s.waitAddr.getD 0)
  | 0x06 => reasonWord 6 0 s.waitMask
  | 0x07 => reasonWord 1 ((s.postedDim.bind s.k.logicalDim).getD 0) 0
  | 0x0C => reasonWord 4 0 (s.waitSlot.getD 0)
  | 0x0D | 0x0E => reasonWord 8 0 0
  | 0x0F => reasonWord 5 0 s.vaultAwaited
  | c => match s.targetNode c with | some n => reasonWord 2 (s.k.logical n) 0 | none => reasonWord 7 0 0

/-- R373: WAITR of the running queue's page. -/
def State.waitr (s : State) : DWord :=
  match s.seq.stall with
  | some (c, _) => if s.sch.running.isSome && !s.k.priv then s.reasonOf c else 0
  | none => 0

/-- A node that the job's presence map has as out or in service; absent counts as present. -/
def State.isAway (s : State) (n : BitVec 14) : Bool :=
  s.sch.presence.any fun x => x.1 == s.k.jobtag && x.2.1 == s.k.logical n && (x.2.2 == .out || x.2.2 == .service)

/-- R386: the watchdog does not count while the sequencer stalls with this cause. -/
def State.frozen (s : State) (cause : Nat) : Bool :=
  match cause with
  | 0x00 => (match s.waitAddr with | some a => s.signalEdges s.k.jobtag a | none => []).any s.isAway
  | 0x06 => (s.engineEdges s.k.jobtag s.waitMask).any s.isAway
  | 0x07 =>
    match s.postedDim with
    | some d => s.isAway (s.neighbour d) || linkState s.k.linkstat d == 3
    | none => false
  | 0x0C =>
    match s.waitSlot.bind s.barrierOf with
    | some b => (s.barrierEdges b).any s.isAway
    | none => false
  | 0x0D | 0x0E => true
  | c => match s.targetNode c with | some n => s.isAway n | none => false

/-! ## PROBE (R347) -/

/-- A wait probe: its origin stands in SRC, the node that sends it on in INTER (log 25). -/
def probePacket (origin dst sender : BitVec 14) (job tag : BitVec 16) (hops : Nat) : Packet :=
  (routedPacket 12 3 origin dst job { d3 := BitVec.ofNat 64 (tag.toNat + hops * 2 ^ 16) } []).setNonmin false sender

def State.sendProbes (s : State) (origin : BitVec 14) (job tag : BitVec 16) (hops : Nat) : State :=
  (s.edges job).foldl (fun s n => s.sendControl (probePacket origin n s.k.nodeId job tag hops)) s

def State.probeIssue (s : State) (x y : SSrc) : Issue := issueOf (do
  s.needRegion
  let v := s.srcS x
  let t := s.srcS y
  let a := bits v 0 28
  let tag := BitVec.ofNat 16 (bits t 0 16)
  check (bits t 16 48 == 0 && bits v 28 36 == 0) .fabricOperand
  check (a % 8 == 0 && spExtent a 8) .scratchpadAddress
  check (s.k.priv || s.discipline (vaultOf a) .neither) .vaultDiscipline
  check (s.k.priv || s.vaultOwned (vaultOf a)) .vaultOwnership
  if s.blocked s.k.jobtag then
    let f := (s.sendProbes s.k.nodeId s.k.jobtag tag 0).fab
    .ok [.setFab { f with probes := f.probes ++ [⟨s.nextId, tag, a, s.clock + 1800000, s.k.jobtag⟩] }, .ids 1]
  else .ok (s.homeEffects (.spad a) physAttr (toBytes 8 tag.toNat) (some (s.k.nodeId, 0))))

def execProbe (x y : SSrc) (s : State) : Host.Outcome State Fault Refusal := s.settle (s.probeIssue x y)

/-- The one write of a probe's signal word. -/
def State.probeDone (s : State) (p : Probe) (v : Nat) : State :=
  let s1 := { s with fab := { s.fab with probes := s.fab.probes.filter fun q => q.id != p.id } }
  if s1.ownedBy p.job (vaultOf p.addr) then s1.writeHome (.spad p.addr) physAttr (toBytes 8 v) (some (s1.k.nodeId, 0)) else s1

/-- R346, R347: a probe comes back, goes on, or dies. -/
def State.probeArrives (s : State) (p : Packet) : State :=
  let tag := BitVec.ofNat 16 (bits (p.dw 3) 0 16)
  let hops := bits (p.dw 3) 16 6
  if p.src = s.k.nodeId then
    match s.fab.probes.find? fun q => q.tag == tag && q.job == p.job with
    | none => s
    | some q =>
      let v := 2 ^ 63 + p.inter.toNat * 2 ^ 16 + tag.toNat
      (s.probeDone q v).notice ⟨.waitCycle, 0, BitVec.ofNat 64 v, false, s.queueOf p.job⟩
  else if !s.blocked p.job || decide (31 ≤ hops) || s.fab.seenProbes.contains (p.src, tag) then s
  else
    let s1 := s.sendProbes p.src p.job tag (hops + 1)
    { s1 with fab := { s1.fab with seenProbes := (s1.fab.seenProbes ++ [(p.src, tag)]).drop (s1.fab.seenProbes.length + 1 - 16) } }

def execWaitProbeArrival (s : State) : Host.Outcome State Fault Refusal := .next (s.probeArrives s.ev.packet)

/-- R347: no probe has come back: the signal word receives the tag alone. -/
def State.probeDue (s : State) (p : Probe) : Bool := decide (p.due ≤ s.clock)

def execProbeTimeout (s : State) : Host.Outcome State Fault Refusal :=
  .next (match s.fab.probes.find? fun p => p.id == s.ev.id with
    | some p => if s.probeDue p then s.probeDone p p.tag.toNat else s
    | none => s)

end Sys2Proof.Machine
end

