-- ==== Sys2Proof/Machine/Supervisor.lean ====
section
/-! DEFINITION. The supervisor's instructions: RFT (15_errors R399), SELFT (R403, R404), QRST and CTXS (14_launch R382, R383, R388), and
translation: SHOOT, TLBP, TLBI (09_memory R262 to R267). -/

namespace Sys2Proof.Machine

/-! ## RFT (R399, R131) -/

/-- The queue whose program RFT acts on. -/
def State.heldQueue (s : State) : Option (Nat × LQueue) :=
  match s.sch.serving with
  | some q => if (s.queue q).state = .held then some (q, s.queue q) else none
  | none => none

/-- A program goes on: the supervisor is left at EPC. The queues are not banked (R58), and only a re-entry empties them (R57). -/
def State.leave (s : State) (loops : List LoopLevel) : State :=
  { s with
    k := { s.k with priv := false }
    seq := { s.seq with
      pc := s.k.epc &&& ~~~0xF#48, loops := loops, redirects := [], delay := 0, delayEnd := .none, trapReq := none, dueTrap := none,
      outside := 0, perform := none, words := [], waited := 0, stall := none, issued := 0, bun := { s.seq.bun with fin := { BundleEnd.none with returns := true } } } }

/-- The boundary instruction that a held region waits for, if the supervisor has left EPC as it was (log 80). -/
def State.goesOn (s : State) (r : Region) : Option Waiting := if s.k.epc = r.snap.entry then r.waiting else none

/-- R131: the snapshot of the held region holds again, and both queues are empty. A region that waits for a boundary instruction is not open:
the instruction goes on (log 80). -/
def State.reenter (s : State) (r : Region) : State :=
  let s1 := s.leave r.snap.loops
  { s1 with
    rgn := if (s.goesOn r).isSome then none else some { r with
      waiting := none, snap := { r.snap with entry := s1.seq.pc }, again := !r.byBoundary, reads := [], writes := [], counted := 0, crc := 0xFFFFFFFF#32, used := 0,
      resIssued := false, seq := s.seq.count + 1 }
    seq := match s.goesOn r with
      | some w => { s1.seq with pc := w.pc, words := w.words, loops := w.loops, perform := some (r.next true) }
      | none => s1.seq
    regs := { s1.regs.emptyQueues with masks := r.snap.masks, fmt := r.snap.fmt }
    k := { s1.k with rngCtr := r.snap.rngCtr }
    mat := { s1.mat with work := s1.mat.comm, queue := [], aanch := 0 }
    eng := { s1.eng with bind := r.snap.bind }
    xch := s1.restoreXseqs r.snap.xseq }

/-- The held program of queue `q` runs on; peers that were told otherwise hear that it is present (R385, R407). -/
def State.resumed (s : State) (q : Nat) (l : LQueue) : State :=
  let s1 := match l.region with | some r => s.reenter r | none => s.leave s.seq.loops
  let s2 : State := { s1 with
    sch := { updQueue s1.sch q (fun l => { l with state := .running, hold := .none, region := none, serviced := false }) with
      running := some q, serving := none } }
  let s3 := s2.trace 6 0 (s2.seq.pc.setWidth 64)
  let s4 := if l.serviced then (match l.job with | some j => s3.announce j .present | none => s3) else s3
  s4.requestSwitch

/-- R399, R419: nothing to go back to: the node selects. -/
def State.idleReturn (s : State) : State :=
  let s1 := s.leave []
  { s1 with sch := { s1.sch with serving := none, opened := true } }

/-- The rows of R399. No program runs while a unit is under test (R403, log 89). -/
def State.returned (s : State) : Except Issue State :=
  if !s.k.priv then .error (.cause .privilege)
  else if s.err.selft.isSome then .error (.stall 0x0A)
  else
    match s.heldQueue with
    | none => .ok s.idleReturn
    | some (q, l) =>
      match l.hold with
      | .fatal | .fenced | .loss => .error (.cause .illegalReturn)
      | _ => .ok (s.resumed q l)

def execRft (s : State) : Host.Outcome State Fault Refusal :=
  match s.returned with
  | .ok s1 => .next s1
  | .error i => s.settle i

/-! ## Ranges of pages (R262, R265) -/

/-- The first page and the number of pages of a range operand. -/
def rangePage (v : DWord) : Nat := bits v 16 32
def rangeLen (v : DWord) : Nat := bits v 48 16 + 1
def inRange (v : DWord) (page : Nat) : Bool := decide (rangePage v ≤ page ∧ page < rangePage v + rangeLen v)
/-- A run of bytes meets the range. -/
def meetsRange (v : DWord) (a n : Nat) : Bool := decide (0 < n ∧ a / 65536 < rangePage v + rangeLen v ∧ rangePage v ≤ (a + n - 1) / 65536)

/-- Where the entry of the leaf of a page lies. -/
def leafPlace (m : Memory) (va : VAddr) : Nat → Nat → Nat → Nat
  | 0, _, t => t
  | fuel + 1, lvl, t =>
    let a := t + 8 * walkIndex va lvl
    if (m.dword a).getLsbD 1 then a else leafPlace m va fuel (lvl + 1) (bits (m.dword a) 8 29 * 2 ^ 8)

/-- The leaf of a page, and where its entry lies: WALK (R236) without its TLB; a page that it does not map, or finds malformed on the way to, has
none. -/
def State.leafAt (s : State) (job : BitVec 16) (page : Nat) : Option (Nat × DWord × Nat) :=
  let va : VAddr := BitVec.ofNat 48 (page * 65536)
  match walk s.hbm s.hst.jtbase job va with
  | .ok (e, lvl) => some (leafPlace s.hbm va 4 1 (bits (Memory.dword s.hbm (s.hst.jtbase.toNat + 16 * job.toNat)) 12 25 * 2 ^ 12), e, lvl)
  | .error _ => none

/-- The valid leaves of a job that cover pages of a range. -/
def State.rangeLeaves (s : State) (job : BitVec 16) (v : DWord) : List (Nat × DWord × Nat × Nat) :=
  (List.range (rangeLen v)).filterMap fun i => (s.leafAt job (rangePage v + i)).map fun (a, e, lvl) => (a, e, lvl, rangePage v + i)

/-- The lines of one page that this node caches, and the pinned ones among them. -/
def pageLines (l2 : List L2Line) (e : DWord) (lvl page : Nat) : List L2Line :=
  let pa := leafPa e lvl (BitVec.ofNat 48 (page * 65536))
  if bits e 40 14 ≠ 0 then [] else l2.filter fun x => decide (pa ≤ x.line * 128 ∧ x.line * 128 < pa + 65536)

/-- R263, R265: the lines of a range are written back and dropped; pinned ones are counted (R267). The last component: the page and the line of
each. -/
def State.dropLines (s : State) (job : BitVec 16) (v : DWord) : List L2Line × Nat × List (Nat × Nat) :=
  let lost := (s.rangeLeaves job v).flatMap fun (_, e, lvl, page) => (pageLines s.l2 e lvl page).map fun x => (page, x)
  let gone := lost.map (·.2)
  (s.l2.filter fun x => !gone.contains x, (gone.dedup.filter fun x => decide (0 < x.pins)).length, lost.map fun x => (x.1, x.2.line))

/-- R266: lines that an unmapping has dropped: an operation that arrives later finds none of them. `unmapped`: V is clear. -/
def Fab.without (f : Fab) (job : BitVec 16) (unmapped : Bool) (lines : List (Nat × Nat)) : Fab :=
  { f with gone := (f.gone.filter fun g => !(g.job == job && lines.contains (g.page, g.line))) ++ lines.map fun x => ⟨job, x.1, x.2, unmapped⟩ }

/-- R266: the last step of an unmapping, a TLBI without DROP. -/
def Fab.unmapped (f : Fab) (job : Option (BitVec 16)) (range : Option DWord) : Fab :=
  { f with gone := f.gone.map fun g =>
    if (match job with | some j => g.job == j | none => true) && (match range with | some v => inRange v g.page | none => true) then { g with unmapped := true }
    else g }

/-- R263: V is cleared in every leaf of a range. -/
def State.clearLeaves (s : State) (job : BitVec 16) (v : DWord) : State :=
  (s.rangeLeaves job v).foldl (fun s (a, e, _, _) => s.writeHbm a (toBytes 8 (e &&& ~~~1#64).toNat)) s

def TlbEntry.meets (t : TlbEntry) (v : DWord) : Bool := decide (t.page < rangePage v + rangeLen v ∧ rangePage v < t.page + t.pages)

/-- R241, R265: translations that TLBI drops; a job or range of `none` means every one. -/
def State.tlbWithout (s : State) (job : Option (BitVec 16)) (v : Option DWord) : Tlb :=
  { s.tlb with entries := s.tlb.entries.filter fun t => !((match job with | some j => t.job == j | none => true) && (match v with | some v => t.meets v | none => true)) }

/-! ## Who holds a translation (R263, R265) -/

def rangeOr (v : Option DWord) (a n : Nat) : Bool := match v with | some v => meetsRange v a n | none => decide (0 < n)
def jobOr (job : Option (BitVec 16)) (j : BitVec 16) : Bool := match job with | some x => j == x | none => true

def WaitOp.holds (w : WaitOp) (v : Option DWord) : Bool :=
  match w with
  | .load va at_ .. => (match at_ with | .spad _ | .remote .. => false | _ => true) && rangeOr v va.toNat 1
  | _ => false

def BufEntry.holds (e : BufEntry) (v : Option DWord) : Bool :=
  match e.op with
  | .store (.remote ..) .. | .reduce (.remote ..) .. => false
  | .store _ _ va w _ => rangeOr v va.toNat w
  | .reduce _ _ va .. => rangeOr v va.toNat 4
  | .mcast _ _ va data => rangeOr v va.toNat data.length
  | .cache _ va len _ => rangeOr v va.toNat len
  | .copy c => c.admitted && ((c.srcGlobal && (srcExtents c).any fun x => rangeOr v x.1 x.2) || (c.dstGlobal && (dstExtents c).any fun x => rangeOr v x.1 x.2))
  | _ => false

def CopyCmd.holds (c : CopyCmd) (v : Option DWord) : Bool :=
  c.admitted && ((c.srcGlobal && (srcExtents c).any fun x => rangeOr v x.1 x.2) || (c.dstGlobal && (dstExtents c).any fun x => rangeOr v x.1 x.2))

/-- An outstanding access or an admitted engine command holds a translation of a job in a range: an atomic, a PREF or a supervisor access at a peer,
and what the fetch path or an engine reads there, by its request; a GMASK that of every line that it will read of its image. -/
def State.holding (s : State) (job : Option (BitVec 16)) (v : Option DWord) : Bool :=
  (jobOr job s.k.jobtag && s.pipe.waits.any fun w => w.outstanding && w.op.holds v)
    || (s.buf.any fun e => jobOr job e.job && e.holds v)
    || (s.eng.copies.any fun c => jobOr job c.job && c.holds v)
    || (s.fab.reqs.any fun q => jobOr job q.job && q.xlat && rangeOr v q.va.toNat 1)
    || s.eng.gram.any fun g => jobOr job g.job && (match g.op with
      | .mask .. => (s.gmaskReads g.bind).any fun x => rangeOr v (g.bind.image + BitVec.ofNat 48 x.1).toNat x.2
      | .sample .. => false)

/-! ## SHOOT (R261 to R263) -/

def shootPacket (src dst : BitVec 14) (job : BitVec 16) (range notice : DWord) : Packet :=
  routedPacket 13 3 src dst job { d3 := notice, d4 := range } []

/-- R262: the other nodes of the spanned subcube. -/
def State.recipients (s : State) (set : Nat) : List (BitVec 14) :=
  (spanned s.k.nodeId (s.physMask (BitVec.ofNat 14 set))).filter fun n => n != s.k.nodeId

def State.shootIssue (s : State) (d x y : SSrc) : Issue := issueOf (do
  s.needSup
  let v := s.srcS x
  check (bits v 0 16 == 0) .descriptor
  check (s.k.setOk (s.srcS y) false) .dimension
  match s.fab.shoots.find? fun h => h.mine with
  | some h => do
    await (h.left.all s.lost) 0x0B
    .ok [.setFab { s.fab with shoots := s.fab.shoots.filter fun h => !h.mine }]
  | none =>
    let to_ := (s.recipients (KRegs.setOf (s.srcS y))).filter fun n => !s.lost n
    if to_.isEmpty then .ok []
    else
      let f := (to_.foldl (fun s n => s.sendControl (shootPacket s.k.nodeId n s.k.jobtag v (s.srcS d))) s).fab
      .error (.pause [.setFab { f with shoots := f.shoots ++ [⟨s.nextId, s.k.jobtag, s.k.nodeId, v, s.srcS d, to_, true⟩] }, .ids 1] 0x0B))

def execShoot (d x y : SSrc) (s : State) : Host.Outcome State Fault Refusal := s.settle (s.shootIssue d x y)

/-- R263, steps 1 to 3. -/
def State.shotDown (s : State) (p : Packet) : State :=
  let v := p.dw 4
  let (l2, n, lines) := s.dropLines p.job v
  let s1 := (Effect.orphans n).apply { s with l2 := l2, fab := s.fab.without p.job true lines }
  let s2 := s1.clearLeaves p.job v
  { s2 with
    tlb := s2.tlbWithout (some p.job) (some v)
    fab := { s2.fab with shoots := s2.fab.shoots ++ [⟨s2.nextId, p.job, p.src, v, p.dw 3, [], false⟩] }
    nextId := s2.nextId + 1 }

def execShootDownArrival (s : State) : Host.Outcome State Fault Refusal := .next (s.shotDown s.ev.packet)

/-- R263, steps 4 and 5. -/
def State.shootReady (s : State) (h : Shoot) : Bool := !h.mine && !s.holding (some h.job) (some h.range)

def execShootDownAcknowledge (s : State) : Host.Outcome State Fault Refusal :=
  .next (match s.fab.shoots.find? fun h => h.id == s.ev.id with
    | some h =>
      if s.shootReady h then
        let s1 := { s with fab := { s.fab with shoots := s.fab.shoots.filter fun x => x.id != h.id } }
        let s2 := s1.sendControl (routedPacket 14 3 s1.k.nodeId h.src h.job {} [])
        s2.notice ⟨.shootDownNotice, BitVec.ofNat 48 (rangePage h.range * 65536), h.notice, false, s2.queueOf h.job⟩
      else s
    | none => s)

/-- R262: a recipient has acknowledged. -/
def execShootDownAckArrival (s : State) : Host.Outcome State Fault Refusal :=
  let p := s.ev.packet
  .next { s with fab := { s.fab with shoots := s.fab.shoots.map fun h =>
    if h.mine ∧ h.job = p.job then { h with left := h.left.filter fun n => n != p.src } else h } }

/-! ## TLBP and TLBI (R264 to R267) -/

/-- R264: a line of the leaf of a page is pinned here; a leaf of 2 MiB has 32 pages. -/
def State.leafPinned (s : State) (e : DWord) (lvl page : Nat) : Bool :=
  (if lvl = 3 then (List.range 32).map (fun i => page / 32 * 32 + i) else [page]).any fun p => (pageLines s.l2 e lvl p).any fun x => decide (0 < x.pins)

/-- R264: what TLBP reports. -/
def State.tlbpValue (s : State) (job : BitVec 16) (va : VAddr) : Except Issue DWord :=
  match walk s.hbm s.hst.jtbase job va with
  | .error .notPresent => .ok 0
  | .error .malformed => .ok (BitVec.ofNat 64 (3 * 2 ^ 61))
  | .error (.hole pa) => .error (.halt (.hbmHole pa))
  | .ok (e, lvl) =>
    .ok (BitVec.ofNat 64 ((if s.leafPinned e lvl (pageOf va) then 2 ^ 63 else 0) + (if lvl = 3 then 1 else 2) * 2 ^ 61 + bits e 0 54))

def State.tlbpIssue (s : State) (d : SDst) (x y : SSrc) : Issue := issueOf (do
  s.needSup
  let v ← s.tlbpValue ((s.srcS y).setWidth 16) ((s.srcS x).setWidth 48)
  .ok [.wait ⟨0, 0, 0, false, false, some d, none, 0, none, 64, false, .no, .tlbp v⟩])

def execTlbp (d : SDst) (x y : SSrc) (s : State) : Host.Outcome State Fault Refusal := s.settle (s.tlbpIssue d x y)

/-- R266, R412: the last step of an unmapping, a TLBI without DROP, ends the migration that was asked for when the leaf of its page has changed
(log 30). -/
def State.migrated (s : State) (job : Option (BitVec 16)) (range : Option DWord) : List Effect :=
  match s.hst.migrq with
  | some (v, old) =>
    if jobOr job (BitVec.ofNat 16 (bits v 48 16)) && rangeOr range (bits v 16 32 * 65536) 1
        && ((s.leafAt (BitVec.ofNat 16 (bits v 48 16)) (bits v 16 32)).all fun x => x.2.1 != old) then
      [.setHst { s.hst with migrs := 1, migrq := none }]
    else []
  | none => []

def State.tlbiIssue (s : State) (x y : SSrc) : Issue := issueOf (do
  s.needSup
  let v := s.srcS x
  let o := s.srcS y
  let job : Option (BitVec 16) := if o.getLsbD 16 then none else some (o.setWidth 16)
  let range : Option DWord := if o.getLsbD 17 then none else some v
  check (!(o.getLsbD 19 && (o.getLsbD 16 || o.getLsbD 17))) .illegalEncoding
  check (bits o 20 44 == 0 && bits v 0 16 == 0) .descriptor
  let (l2, n, f) := if o.getLsbD 19 then
      let (l2, n, lines) := s.dropLines (o.setWidth 16) v
      (l2, n, s.fab.without (o.setWidth 16) false lines)
    else (s.l2, 0, s.fab.unmapped job range)
  let t := s.tlbWithout job range
  let es : List Effect := (if o.getLsbD 19 then [] else s.migrated job range) ++ [.setL2 l2, .setFab f, .orphans n, .setTlb (if o.getLsbD 18 then { t with bitmap := [] } else t)]
  if s.holding job range then .error (.pause es 0x0B) else .ok es)

def execTlbi (x y : SSrc) (s : State) : Host.Outcome State Fault Refusal := s.settle (s.tlbiIssue x y)

/-! ## SELFT (R403, R404) -/

/-- The nominal clocks of a test. -/
def selftClocks (uclass : Nat) : Nat :=
  match uclass with | 0 => 20000 | 1 => 40000 | 2 => 120000 | 3 => 24576 | 4 => 200000 | 5 => 30000 | _ => 60000

def selftOk (v : DWord) : Bool :=
  let c := bits v 0 4
  let u := bits v 8 8
  bits v 4 4 == 0 && bits v 16 48 == 0 && decide (c < 7) && decide (u ≤ if c = 3 then 31 else if c = 4 then 13 else 0)

/-- R385: the node runs a self-test for the job that it serves: peers hear of the service. -/
def State.announceService (s : State) : State :=
  match s.heldQueue with
  | some (q, l) =>
    match l.job with
    | some j => (s.setQueue q fun l => { l with serviced := true }).announce j .service
    | none => s
  | none => s

def State.selftIssue (s : State) (d : SDst) (x : SSrc) : Issue := issueOf (do
  s.needSup
  let v := s.srcS x
  check (selftOk v) .descriptor
  await s.err.selft.isNone 0x0A
  let s1 := s.announceService
  .ok [.setSch s1.sch, .setFab s1.fab, .setErr { s.err with selft := some ⟨bits v 0 4, bits v 8 8, s.nextId, s.clock⟩ },
    .wait ⟨0, 0, 0, false, false, some d, none, 0, none, selftClocks (bits v 0 4), false, .no, .selft (bits v 0 16)⟩])

def execSelft (d : SDst) (x : SSrc) (s : State) : Host.Outcome State Fault Refusal := s.settle (s.selftIssue d x)

/-! ## QRST (R388) -/

/-- The job whose partition a QRST resets; none for an idle queue. -/
def State.qrstJob (s : State) (x : SSrc) : Except Issue (Option (BitVec 16)) := do
  s.needSup
  let v := s.srcS x
  check (bits v 6 58 == 0) .descriptor
  let l := s.queue (bits v 0 6)
  .ok (if l.state = .idle then none else l.job)

/-- Steps 1 and 2: the notice goes out, and the job's queues are being reset. -/
def State.beginReset (s : State) (job : BitVec 16) : State :=
  let s1 := s.announceReset job
  { s1 with sch := { s1.sch with queues := s1.sch.queues.map fun l => if l.job = some job ∧ l.state ≠ .idle then { l with state := .resetting } else l } }

/-- QRST begins the reset and stalls; it ends when this node's steps are done. -/
def execQrst (x : SSrc) (s : State) : Host.Outcome State Fault Refusal :=
  match s.qrstJob x with
  | .ok none => .next s
  | .ok (some j) =>
    if (s.queue (bits (s.srcS x) 0 6)).state = .resetting then .next (s.resetJob j s.sch.entered)
    else
      let s1 := s.beginReset j
      .next { s1 with seq := { s1.seq with bun := { s1.seq.bun with stalled := some 0x0A, kept := true } } }
  | .error i => s.settle i

/-! ## CTXS (R382, R383) -/

/-- The levels of a loop stack as doublewords, L0 first (R87). -/
def loopWords (l : List LoopLevel) : List DWord :=
  BitVec.ofNat 64 l.length :: (List.range 6).flatMap fun i =>
    match l.reverse[i]? with
    | some x => [x.start.setWidth 64, x.fin.setWidth 64, x.index.setWidth 64, x.count.setWidth 64]
    | none => [0, 0, 0, 0]

def tagCode : CTag → Nat | .fin => 0 | .pinf => 1 | .ninf => 2 | .nan => 3
def tagOf (n : Nat) : CTag := match n % 4 with | 0 => .fin | 1 => .pinf | 2 => .ninf | _ => .nan

def dwBytes (l : List DWord) : List Byte := l.flatMap fun d => toBytes 8 d.toNat

/-- The binding's image, policy and BOUND in one doubleword (log 27). -/
def bindWord (b : Binding) : DWord := BitVec.ofNat 64 (b.image.toNat + b.policy % 8 * 2 ^ 48 + if b.bound then 2 ^ 63 else 0)

/-- R118, R383: what the context of a held queue takes from its snapshot; outside region mode from the machine. -/
def State.heldSnap (s : State) (l : LQueue) : Snap :=
  match l.region with
  | some r => r.snap
  | none => s.snap s.k.epc

/-- R383: the save area, in pieces by offset. -/
def State.context (s : State) (l : LQueue) : List (Nat × List Byte) :=
  let sn := s.heldSnap l
  let k := s.k
  let (rm, wm, desc, prog) := match l.region with | some r => (r.rmask, r.wmask, r.desc, r.prog) | none => (0, 0, 0, 0)
  [(0x000000, dwBytes s.regs.s), (0x000200, dwBytes [s.regs.p.setWidth 64, k.epc.setWidth 64,
      BitVec.ofNat 64 (wm.toNat * 2 ^ 32 + rm.toNat), desc, sn.fmt.setWidth 64, k.rngKey, sn.rngCtr, k.mring.setWidth 64, k.status.setWidth 64]),
    (0x000248, s.regs.y.flatMap fun y => toBytes 4 y.toNat),
    (0x000268, dwBytes [k.subbase.setWidth 64, k.submask.setWidth 64, k.dimmap.setWidth 64, k.jobtag.setWidth 64, k.retrace.setWidth 64,
      k.rcount.setWidth 64, k.rtag.setWidth 64, k.wdbudget.setWidth 64, k.wdleft.setWidth 64, k.groups, BitVec.ofNat 64 prog]),
    (0x0002C0, sn.xseq.flatMap (fun x => toBytes 2 x.toNat) ++ List.replicate 4 0),
    (0x0002E0, dwBytes [bindWord sn.bind, BitVec.ofNat 64 sn.bind.context, sn.bind.gstat]),
    (0x000300, dwBytes (loopWords sn.loops)),
    (0x0003D0, s.mat.comm.flatMap fun t => toBytes 2 t.anchor.toNat),
    (0x000400, toBytes 8 sn.masks.length),
    (0x001000, sn.masks.reverse.flatMap fun m => toBytes 256 m.toNat),
    (0x002000, s.regs.v.flatMap vregBytes),
    (0x0A2000, toBytes 65536 s.regs.tp0.toNat ++ toBytes 65536 s.regs.tp1.toNat),
    (0x0C2000, s.mat.comm.flatMap fun t => t.dense.flatMap fun c => toBytes 16 c.n.toNat),
    (0x2C2000, s.mat.comm.flatMap fun t => t.dense.flatMap fun c => toBytes 4 (tagCode c.tag + 4 * min 65535 c.count))]

/-- R287, R381: the context of queue `q` has been written: it is saved, and peers hear that its job is out. -/
def State.saveContext (s : State) (q a : Nat) : State :=
  let l := s.queue q
  let s1 := (s.context l).foldl (fun s x => s.writeHbm (a + x.1) x.2) s
  let s2 : State := { s1 with
    sch := { updQueue s1.sch q (fun l => { l with state := .saved, epc := s.k.epc, serviced := true }) with running := none } }
  match l.job with | some j => s2.announce j .out | none => s2

def listOf {α : Type} (n : Nat) (f : Nat → α) : List α := (List.range n).map f

/-- The bits of FMT and of the binding record that exist: the others read zero, whatever the save area holds (R9, R156, R362). -/
def fmtMask : BitVec 48 := ~~~0xF0020000#48
def gstatMask : DWord := 0x80F0FFFFFFFFFFFF#64

/-- The context at address `a`: the region of the queue, if it has one, and the machine. -/
def State.restoreContext (s : State) (q a : Nat) : State :=
  let l := s.queue q
  let dw (o : Nat) : DWord := Memory.dword s.hbm (a + o)
  let k := { s.k with
    epc := (dw 0x208).setWidth 48, rngKey := dw 0x228, rngCtr := dw 0x230, mring := (dw 0x238).setWidth 16 &&& 0x1FF#16,
    status := (dw 0x240).setWidth 32 &&& statusMask, subbase := (dw 0x268).setWidth 14, submask := (dw 0x270).setWidth 14,
    dimmap := (dw 0x278).setWidth 56, jobtag := (dw 0x280).setWidth 16, retrace := (dw 0x288).setWidth 8, rcount := (dw 0x290).setWidth 8,
    rtag := (dw 0x298).setWidth 8, wdbudget := (dw 0x2A0).setWidth 48, wdleft := (dw 0x2A8).setWidth 48,
    groups := dw 0x2B0 &&& 0x80FF80FF80FF80FF#64 }.derive
  let loops := ((listOf 6 fun i =>
    LoopLevel.mk ((dw (0x308 + 32 * i)).setWidth 48) ((dw (0x310 + 32 * i)).setWidth 48) ((dw (0x318 + 32 * i)).setWidth 32)
      ((dw (0x320 + 32 * i)).setWidth 32)).take (dw 0x300).toNat).reverse
  let masks : List Mask := ((listOf 8 fun i => BitVec.ofNat 2048 (Memory.word s.hbm (a + 0x1000 + 256 * i) 256)).take (dw 0x400).toNat).reverse
  let xs := listOf 14 fun i => BitVec.ofNat 12 (Memory.word s.hbm (a + 0x2C0 + 2 * i) 2)
  let b := dw 0x2E0
  let bind : Binding := ⟨b.getLsbD 63, b.setWidth 48, bits b 48 3, (dw 0x2E8).toNat, dw 0x2F0 &&& gstatMask⟩
  let tile (t : Nat) : Tile := ⟨BitVec.ofNat 10 (Memory.word s.hbm (a + 0x3D0 + 2 * t) 2), sparse (listOf 16384 fun i =>
    let w := Memory.word s.hbm (a + 0x2C2000 + 65536 * t + 4 * i) 4
    Cell.mk (BitVec.ofNat 128 (Memory.word s.hbm (a + 0xC2000 + 262144 * t + 16 * i) 16)) (tagOf w) (w / 4 % 65536))⟩
  let snap : Snap := ⟨k.epc, loops, masks, k.rngCtr, (dw 0x220).setWidth 48 &&& fmtMask, xs, bind⟩
  let rg := l.region.map fun r =>
    { r with snap := snap, rmask := (dw 0x210).setWidth 32, wmask := (dw 0x210 >>> 32).setWidth 32, desc := dw 0x218, prog := (dw 0x2B8).toNat }
  let regs := { s.regs with
    s := listOf 64 fun i => if i = 0 then 0 else dw (8 * i)
    p := (dw 0x200).setWidth 16 ||| 1
    y := listOf 8 fun i => BitVec.ofNat 32 (Memory.word s.hbm (a + 0x248 + 4 * i) 4) &&& polMask
    v := listOf 80 fun i => vregOf (Memory.bytes s.hbm (a + 0x2000 + 8192 * i) 8192)
    tp0 := BitVec.ofNat 524288 (Memory.word s.hbm (a + 0xA2000) 65536)
    tp1 := BitVec.ofNat 524288 (Memory.word s.hbm (a + 0xB2000) 65536)
    fmt := snap.fmt, masks := masks }
  let tiles := listOf 8 tile
  let s1 : State := { s with
    regs := regs, k := k, seq := { s.seq with loops := loops }, mat := { s.mat with comm := tiles, work := tiles, queue := [], aanch := 0 },
    eng := { s.eng with bind := bind }
    sch := { updQueue s.sch q (fun l => { l with state := .held, region := rg, epc := k.epc, since := s.clock, overdue := false }) with running := some q, serving := some q } }
  { s1 with xch := s1.restoreXseqs xs }

/-- R382: the operands: queue, whether it is a restore, address. -/
def State.ctxsCheck (s : State) (x y : SSrc) : Except Issue (Nat × Bool × Nat) := do
  s.needSup
  let v := s.srcS x
  let a := (s.srcS y).toNat
  check (bits v 6 2 == 0 && bits v 9 55 == 0) .descriptor
  check (a % 65536 == 0 && decide (a + 0x342000 ≤ hbmEnd)) .descriptor
  let q := bits v 0 6
  let l := s.queue q
  if v.getLsbD 8 then do
    check (l.state == .saved) .descriptor
    .ok (q, true, a)
  else do
    check (l.state == .held && bits l.cause 0 12 == Cause.preemption.code) .descriptor
    await (!(s.buf.any fun e => some e.job == l.job && e.state != .opened)) 0x0A
    .ok (q, false, a)

def execCtxs (x y : SSrc) (s : State) : Host.Outcome State Fault Refusal :=
  match s.ctxsCheck x y with
  | .ok (q, true, a) => .next (s.restoreContext q a)
  | .ok (q, false, a) => .next (s.saveContext q a)
  | .error i => s.settle i

end Sys2Proof.Machine
end

