-- ==== Sys2Proof/Machine/Errors.lean ====
section
/-! DEFINITION. Errors that checking hardware finds, self-tests, quarantine and fencing (15_errors R394, R402 to R409), and interrupts
of the host. -/

namespace Sys2Proof.Machine

/-! ## Fencing (R407) -/

/-- A control packet about a job, across every logical dimension of its subcube. -/
def State.spread (s : State) (job : BitVec 16) (ctype : Nat) : State :=
  match s.jobCube job with
  | none => s
  | some c => (mapDims c.dimmap (popc c.submask)).foldl (fun s d => s.control d job (BitVec.ofNat 64 (ctype + job.toNat * 2 ^ 16))) s

/-- The job is held here: what the supervisor holds already is held fenced; a program that runs is held at its next boundary; a queue
that waits is not selected. Peers hear of the service. -/
def State.fenceHere (s : State) (job : BitVec 16) : State :=
  if s.fencedJob job then s
  else
    let mine (l : LQueue) : Bool := l.job == some job
    let runs := (s.sch.queues.zipIdx.find? fun (l, _) => mine l && l.state == .running).map (·.2)
    let held := s.sch.queues.any fun l => mine l && (l.state == .held || l.state == .running)
    let qs := s.sch.queues.map fun l =>
      if mine l ∧ l.state = .held ∧ l.hold ≠ .fatal then { l with hold := .fenced, serviced := true, cause := causeWord 3 Cause.jobFenced.code }
      else if mine l ∧ l.state = .running then { l with serviced := true }
      else l
    let s1 : State := { s with err := { s.err with fenced := s.err.fenced ++ [job] }, sch := { s.sch with queues := qs } }
    let s2 := if runs.isSome then s1.notice ⟨.jobFenced, 0, 0, false, runs⟩ else s1
    if held then s2.announce job .service else s2

/-- A node fences a job on every node of its subcube. -/
def State.fenceJob (s : State) (job : BitVec 16) : State := if s.fencedJob job then s else (s.fenceHere job).spread job 3

def execFenceNoticeArrival (s : State) : Host.Outcome State Fault Refusal :=
  .next ((s.fenceHere s.ev.packet.job).forwardNotice s.ev.packet)

/-- The fence of a job is released here: its held queues may be entered again, and the supervisor is asked to. One that serves such a
queue is entered anew (log 29). -/
def State.releaseHere (s : State) (job : BitVec 16) : State :=
  if !s.fencedJob job then s
  else
    let held (l : LQueue) : Bool := l.job == some job && l.state == .held && (l.hold == .fenced || l.hold == .loss)
    let qs := (s.sch.queues.zipIdx.filter fun (l, _) => held l).map (·.2)
    let s1 : State := { s with
      err := { s.err with fenced := s.err.fenced.filter fun j => j != job }
      sch := { s.sch with
        queues := s.sch.queues.map (fun l => if held l then { l with hold := .released } else l)
        notices := s.sch.notices.filter fun n => !(n.cause == .jobFenced && n.queue.any fun q => (s.queue q).job == some job) } }
    (qs.foldl (fun s q =>
      if s.k.priv ∧ s.sch.serving = some q then
        { s with
          regs := s.regs.emptyQueues
          k := { s.k with cause := causeWord 3 Cause.resumeRequest.code, epc := (s.queue q).epc, eva := 0, einfo := 0 }
          sch := { s.sch with entered := causeWord 3 Cause.resumeRequest.code }
          seq := { s.seq with pc := s.k.tvec &&& ~~~0xF#48, redirects := [], delay := 0, delayEnd := .none, stall := none, bun := .start } }
      else s.notice ⟨.resumeRequest, 0, 0, false, some q⟩) s1).requestSwitch

def execReleaseNoticeArrival (s : State) : Host.Outcome State Fault Refusal :=
  .next ((s.releaseHere s.ev.packet.job).forwardNotice s.ev.packet)

/-- R407, R412: the host releases a job's fence at this node, which tells the others. -/
def execFencerel (s : State) : Host.Outcome State Fault Refusal := .next ((s.releaseHere s.ev.job).spread s.ev.job 5)

/-! ## Quarantine (R301, R405) -/

/-- A neighbour is quarantined: it is usable no longer, and what waits for it as a partner fails. -/
def execQuarantineNoticeArrival (s : State) : Host.Outcome State Fault Refusal :=
  let p := s.ev.packet
  .next (if p.src ∈ s.fab.dead then s
    else { s with fab := { s.fab with dead := s.fab.dead ++ [p.src], rtcfg := putBits s.fab.rtcfg (s.portFrom p) 1 0 } }.partnersLost)

/-- The links that are not absent hear of this node's quarantine. -/
def State.quarantineNode (s : State) : State :=
  if s.err.node then s
  else
    let s1 := s.jobsHere.foldl State.fenceJob { s with err := { s.err with node := true } }
    ((List.range 14).filter fun d => linkState s1.k.linkstat d != 0).foldl (fun s d => s.control d 0 4) s1

/-- R405: what a failed test does. -/
def State.quarantine (s : State) (uclass unit_ : Nat) : State :=
  match uclass with
  | 3 => { s with vaults := s.vaults.modify unit_ fun v => { v with quarantined := true } }
  | 4 => { s.dropLink unit_ 0 with err := { s.err with links := s.err.links ||| BitVec.twoPow 14 unit_ } }
  | _ => s.quarantineNode

def State.isQuarantined (s : State) (uclass unit_ : Nat) : Bool :=
  match uclass with
  | 3 => match s.vaults[unit_]? with | some v => v.quarantined | none => false
  | 4 => s.err.links.getLsbD unit_
  | _ => s.err.node

/-! ## Self-tests (R403 to R409) -/

/-- R406: a passed test of a class. -/
def Errs.passed (e : Errs) (uclass : Nat) : Errs :=
  { e with windows := e.windows.map fun w => { w with cpass := w.cpass.set uclass w.csn, outd := w.outd.set uclass 0 } }

def isStateLoss (cause : BitVec 16) : Bool := bits cause 0 12 == Cause.stateLoss.code

/-- R408: the records of the errors that a test follows: of kind 1 after a pass, and of kind 2 otherwise. -/
def State.recordTested (s : State) (t : Selft) (pass : Bool) : State :=
  let mine (u : Untested) : Bool := u.uclass == t.uclass && u.unit_ == t.unit_
  let s1 := (s.err.untested.filter mine).foldl (fun (s : State) u =>
    s.errorRecord (if pass then 1 else 2) u.job u.cause u.queue u.uclass u.unit_ u.epc u.eva u.einfo (!pass || isStateLoss u.cause) 0 (some u.csn)) s
  { s1 with err := { s1.err with untested := s1.err.untested.filter fun u => !mine u } }

/-- R394, R409: the jobs that a test leaves fenced: those of a failure, of state loss and of an engine error of the class. -/
def State.toFence (s : State) (t : Selft) (pass : Bool) : List (BitVec 16) :=
  let us := s.err.untested.filter fun u => u.uclass == t.uclass && u.unit_ == t.unit_
  let served := match s.heldQueue with | some (_, l) => l.job.toList | none => []
  ((us.filter fun u => !pass || isStateLoss u.cause).map (·.job) ++ (s.err.engine.filter fun e => e.2 == t.uclass).map (·.1)
    ++ if pass then [] else served).dedup

/-- The result numbered `id` arrives, and is recorded (R109). -/
def State.arriveById (s : State) (id : Nat) (v : Arrived) : State :=
  match s.pipe.waits.find? fun w => w.id == id with
  | some w => s.arriveTraced w v 0
  | none => s.arrive id v 0

/-- R409: an engine error that implicates no unit: the supervisor that it has entered fences the job, without a test (log 54). -/
def State.engineFence (s : State) : Option (BitVec 16 × Nat) :=
  if s.k.priv && bits s.k.cause 0 12 == Cause.engineError.code && bits s.k.einfo 0 4 == 15 then s.err.engine.find? fun e => e.2 == 15 else none

def State.fenceEngine (s : State) (e : BitVec 16 × Nat) : State :=
  { s with err := { s.err with engine := s.err.engine.filter fun x => x != e } }.fenceJob e.1

/-- R403 to R405: the test ends; a failure quarantines the unit before the result lands. -/
def State.selftDone (s : State) (t : Selft) (fail : Bool) : State :=
  let old := s.isQuarantined t.uclass t.unit_
  let pass := !fail && !old
  let sub := if pass then 0 else (Config.freeSelftSub s.freeCount).toNat
  let v := (if old then 2 else if fail then 1 else 0) * 2 ^ 62 + sub * 2 ^ 32 + (Config.freeSelftClocks s.freeCount).toNat
  let jobs := s.toFence t pass
  let s1 := s.recordTested t pass
  let s2 : State := { s1 with
    freeCount := s1.freeCount + 1
    err := { (if pass then s1.err.passed t.uclass else s1.err) with selft := none, engine := s1.err.engine.filter fun e => e.2 != t.uclass } }
  let s3 := if fail && !old then s2.quarantine t.uclass t.unit_ else s2
  (jobs.foldl State.fenceJob s3).arriveById t.wait (.scalar (BitVec.ofNat 64 v))

/-- The act's flag says that the test has failed. -/
def execSelftComplete (s : State) : Host.Outcome State Fault Refusal :=
  .next (match s.err.selft with
    | some t => s.selftDone t s.ev.flag
    | none => s)

/-! ## ECC (R402) -/

/-- A correctable error is counted only. -/
def execCorrectableError (s : State) : Host.Outcome State Fault Refusal :=
  .next { s with err := { s.err with corrected := s.err.corrected.modify s.ev.num (· + 1) } }

/-- A unit that the open region has written. -/
def State.writtenHere (s : State) (u : TUnit) : Bool := match s.rgn with | some r => decide (u ∈ r.writes) | none => false

/-- Whether an error loses state that no re-entry restores, and the unit that it implicates (log 28). The mask and loop stacks come back with
the snapshot, and so do FMT and RNGCTR where the region has changed them; no snapshot holds STATUS or another state register. -/
def State.errorOf (s : State) : ErrWhere → Bool × Nat × Nat
  | .scalar n => (!s.writtenHere (.s n), 1, 0)
  | .vector n | .vectorWord n _ => (!s.writtenHere (.v n), 1, 0)
  | .pred n => (!s.writtenHere (.p n), 1, 0)
  | .fmt => (s.rgn.all fun r => s.regs.fmt == r.snap.fmt, 1, 0)
  | .rngctr => (s.rgn.all fun r => s.k.rngCtr == r.snap.rngCtr, 1, 0)
  | .status | .kreg _ => (true, 0, 0)
  | .policy n => (!s.writtenHere (.y n), 1, 0)
  | .ring => (!s.writtenHere .mring, 1, 0)
  | .key => (!s.writtenHere .rngkey, 1, 0)
  | .blockWord b _ => (!s.writtenHere (.tp b), 1, 0)
  | .maskLevel _ => (s.rgn.isNone, 1, 0)
  | .loopLevel _ => (s.rgn.isNone, 0, 0)
  | .snapshotItem _ => (true, 0, 0)
  | .tileCell _ _ committed => (committed, 2, 0)
  | .inflight | .resultQueue => (false, 1, 0)
  | .buffer => (false, 6, 0)
  | .tile _ committed => (committed, 2, 0)
  | .snapshot => (true, 0, 0)
  | .vault v _ => (!(match s.rgn with | some r => r.wmask.getLsbD v | none => false), 3, v)
  | .line _ | .cached _ => (false, 6, 0)
  | .engine _ => (false, 5, 0)
  | .supervisorState => (false, 0, 0)

/-- An item of a snapshot that is lost reads zero: FMT, RNGCTR, the mask and loop levels, the port numbers. -/
def Snap.lose (sn : Snap) (i : Nat) : Snap :=
  if i = 0 then { sn with fmt := 0 }
  else if i = 1 then { sn with rngCtr := 0 }
  else if i < 10 then { sn with masks := sn.masks.modify (i - 2) fun _ => 0 }
  else if i < 16 then { sn with loops := sn.loops.modify (i - 10) fun _ => ⟨0, 0, 0, 0⟩ }
  else { sn with xseq := sn.xseq.modify (i - 16) fun _ => 0 }

/-- The snapshot of the open region, or of the one that the supervisor holds. -/
def State.inSnapshot (s : State) (f : Snap → Snap) : State :=
  match s.rgn, s.heldQueue with
  | none, some (q, _) => s.setQueue q fun l => { l with region := l.region.map fun r => { r with snap := f r.snap } }
  | _, _ => { s with rgn := s.rgn.map fun r => { r with snap := f r.snap } }

/-- R407: a word that has been lost reads zero. -/
def State.lostWord (s : State) : ErrWhere → State
  | .vectorWord n i => { s with regs := { s.regs with v := s.regs.v.modify n fun v => putBits v (64 * i) 64 0 } }
  | .blockWord b i =>
    { s with regs := if b then { s.regs with tp1 := putBits s.regs.tp1 (64 * i) 64 0 } else { s.regs with tp0 := putBits s.regs.tp0 (64 * i) 64 0 } }
  | .tileCell n i _ => { s with mat := { s.mat with comm := s.mat.comm.modify n fun t => { t with cells := t.cells.filter fun c => c.1 != i } } }
  | .snapshotItem i => s.inSnapshot fun sn => sn.lose i
  | .snapshot => s.inSnapshot fun sn => (List.range 30).foldl Snap.lose sn
  | .pred n => { s with regs := s.regs.writeP n false }
  | .fmt => { s with regs := { s.regs with fmt := 0 } }
  | .rngctr => { s with k := { s.k with rngCtr := 0 } }
  | .status => { s with k := { s.k with status := 0 } }
  | .kreg n => s.setK n 0
  | .policy n => { s with regs := { s.regs with y := s.regs.y.modify n fun _ => 0 } }
  | .ring => { s with k := { s.k with mring := 0 } }
  | .key => { s with k := { s.k with rngKey := 0 } }
  | .maskLevel n => { s with regs := { s.regs with masks := s.regs.masks.modify n fun _ => 0 } }
  | .loopLevel n => { s with seq := { s.seq with loops := s.seq.loops.modify n fun _ => ⟨0, 0, 0, 0⟩ } }
  | .scalar n => { s with regs := { s.regs with s := s.regs.s.set n 0 } }
  | .vector n => { s with regs := { s.regs with v := s.regs.v.set n 0 } }
  | .tile n _ => { s with mat := { s.mat with comm := s.mat.comm.modify n fun t => { t with cells := [] } } }
  | .vault _ a => { s with sp := Memory.write s.sp (a / 8 * 8) (List.replicate 8 0) }
  | _ => s

/-- R245, R248: a block of HBM is poisoned. -/
def State.poisonBlock (s : State) (pa : Nat) : State :=
  { s with poison := if s.poison.contains (pa / 4096) then s.poison else s.poison ++ [pa / 4096] }

/-- R394, R403, R408: an error that is met while the supervisor runs is recorded with the test of its unit; one that loses state of the program
that is held keeps it from being entered again until its fence is released (log 28). -/
def State.foundHeld (s : State) (t : Trap) (cause : BitVec 16) (loss : Bool) : State :=
  let s1 := { s with err := s.untested t cause s.k.epc (s.einfoOf t) }
  match s.heldQueue with
  | some (q, l) => if loss && l.hold != .fatal then s1.setQueue q fun l => { l with hold := .loss } else s1
  | none => s1

/-- An uncorrectable error, where the act names. A line of the L2 that is clean is fetched again, and one that is dirty poisons its block
(R245). Work of an engine that has been admitted stops; before that it is a soft error of the engines (R402). -/
def State.eccError (s : State) (w : ErrWhere) : State :=
  match w with
  | .line pa => s.poisonBlock pa
  | .cached pa => if s.l2.any (fun x => x.line == pa / 128 && x.dirty) then s.poisonBlock pa else s
  | w =>
    match (match w with | .engine id => s.commandStops id | _ => none) with
    | some s1 => s1
    | none =>
    let (loss, c, u) := s.errorOf w
    let t : Trap := { cause := if loss then .stateLoss else .softError, uclass := c, unit := u, detail := Config.freeSyndrome s.freeCount, slotless := true }
    let s1 := { s with freeCount := s.freeCount + 1 }
    let s2 := if loss then s1.lostWord w else s1
    let c1 := causeWord 1 t.cause.code
    if s.k.priv && s.err.selft.isNone && w == .supervisorState then s2.takeTrap t
    else if s.k.priv then s2.foundHeld t c1 loss
    else if s.sch.running.isSome then (if s2.closing then s2 else s2.endStall).strike t
    else { s2 with err := s2.untested t c1 s2.seq.pc (s2.einfoOf t) }.enter c1 s2.seq.pc 0 (s2.einfoOf t) .none none

def execUncorrectableError (s : State) : Host.Outcome State Fault Refusal := .next (s.eccError s.ev.errAt)

/-! ## The host's interrupt (R394, R396) -/

/-- The act's flag says that it is urgent. -/
def execHostInterrupt (s : State) : Host.Outcome State Fault Refusal :=
  .next (if s.ev.flag then s.urgent .hostInterrupt 0 0 else s.notice ⟨.hostInterrupt, 0, 0, false, none⟩)

end Sys2Proof.Machine
end

