-- ==== Sys2Proof/Machine/HostOps.lean ====
section
/-! DEFINITION. What the host and the package do to a node (16_host R410 to R424): the memory window, the control window, bring-up, the
boot flash, attestation, power. -/

namespace Sys2Proof.Machine

/-! ## The memory window (R410, R411) -/

/-- R410: the four nodes of a package share the window in equal parts; its size at reset is the model's (log 130). -/
def Hst.aperture (h : Hst) : Nat := 2 ^ h.window / 4

/-- The physical address that an offset of the window names, if it lies in this node's aperture. MWBASE counts in whole apertures (R412). -/
def State.windowPa (s : State) (o : Nat) : Option Nat :=
  let n := s.hst.aperture
  if o / n = s.k.nodeId.toNat % 4 then some (s.hst.mwbase.toNat / n * n + o % n) else none

/-- A host write, like any write at its home here; beyond the HBM it is discarded and HINT says so. -/
def execHostMemoryWrite (s : State) : Host.Outcome State Fault Refusal :=
  .next (match s.windowPa s.ev.off with
    | none => s
    | some a => if hbmEnd < a + s.ev.bytes.length then s.setHint 6 else s.writeHome (.here a) physAttr s.ev.bytes none)

/-- R373: the doubleword at an offset of a queue's page in the launch window. -/
def State.launchWord (s : State) (q o : Nat) : DWord :=
  match o with
  | 0x040 => (s.queue q).qstat
  | 0x048 => if (s.queue q).state = .running then s.waitr else 0
  | 0x050 => (s.queue q).exit.setWidth 64
  | _ => 0

def dwByte (v : DWord) (i : Nat) : Byte := BitVec.ofNat 8 (bits v (8 * i) 8)

/-- R373: the bytes that a read of the launch window answers; only this node's pages are here. -/
def State.launchRead (s : State) (off n : Nat) : List Byte :=
  let (node, q, o) := launchPage off
  if node ≠ s.k.nodeId.toNat % 4 then List.replicate n 0
  else (List.range n).map fun i => dwByte (s.launchWord q ((o + i) / 8 * 8)) ((o + i) % 8)

/-- R412: VOWN of a vault. -/
def Vault.vown (v : Vault) : DWord :=
  let st := match v.state with | .free => 0 | .owned => 1 | .releasing => 2 | .scrubbing => 3
  BitVec.ofNat 64 ((if v.state = .free then 0 else v.owner.toNat * 2 ^ 48) + (if v.quarantined then 4 else 0) + st)

/-- R412: what the doublewords of a node's block of the control window read; offsets not listed read zero, and those that only take writes do. -/
def State.controlWord (s : State) (o : Nat) : DWord :=
  let h := s.hst
  match o with
  | 0x000 => h.nctl | 0x008 => h.trbase | 0x010 => h.trlen | 0x018 => h.trrd | 0x020 => h.trwr | 0x028 => h.elbase | 0x030 => h.ellen
  | 0x038 => h.elrd | 0x040 => h.elwr | 0x048 => h.ellost.setWidth 64 | 0x050 => h.jtbase | 0x058 => h.grace | 0x060 => s.fab.rtcfg
  | 0x078 => h.migrs.setWidth 64 | 0x080 => h.hint.setWidth 64 | 0x090 => s.k.feat0 | 0x098 => s.k.feat1 | 0x0A0 => s.k.feat2
  | 0x0A8 => s.k.feat3 | 0x0B0 => h.brstat.setWidth 64 | 0x0B8 => h.pstate.setWidth 64 | 0x0C0 => h.mwbase | 0x0C8 => h.hinten.setWidth 64
  | 0x0D0 => h.qdoneen
  | o =>
    if 0x100 ≤ o ∧ o < 0x200 then (s.vaults[(o - 0x100) / 8]?).elim 0 Vault.vown
    else if 0x200 ≤ o ∧ o < 0x300 then (h.telem[(o - 0x200) / 8]?).getD 0
    else 0

/-- R419, R420, R424: the bytes of the package block, by their offset in it; its commands read zero (log 127). -/
def Hst.packageByte (h : Hst) (o : Nat) : Byte :=
  if o < 0x20 then BitVec.ofNat 8 (bits h.nonce (8 * o) 8)
  else if o = 0x28 then h.attest
  else if 0x40 ≤ o ∧ o < 0x48 then dwByte h.pwrcap (o - 0x40)
  else if 0x1000 ≤ o ∧ o < 0x2000 then (h.quote[o - 0x1000]?).getD 0
  else if o = 0x2008 then h.flash
  else if o = 0x2010 then BitVec.ofNat 8 h.slot
  else if 0x3000 ≤ o ∧ o < 0x4000 then (h.flashBuf[o - 0x3000]?).getD 0
  else 0

/-- R410: the bytes that a read of the control window answers: of this node's block and of the package block. -/
def State.controlRead (s : State) (off n : Nat) : List Byte :=
  (List.range n).map fun i =>
    let o := off + i
    if 0x40000 ≤ o ∧ o < 0x50000 then s.hst.packageByte (o - 0x40000)
    else if o / 0x10000 = s.k.nodeId.toNat % 4 then dwByte (s.controlWord (o % 0x10000 / 8 * 8)) (o % 8)
    else 0

/-- A host read of `count` bytes of the memory window; beyond the HBM it answers all ones. The act's flag says that it is of the launch window, its
number 2 that it is of the control window. -/
def execHostMemoryRead (s : State) : Host.Outcome State Fault Refusal :=
  let answer (bs : List Byte) : State := { s with hst := { s.hst with readData := bs } }
  .next (if s.ev.flag then answer (s.launchRead s.ev.off s.ev.count)
    else if s.ev.num = 2 then answer (s.controlRead s.ev.off s.ev.count)
    else match s.windowPa s.ev.off with
      | none => s
      | some a =>
        if hbmEnd < a + s.ev.count then (answer (List.replicate s.ev.count 0xFF#8)).setHint 6 else answer (s.readHome (.here a) s.ev.count))

/-! ## Bring-up (R418, R419, R422) -/

/-- Physical address of the firmware image. -/
def imageBase : Nat := 0x17FE000000

/-- R419: the 32 MiB of a slot; a block that the host has not written is zero (log 63). -/
def Hst.image (h : Hst) (slot : Nat) : List Byte :=
  (List.range 8192).flatMap fun b =>
    match ((h.slots[slot]?).getD []).find? fun x => x.1 == b with
    | some (_, bs) => (bs ++ List.replicate 4096 0).take 4096
    | none => List.replicate 4096 0

/-- R418: the image's signature passes, and its rollback version is not below the fused minimum. -/
def Hst.genuine (h : Hst) (slot : Nat) : Bool :=
  Config.imageGenuine (h.image slot) && decide (Config.fusedMinimum ≤ Config.imageVersion (h.image slot))

/-- R419: the image of a slot is copied to the top of the HBM, all 32 MiB of it. -/
def State.loadImage (s : State) (slot : Nat) : State :=
  ((s.hst.slots[slot]?).getD []).foldl (fun s x => s.writeHbm (imageBase + 4096 * x.1) ((x.2 ++ List.replicate 4096 0).take 4096))
    { s with hbm := Memory.clear s.hbm imageBase 0x2000000 }

/-- A step has been reached. -/
def State.atStep (s : State) (n : Nat) : State := { s with hst := { s.hst with brstat := BitVec.ofNat 8 (16 * n) } }

/-- A step fails: bring-up ends there. -/
def State.bringFails (s : State) (n : Nat) : State :=
  { s with hst := { s.hst with brstat := BitVec.ofNat 8 (16 * n + 15), bring := none } }.setHint 7

/-- Step 0x20: the active slot is copied and verified, and, if it fails, the other one once; the image that passes is started at TVEC, where the
registers of R50 leave the sequencer. -/
def State.firmwareUp (s : State) : State :=
  let a := s.hst.slot % 2
  let b := (s.hst.slot + 1) % 2
  let start (s : State) (slot : Nat) : State := { s with hst := { s.hst with off := false, running := slot } }.atStep 2
  if s.hst.genuine a then start (s.loadImage a) a
  else if s.hst.genuine b then start ((s.loadImage a).loadImage b) b
  else ((s.loadImage a).loadImage b).bringFails 2

/-- Steps 0x30 and 0x40: a link that has trained is up, unless its neighbour is not the one of its dimension. -/
def State.linksUp (s : State) (b : Bring) : State :=
  let up := b.trained &&& ~~~b.wrong
  { s with k := { s.k with linkstat := BitVec.ofNat 28 ((List.range 14).foldl (fun a d => if up.getLsbD d then a + 4 ^ d else a) 0) } }

/-- Step 0x50. -/
def State.usableUp (s : State) (b : Bring) : State :=
  { s with
    k := { s.k with detour := detourReset }.relink
    fab := { s.fab with rtcfg := putBits s.fab.rtcfg 0 14 (b.trained &&& ~~~b.wrong).toNat } }

/-- Step 0x60: the lowest live node injects the token. -/
def State.tokenUp (s : State) : State :=
  let s1 := s.setToken { Token.mk s.lowestLive 1 0 0 1 0 0 false 0 with seen := s.clock }
  if s1.fab.token.held then s1.passToken else s1

/-- R422: the next step of bring-up; each takes one clock (log 129). A node at 0x60 waits for its ring neighbour, or until the token counts as lost (R342). -/
def State.bringUp (s : State) : State :=
  match s.hst.bring with
  | none => s
  | some b =>
    let n := s.hst.brstat.toNat / 16 + 1
    if b.fail = n ∧ n ≤ 6 then s.bringFails n
    else
      match n with
      | 1 => s.atStep 1
      | 2 => s.firmwareUp
      | 3 => (s.linksUp b).atStep 3
      | 4 => s.atStep 4
      | 5 => (s.usableUp b).atStep 5
      | 6 => s.tokenUp.atStep 6
      | _ => if b.ready ≤ s.clock ∨ s.tokenLost then { s.atStep 7 with hst := { (s.atStep 7).hst with bring := none } } else s

/-- What a reset of the node leaves of its window: what belongs to the package, its flash and its one-time cells. The node is off until its firmware
starts. -/
def Hst.afterReset (h : Hst) : Hst :=
  { Hst.reset with
    brstat := 0, off := true, window := h.window, msixFun := h.msixFun, msixMask := h.msixMask, msixPend := h.msixPend, msixSent := h.msixSent,
    readData := h.readData, pwrcap := h.pwrcap, nonce := h.nonce, asked := h.asked, attest := h.attest, counter := h.counter, index := h.index,
    quote := h.quote, slots := h.slots, slot := h.slot, running := h.running, flash := h.flash, flashBuf := h.flashBuf, flashReq := h.flashReq }

/-- R50: the registers and units after a reset; the acts to come, what has left on the links, and the model's own counters, stay. -/
def State.rebuilt (s : State) (node : BitVec 14) : State :=
  { State.reset with
    k := { KRegs.reset with nodeId := node }.derive, hst := s.hst.afterReset, inbox := s.inbox, ev := s.ev, nextId := s.nextId, pickCount := s.pickCount,
    freeCount := s.freeCount, fab := { Fab.reset with links := s.fab.links.map fun l => { Link.reset with out := l.out } } }

/-- A vault after a node reset: free; its last owner and its quarantine stay. -/
def Vault.afterReset (v : Vault) : Vault :=
  { Vault.reset with last := (if v.state = .free then v.last else some v.owner), quarantined := v.quarantined }

/-- The surroundings of a bring-up, as its act gives them (log 129). -/
def EventArgs.bring (a : EventArgs) : Bring := ⟨a.trained, a.value.setWidth 14, a.num, a.count⟩

def State.beginBring (s : State) (step : Nat) (b : Bring) : State := { s.atStep step with hst := { (s.atStep step).hst with bring := some b } }

/-- The notices of R385 that wait for a link leave on it. -/
def Link.putNotices (l : Link) : Link := (l.ready.filter fun o => o.packet.kind == 3 && bits (o.packet.dw 2) 0 8 == 2).foldl Link.put l

/-- R388, R414: the notices of a reset leave over the links that are up before the node is reset. -/
def State.noticesLeave (s : State) : State :=
  { s with fab := ((List.range 14).filter fun d => linkState s.k.linkstat d == 1).foldl (fun f d => updLink f d Link.putNotices) s.fab }

/-- R414: partition resets, then the reset of the node, then bring-up from step 2: memory and scratchpad keep their bytes, and a
quarantine stays. -/
def State.nodeReset (s : State) : State :=
  let s1 := (s.jobsHere.foldl (fun s j => (s.announceReset j).resetJob j 0) s).noticesLeave
  let s2 : State := { s1.rebuilt s1.k.nodeId with
    hbm := s1.hbm, sp := s1.sp, poison := s1.poison, vaults := s1.vaults.map Vault.afterReset,
    err := { Errs.reset with node := s1.err.node, links := s1.err.links } }
  s2.beginBring 1 { s.ev.bring with trained := s.ev.trained &&& ~~~s1.err.links }

def execNodeReset (s : State) : Host.Outcome State Fault Refusal := .next s.nodeReset

/-- R422: bring-up of a node that was off. -/
def State.powerUp (s : State) (straps : BitVec 14) : State := (s.rebuilt straps).beginBring 0 s.ev.bring

/-- R424: the power limit of a package is at its reset value after power-on. -/
def execPowerOn (s : State) : Host.Outcome State Fault Refusal :=
  .next ({ s with hst := { s.hst with pwrcap := 3200 } }.powerUp s.ev.straps)

/-- R423: the node is off and its contents are lost; its package works on. -/
def State.dark (s : State) : State := s.rebuilt s.k.nodeId

/-- R421: the package is off too; an index whose signature was under way is skipped. -/
def execPowerLoss (s : State) : Host.Outcome State Fault Refusal :=
  .next { s.dark with hst := { s.dark.hst with attest := 0, index := none, flash := 0, flashReq := none, flashBuf := [], quote := [], nonce := 0 } }

/-! ## The control window (R412, R413) -/

def Hst.setNctl (h : Hst) (b : Nat) (v : Bool) : Hst := { h with nctl := putBits h.nctl b 1 (if v then 1 else 0) }

def execTraceOn (s : State) : Host.Outcome State Fault Refusal := .next { s with hst := s.hst.setNctl 1 s.ev.flag }

/-- R416: data mode is a feature; until it is acknowledged the bit stays 0. -/
def execDataMode (s : State) : Host.Outcome State Fault Refusal :=
  .next { s with hst := s.hst.setNctl 2 (s.ev.flag && s.feature 3) }

def execBreakpointHaltsEnabled (s : State) : Host.Outcome State Fault Refusal := .next { s with hst := s.hst.setNctl 3 s.ev.flag }

def execReleaseHalt (s : State) : Host.Outcome State Fault Refusal := .next { s with seq := { s.seq with halted := false } }

/-- R109: the reader frees space; records that wait move in. -/
def execTrrdWrite (s : State) : Host.Outcome State Fault Refusal :=
  let s1 := { s with hst := { s.hst with trrd := s.ev.value &&& ~~~0xF#64 } }
  .next (s1.flushTrace s1.hst.traceQ.length)

def execElrdWrite (s : State) : Host.Outcome State Fault Refusal := .next { s with hst := { s.hst with elrd := s.ev.value &&& ~~~0x3F#64 } }

/-- R412: registers whose write has no behaviour of its own; the bits that do not exist stay zero (R328, R416, R424). -/
def State.hostWrite (s : State) (r : HostReg) (v : DWord) : State :=
  match r with
  | .trbase => { s with hst := { s.hst with trbase := v } }
  | .trlen => { s with hst := { s.hst with trlen := v &&& ~~~0xF#64 } }
  | .elbase => { s with hst := { s.hst with elbase := v } }
  | .ellen => { s with hst := { s.hst with ellen := v &&& ~~~0x3F#64 } }
  | .jtbase => { s with hst := { s.hst with jtbase := v } }
  | .grace => { s with hst := { s.hst with grace := v } }
  | .rtcfg => { s with fab := { s.fab with rtcfg := if s.feature 2 then v else putBits v 46 1 0 } }
  | .mwbase => { s with hst := { s.hst with mwbase := BitVec.ofNat 64 (v.toNat / s.hst.aperture * s.hst.aperture) } }
  | .bar4 => { s with hst := { s.hst with window := ((List.range 10).map (30 + ·)).find? (fun i => v.toNat == 2 ^ i) |>.getD s.hst.window } }
  | .qdoneen => { s with hst := { s.hst with qdoneen := v } }
  | .pwrcap => if 500 ≤ v.toNat ∧ v.toNat ≤ 3200 then { s with hst := { s.hst with pwrcap := v } } else s

/-- R266: a page that is pinned here is refused as pinned, and one that no leaf maps is refused; otherwise the request waits for the
supervisor (log 30). -/
def execMigrq (s : State) : Host.Outcome State Fault Refusal :=
  let v := s.ev.value
  let job := BitVec.ofNat 16 (bits v 48 16)
  .next { s with hst := match s.leafAt job (bits v 16 32) with
    | none => { s.hst with migrs := 3, migrq := none }
    | some (_, e, lvl) =>
      if s.leafPinned e lvl (bits v 16 32) then { s.hst with migrs := 2, migrq := none }
      else { s.hst with migrs := 0, migrq := some (v, e) } }

/-- R416. -/
def execFeatack (s : State) : Host.Outcome State Fault Refusal :=
  .next (if s.hst.featSet then s
    else { s with k := { s.k with featack := s.ev.value &&& s.k.feat0 }, hst := { s.hst with featSet := true } })

/-- R412: W1C. -/
def execHintClear (s : State) : Host.Outcome State Fault Refusal :=
  .next { s with hst := { s.hst with hint := s.hst.hint &&& ~~~(s.ev.value.setWidth 9) } }

/-- R413: enabling a bit that is already set sends. -/
def execHintenWrite (s : State) : Host.Outcome State Fault Refusal :=
  let v : BitVec 9 := s.ev.value.setWidth 9
  let new := v &&& ~~~s.hst.hinten &&& s.hst.hint
  let h := (List.range 9).foldl (fun h b => if new.getLsbD b then h.message s.k.vector (hintVector b) else h) s.hst
  .next { s with hst := { h with hinten := v } }

/-- R413: what unmasked vectors have deferred is sent, once each. -/
def Hst.sendPending (h : Hst) (base : Nat) : Hst :=
  (List.range 8).foldl (fun h j =>
    if (h.msixPend[j]?).getD false && !h.masked j then { h with msixPend := h.msixPend.set j false, msixSent := h.msixSent ++ [base + j] } else h) h

/-- R413: the mask of a vector of the function is cleared or, when the act's flag is set, set; number 32 stands for the function mask. Vectors of other
nodes are theirs. -/
def execMsixUnmask (s : State) : Host.Outcome State Fault Refusal :=
  let v := s.ev.num
  .next (if v = 32 then { s with hst := { s.hst with msixFun := s.ev.flag }.sendPending s.k.vector }
    else if s.k.vector ≤ v ∧ v < s.k.vector + 8 then
      { s with hst := { s.hst with msixMask := s.hst.msixMask.set (v - s.k.vector) s.ev.flag }.sendPending s.k.vector }
    else s)

/-! ## Power (R423, R424) -/

/-- R423: P2 and P3 wait until no queue is running, saved or held; a node in P3 has none. One that leaves P3 comes up as after power-on. -/
def execPstateWrite (s : State) : Host.Outcome State Fault Refusal :=
  let w : BitVec 2 := s.ev.value.setWidth 2
  .next (if s.hst.pstate = 3 then
      (if w = 3 then s
      else { s.powerUp s.k.nodeId with hst := { (s.powerUp s.k.nodeId).hst with pstate := w } })
    else if 2 ≤ w.toNat then { s with hst := { s.hst with pwant := some w } }
    else { s with hst := { s.hst with pstate := w, pwant := none } })

def State.settled (s : State) : Bool :=
  s.sch.queues.all fun l => l.state != .running && l.state != .saved && l.state != .held

def execPowerStateChange (s : State) : Host.Outcome State Fault Refusal :=
  .next (match s.hst.pwant with
    | some w =>
      if !s.settled then s
      else if w = 3 then { s.dark with hst := { s.dark.hst with pstate := 3 } }
      else { s with hst := { s.hst with pstate := w, pwant := none } }
    | none => s)

/-- R393, R424: clock pulses that do not occur; every count is in clocks that do. -/
def execThrottle (s : State) : Host.Outcome State Fault Refusal := .next { s with hst := { s.hst with swallowed := s.hst.swallowed + s.ev.count } }

/-- R424: the node stops as a supervisor fault stops it (R401), its record of kind 5 without a cause (log 61). -/
def execThermalTrip (s : State) : Host.Outcome State Fault Refusal :=
  let s1 := s.errorRecord 5 s.k.jobtag 0 (s.sch.serving.getD 0) 15 0 s.seq.pc 0 0 false
  let s2 := s1.jobsHere.foldl (fun s j => s.announce j .service) s1
  .next ({ s2 with err := { s2.err with stopped := true } }.setHint 4)

/-- R423: power, three temperatures, swallowed clocks, failed PINs, optical energy. -/
def execTelemetryRefresh (s : State) : Host.Outcome State Fault Refusal :=
  let f (i : Nat) : DWord := Config.freeTelemetry (s.freeCount + i)
  .next { s with
    hst := { s.hst with telem := [f 0, f 1, f 2, f 3, BitVec.ofNat 64 s.hst.swallowed, BitVec.ofNat 64 s.hst.pinFails, f 4] }
    freeCount := s.freeCount + 5 }

/-! ## The boot flash (R419) -/

/-- The block and the command: slot and block number. -/
def execFlashBlockWrite (s : State) : Host.Outcome State Fault Refusal :=
  .next { s with hst := { s.hst with
    flashBuf := s.ev.bytes.take 4096, flashReq := some (s.ev.num % 2, s.ev.off % 256, s.ev.bytes.take 4096), flash := 1 } }

/-- It is done, or refused: the node must be in reset or in P3, and, as the act's flag would deny, so must the others. -/
def execFlashWriteDone (s : State) : Host.Outcome State Fault Refusal :=
  .next (match s.hst.flashReq with
    | none => s
    | some (slot, blk, bs) =>
      if s.hst.off && !s.ev.flag then
        { s with hst := { s.hst with
          slots := s.hst.slots.modify slot fun l => l.filter (fun x => x.1 != blk) ++ [(blk, bs)], flash := 2, flashReq := none } }
      else { s with hst := { s.hst with flash := 3, flashReq := none } })

def execFlashSlotSelect (s : State) : Host.Outcome State Fault Refusal :=
  .next (if s.ev.value.toNat ≤ 1 then { s with hst := { s.hst with slot := s.ev.value.toNat } } else s)

/-! ## Attestation (R417, R420, R421) -/

/-- R420, R421: one request at a time; the counter advances before anything is signed. -/
def State.attest (s : State) (nonce : BitVec 256) : State :=
  if s.hst.attest = 1 then s
  else if s.hst.counter < 2 ^ 20 then
    { s with hst := { s.hst with nonce := nonce, asked := nonce, attest := 1, index := some s.hst.counter, counter := s.hst.counter + 1 } }
  else { s with hst := { s.hst with nonce := nonce, asked := nonce, attest := 1, index := none } }

def execAttestationRequest (s : State) : Host.Outcome State Fault Refusal := .next (s.attest s.ev.nonce)

/-- R420: what is signed under index `q`: the nonce, the digest and the rollback version of the running firmware, the four NODEIDs, FEAT0 and q. The
widths and the byte order are the model's (log 128). -/
def State.attestation (s : State) (q : Nat) : List Byte :=
  let img := s.hst.image s.hst.running
  toBytes 32 s.hst.asked.toNat ++ sha256 img ++ toBytes 4 (Config.imageVersion img).toNat
    ++ ((List.range 4).flatMap fun n => toBytes 2 (s.k.nodeId.toNat / 4 * 4 + n)) ++ toBytes 8 s.k.feat0.toNat ++ toBytes 4 q

/-- R417: the 2,828 bytes of a signature of a message: its index, the one-time signature with its type, the type and the path. What the key makes of
the message is a free value (log 5). -/
def quoteBytes (q : Nat) (msg : List Byte) : List Byte :=
  (toBytes 4 q).reverse ++ (toBytes 4 3).reverse ++ (List.range 2176).map (Config.freeQuoteByte msg) ++ (toBytes 4 8).reverse
    ++ (List.range 640).map fun i => Config.freeQuoteByte msg (2176 + i)

def execAttestationComplete (s : State) : Host.Outcome State Fault Refusal :=
  .next (if s.hst.attest ≠ 1 then s
    else
      match s.hst.index with
      | some q => { s with hst := { s.hst with attest := 2, index := none, quote := quoteBytes q (s.attestation q) } }
      | none => { s with hst := { s.hst with attest := 3 } }.setHint 5)

/-! ## Writes to the control window (R410, R412) -/

/-- Bytes over others, from the one numbered `i` on. -/
def patch (old : List Byte) (i : Nat) (bs : List Byte) : List Byte :=
  (old ++ List.replicate (i - old.length) 0).take i ++ bs ++ old.drop (i + bs.length)

/-- R412: a doubleword written to a node's block; other offsets ignore writes. -/
def State.controlWrite (s : State) (o : Nat) (v : DWord) : Host.Outcome State Fault Refusal :=
  let t := { s with ev := { s.ev with value := v } }
  match o with
  | 0x000 =>
    if v.getLsbD 0 then execNodeReset s
    else .next { s with
      hst := ((s.hst.setNctl 1 (v.getLsbD 1)).setNctl 2 (v.getLsbD 2 && s.feature 3)).setNctl 3 (v.getLsbD 3)
      seq := { s.seq with halted := s.seq.halted && !v.getLsbD 4 } }
  | 0x008 => .next (s.hostWrite .trbase v)
  | 0x010 => .next (s.hostWrite .trlen v)
  | 0x018 => execTrrdWrite t
  | 0x028 => .next (s.hostWrite .elbase v)
  | 0x030 => .next (s.hostWrite .ellen v)
  | 0x038 => execElrdWrite t
  | 0x050 => .next (s.hostWrite .jtbase v)
  | 0x058 => .next (s.hostWrite .grace v)
  | 0x060 => .next (s.hostWrite .rtcfg v)
  | 0x068 => execFencerel { t with ev := { t.ev with job := v.setWidth 16 } }
  | 0x070 => execMigrq t
  | 0x080 => execHintClear t
  | 0x088 => execFeatack t
  | 0x0B8 => execPstateWrite t
  | 0x0C0 => .next (s.hostWrite .mwbase v)
  | 0x0C8 => execHintenWrite t
  | 0x0D0 => .next (s.hostWrite .qdoneen v)
  | _ => .next s

/-- R419, R420, R424: bytes written to the package block. -/
def State.packageWrite (s : State) (o : Nat) (bs : List Byte) : State :=
  let v : DWord := BitVec.ofNat 64 (leNat bs)
  if o + bs.length ≤ 0x20 then { s with hst := { s.hst with nonce := BitVec.ofNat 256 (leNat (patch (toBytes 32 s.hst.nonce.toNat) o bs)) } }
  else if o = 0x20 then (if v = 1 then s.attest s.hst.nonce else s)
  else if o = 0x40 then s.hostWrite .pwrcap v
  else if o = 0x2000 then
    (if v.getLsbD 63 then { s with hst := { s.hst with
      flashReq := some (bits v 0 1, bits v 8 8, (s.hst.flashBuf ++ List.replicate 4096 0).take 4096), flash := 1 } } else s)
  else if o = 0x2010 then (if v.toNat ≤ 1 then { s with hst := { s.hst with slot := v.toNat } } else s)
  else if 0x3000 ≤ o ∧ o + bs.length ≤ 0x4000 then { s with hst := { s.hst with flashBuf := patch s.hst.flashBuf (o - 0x3000) bs } }
  else s

/-- R412: one register by its name, or, when the act's flag is set, a write to the control window by its offset: a doubleword of this node's block, or
bytes of the package block. -/
def execHostRegisterWrite (s : State) : Host.Outcome State Fault Refusal :=
  let o := s.ev.off
  if !s.ev.flag then .next (s.hostWrite s.ev.reg s.ev.value)
  else if 0x40000 ≤ o ∧ o < 0x50000 then .next (s.packageWrite (o - 0x40000) s.ev.bytes)
  else if o / 0x10000 = s.k.nodeId.toNat % 4 ∧ o % 8 = 0 ∧ s.ev.bytes.length = 8 then
    match s.controlWrite (o % 0x10000) (BitVec.ofNat 64 (leNat s.ev.bytes)) with
    | .next u => .next { u with ev := s.ev }
    | stop => stop
  else .next s

end Sys2Proof.Machine
end

