-- ==== Sys2Proof/Machine/Dispatch.lean ====
section
/-! DEFINITION. One arm for each instruction: the meaning that it calls, by its full name. -/

namespace Sys2Proof.Machine

def exec (i : Instr) (s : State) : Host.Outcome State Fault Refusal :=
  match i with
  | .add d x y t => Sys2Proof.Machine.execAdd d x y t s
  | .sub d x y t => Sys2Proof.Machine.execSub d x y t s
  | .mul d x y t => Sys2Proof.Machine.execMul d x y t s
  | .mulh d x y t => Sys2Proof.Machine.execMulh d x y t s
  | .and d x y t => Sys2Proof.Machine.execAnd d x y t s
  | .or d x y t => Sys2Proof.Machine.execOr d x y t s
  | .xor d x y t => Sys2Proof.Machine.execXor d x y t s
  | .andn d x y t => Sys2Proof.Machine.execAndn d x y t s
  | .shl d x y t => Sys2Proof.Machine.execShl d x y t s
  | .shr d x y t => Sys2Proof.Machine.execShr d x y t s
  | .sar d x y t => Sys2Proof.Machine.execSar d x y t s
  | .rot d x y t => Sys2Proof.Machine.execRot d x y t s
  | .min d x y t => Sys2Proof.Machine.execMin d x y t s
  | .max d x y t => Sys2Proof.Machine.execMax d x y t s
  | .div d x y t => Sys2Proof.Machine.execDiv d x y t s
  | .rem d x y t => Sys2Proof.Machine.execRem d x y t s
  | .clz d x t => Sys2Proof.Machine.execClz d x t s
  | .popc d x t => Sys2Proof.Machine.execPopc d x t s
  | .brev d x t => Sys2Proof.Machine.execBrev d x t s
  | .addi d x imm => Sys2Proof.Machine.execAddi d x imm s
  | .andi d x imm => Sys2Proof.Machine.execAndi d x imm s
  | .ori d x imm => Sys2Proof.Machine.execOri d x imm s
  | .xori d x imm => Sys2Proof.Machine.execXori d x imm s
  | .shli d x n => Sys2Proof.Machine.execShli d x n s
  | .shri d x n => Sys2Proof.Machine.execShri d x n s
  | .sari d x n => Sys2Proof.Machine.execSari d x n s
  | .roti d x n => Sys2Proof.Machine.execRoti d x n s
  | .movi d imm => Sys2Proof.Machine.execMovi d imm s
  | .movk d pos imm => Sys2Proof.Machine.execMovk d pos imm s
  | .bext d x p w => Sys2Proof.Machine.execBext d x p w s
  | .bexs d x p w => Sys2Proof.Machine.execBexs d x p w s
  | .bins d x p w => Sys2Proof.Machine.execBins d x p w s
  | .lea d x y scale imm => Sys2Proof.Machine.execLea d x y scale imm s
  | .cmpEq c p x y t => Sys2Proof.Machine.execCmpEq c p x y t s
  | .cmpNe c p x y t => Sys2Proof.Machine.execCmpNe c p x y t s
  | .cmpLt c p x y t => Sys2Proof.Machine.execCmpLt c p x y t s
  | .cmpLe c p x y t => Sys2Proof.Machine.execCmpLe c p x y t s
  | .cmpGt c p x y t => Sys2Proof.Machine.execCmpGt c p x y t s
  | .cmpGe c p x y t => Sys2Proof.Machine.execCmpGe c p x y t s
  | .cmpUn c p x y => Sys2Proof.Machine.execCmpUn c p x y s
  | .cmpOrd c p x y => Sys2Proof.Machine.execCmpOrd c p x y s
  | .cmpiEq c p x imm t => Sys2Proof.Machine.execCmpiEq c p x imm t s
  | .cmpiNe c p x imm t => Sys2Proof.Machine.execCmpiNe c p x imm t s
  | .cmpiLt c p x imm t => Sys2Proof.Machine.execCmpiLt c p x imm t s
  | .cmpiLe c p x imm t => Sys2Proof.Machine.execCmpiLe c p x imm t s
  | .cmpiGt c p x imm t => Sys2Proof.Machine.execCmpiGt c p x imm t s
  | .cmpiGe c p x imm t => Sys2Proof.Machine.execCmpiGe c p x imm t s
  | .pand d x y => Sys2Proof.Machine.execPand d x y s
  | .por d x y => Sys2Proof.Machine.execPor d x y s
  | .pxor d x y => Sys2Proof.Machine.execPxor d x y s
  | .pandn d x y => Sys2Proof.Machine.execPandn d x y s
  | .pnot d x => Sys2Proof.Machine.execPnot d x s
  | .pmov d x => Sys2Proof.Machine.execPmov d x s
  | .pset d => Sys2Proof.Machine.execPset d s
  | .pclr d => Sys2Proof.Machine.execPclr d s
  | .sel d p neg x y => Sys2Proof.Machine.execSel d p neg x y s
  | .sfadd d x y => Sys2Proof.Machine.execSfadd d x y s
  | .sfsub d x y => Sys2Proof.Machine.execSfsub d x y s
  | .sfmul d x y => Sys2Proof.Machine.execSfmul d x y s
  | .sfma d x y => Sys2Proof.Machine.execSfma d x y s
  | .sfmin d x y => Sys2Proof.Machine.execSfmin d x y s
  | .sfmax d x y => Sys2Proof.Machine.execSfmax d x y s
  | .sfcvt d x src dst => Sys2Proof.Machine.execSfcvt d x src dst s
  | .sfabs d x => Sys2Proof.Machine.execSfabs d x s
  | .sfneg d x => Sys2Proof.Machine.execSfneg d x s
  | .getk d k => Sys2Proof.Machine.execGetk d k s
  | .setk k x => Sys2Proof.Machine.execSetk k x s
  | .lidx d n => Sys2Proof.Machine.execLidx d n s
  | .lcnt d n => Sys2Proof.Machine.execLcnt d n s
  | .bra p neg off => Sys2Proof.Machine.execBra p neg off s
  | .call off => Sys2Proof.Machine.execCall off s
  | .bri x => Sys2Proof.Machine.execBri x s
  | .calli d x => Sys2Proof.Machine.execCalli d x s
  | .ret x => Sys2Proof.Machine.execRet x s
  | .loop x off => Sys2Proof.Machine.execLoop x off s
  | .loopi n off => Sys2Proof.Machine.execLoopi n off s
  | .brmNone off => Sys2Proof.Machine.execBrmNone off s
  | .brmAll off => Sys2Proof.Machine.execBrmAll off s
  | .brmAny off => Sys2Proof.Machine.execBrmAny off s
  | .trap imm => Sys2Proof.Machine.execTrap imm s
  | .delay n => Sys2Proof.Machine.execDelay n s
  | .brk imm => Sys2Proof.Machine.execBrk imm s
  | .ld d x off p t => Sys2Proof.Machine.execLd d x off p t s
  | .st d x off p t => Sys2Proof.Machine.execSt d x off p t s
  | .amoAdd d x y p w64 => Sys2Proof.Machine.execAmoAdd d x y p w64 s
  | .amoSmin d x y p w64 => Sys2Proof.Machine.execAmoSmin d x y p w64 s
  | .amoSmax d x y p w64 => Sys2Proof.Machine.execAmoSmax d x y p w64 s
  | .amoZmin d x y p w64 => Sys2Proof.Machine.execAmoZmin d x y p w64 s
  | .amoZmax d x y p w64 => Sys2Proof.Machine.execAmoZmax d x y p w64 s
  | .amoAnd d x y p w64 => Sys2Proof.Machine.execAmoAnd d x y p w64 s
  | .amoOr d x y p w64 => Sys2Proof.Machine.execAmoOr d x y p w64 s
  | .amoXor d x y p w64 => Sys2Proof.Machine.execAmoXor d x y p w64 s
  | .amoSwap d x y p w64 => Sys2Proof.Machine.execAmoSwap d x y p w64 s
  | .amoCas d x y p w64 => Sys2Proof.Machine.execAmoCas d x y p w64 s
  | .amoFadd d x y p => Sys2Proof.Machine.execAmoFadd d x y p s
  | .amoFmin d x y p => Sys2Proof.Machine.execAmoFmin d x y p s
  | .amoFmax d x y p => Sys2Proof.Machine.execAmoFmax d x y p s
  | .redAdd x y p w64 => Sys2Proof.Machine.execRedAdd x y p w64 s
  | .redSmin x y p w64 => Sys2Proof.Machine.execRedSmin x y p w64 s
  | .redSmax x y p w64 => Sys2Proof.Machine.execRedSmax x y p w64 s
  | .redZmin x y p w64 => Sys2Proof.Machine.execRedZmin x y p w64 s
  | .redZmax x y p w64 => Sys2Proof.Machine.execRedZmax x y p w64 s
  | .redAnd x y p w64 => Sys2Proof.Machine.execRedAnd x y p w64 s
  | .redOr x y p w64 => Sys2Proof.Machine.execRedOr x y p w64 s
  | .redXor x y p w64 => Sys2Proof.Machine.execRedXor x y p w64 s
  | .redSwap x y p w64 => Sys2Proof.Machine.execRedSwap x y p w64 s
  | .redCas x y p w64 => Sys2Proof.Machine.execRedCas x y p w64 s
  | .redFadd x y p => Sys2Proof.Machine.execRedFadd x y p s
  | .redFmin x y p => Sys2Proof.Machine.execRedFmin x y p s
  | .redFmax x y p => Sys2Proof.Machine.execRedFmax x y p s
  | .ldx d x y p t => Sys2Proof.Machine.execLdx d x y p t s
  | .stx d x y p t => Sys2Proof.Machine.execStx d x y p t s
  | .amx op d x y p t => Sys2Proof.Machine.execAmx op d x y p t s
  | .redx op x y p t => Sys2Proof.Machine.execRedx op x y p t s
  | .fence mask scope => Sys2Proof.Machine.execFence mask scope s
  | .pref x y p => Sys2Proof.Machine.execPref x y p s
  | .pin x y p => Sys2Proof.Machine.execPin x y p s
  | .unpin x y p => Sys2Proof.Machine.execUnpin x y p s
  | .flush x y p => Sys2Proof.Machine.execFlush x y p s
  | .inval x y p => Sys2Proof.Machine.execInval x y p s
  | .vadd d x y t => Sys2Proof.Machine.execVadd d x y t s
  | .vsub d x y t => Sys2Proof.Machine.execVsub d x y t s
  | .vmul d x y t => Sys2Proof.Machine.execVmul d x y t s
  | .vfma d x y t => Sys2Proof.Machine.execVfma d x y t s
  | .vfms d x y t => Sys2Proof.Machine.execVfms d x y t s
  | .vmin d x y t => Sys2Proof.Machine.execVmin d x y t s
  | .vmax d x y t => Sys2Proof.Machine.execVmax d x y t s
  | .vabs d x t => Sys2Proof.Machine.execVabs d x t s
  | .vneg d x t => Sys2Proof.Machine.execVneg d x t s
  | .vcpys d x y t => Sys2Proof.Machine.execVcpys d x y t s
  | .vrcp d x t => Sys2Proof.Machine.execVrcp d x t s
  | .vrsq d x t => Sys2Proof.Machine.execVrsq d x t s
  | .vsqrt d x t => Sys2Proof.Machine.execVsqrt d x t s
  | .vexp2 d x t => Sys2Proof.Machine.execVexp2 d x t s
  | .vlog2 d x t => Sys2Proof.Machine.execVlog2 d x t s
  | .vflr d x t => Sys2Proof.Machine.execVflr d x t s
  | .vrnd d x t => Sys2Proof.Machine.execVrnd d x t s
  | .vdiv d x y t => Sys2Proof.Machine.execVdiv d x y t s
  | .viadd d x y sg => Sys2Proof.Machine.execViadd d x y sg s
  | .visub d x y sg => Sys2Proof.Machine.execVisub d x y sg s
  | .vimul d x y sg => Sys2Proof.Machine.execVimul d x y sg s
  | .vand d x y sg => Sys2Proof.Machine.execVand d x y sg s
  | .vor d x y sg => Sys2Proof.Machine.execVor d x y sg s
  | .vxor d x y sg => Sys2Proof.Machine.execVxor d x y sg s
  | .vshl d x y sg => Sys2Proof.Machine.execVshl d x y sg s
  | .vshr d x y sg => Sys2Proof.Machine.execVshr d x y sg s
  | .vimin d x y sg => Sys2Proof.Machine.execVimin d x y sg s
  | .vimax d x y sg => Sys2Proof.Machine.execVimax d x y sg s
  | .viabs d x => Sys2Proof.Machine.execViabs d x s
  | .vcmpeq x y t => Sys2Proof.Machine.execVcmpeq x y t s
  | .vcmpne x y t => Sys2Proof.Machine.execVcmpne x y t s
  | .vcmplt x y t => Sys2Proof.Machine.execVcmplt x y t s
  | .vcmple x y t => Sys2Proof.Machine.execVcmple x y t s
  | .vcmpgt x y t => Sys2Proof.Machine.execVcmpgt x y t s
  | .vcmpge x y t => Sys2Proof.Machine.execVcmpge x y t s
  | .vcmpun x y t => Sys2Proof.Machine.execVcmpun x y t s
  | .vsel d x y t => Sys2Proof.Machine.execVsel d x y t s
  | .vcvt d x src dst part mode => Sys2Proof.Machine.execVcvt d x src dst part mode s
  | .vxsum d x t => Sys2Proof.Machine.execVxsum d x t s
  | .vscan d x t => Sys2Proof.Machine.execVscan d x t s
  | .vrmax d x t => Sys2Proof.Machine.execVrmax d x t s
  | .vrmin d x t => Sys2Proof.Machine.execVrmin d x t s
  | .vargmax d x t => Sys2Proof.Machine.execVargmax d x t s
  | .visum d x sg => Sys2Proof.Machine.execVisum d x sg s
  | .vpopm d => Sys2Proof.Machine.execVpopm d s
  | .vbcst d x t => Sys2Proof.Machine.execVbcst d x t s
  | .vext d x y t => Sys2Proof.Machine.execVext d x y t s
  | .vins d x y t => Sys2Proof.Machine.execVins d x y t s
  | .vrot d x y t => Sys2Proof.Machine.execVrot d x y t s
  | .vperm d x y t => Sys2Proof.Machine.execVperm d x y t s
  | .viota d t => Sys2Proof.Machine.execViota d t s
  | .mpush x => Sys2Proof.Machine.execMpush x s
  | .mget d => Sys2Proof.Machine.execMget d s
  | .mset x => Sys2Proof.Machine.execMset x s
  | .vld v x off => Sys2Proof.Machine.execVld v x off s
  | .vldn v x off => Sys2Proof.Machine.execVldn v x off s
  | .vst v x off => Sys2Proof.Machine.execVst v x off s
  | .vstn v x off => Sys2Proof.Machine.execVstn v x off s
  | .vgath v x y res w => Sys2Proof.Machine.execVgath v x y res w s
  | .vscat v x y res w => Sys2Proof.Machine.execVscat v x y res w s
  | .vlds v x y w => Sys2Proof.Machine.execVlds v x y w s
  | .mmac c a b k res => Sys2Proof.Machine.execMmac c a b k res s
  | .mmul c a b k res => Sys2Proof.Machine.execMmul c a b k res s
  | .mzero c => Sys2Proof.Machine.execMzero c s
  | .mloadc c f x => Sys2Proof.Machine.execMloadc c f x s
  | .mdrain c x => Sys2Proof.Machine.execMdrain c x s
  | .mstat d clr c => Sys2Proof.Machine.execMstat d clr c s
  | .manch k a b => Sys2Proof.Machine.execManch k a b s
  | .txpi v b g => Sys2Proof.Machine.execTxpi v b g s
  | .txpo v b g => Sys2Proof.Machine.execTxpo v b g s
  | .txpc b => Sys2Proof.Machine.execTxpc b s
  | .setf x => Sys2Proof.Machine.execSetf x s
  | .getf d => Sys2Proof.Machine.execGetf d s
  | .exch dim x y sighi => Sys2Proof.Machine.execExch dim x y sighi s
  | .exsb dim x y sighi => Sys2Proof.Machine.execExsb dim x y sighi s
  | .trav set x y dir sighi => Sys2Proof.Machine.execTrav set x y dir sighi s
  | .exccFsum dim x y sighi => Sys2Proof.Machine.execExccFsum dim x y sighi s
  | .exccIsum dim x y sighi => Sys2Proof.Machine.execExccIsum dim x y sighi s
  | .exccLsum dim x y sighi => Sys2Proof.Machine.execExccLsum dim x y sighi s
  | .exccFmax dim x y sighi => Sys2Proof.Machine.execExccFmax dim x y sighi s
  | .exccFmin dim x y sighi => Sys2Proof.Machine.execExccFmin dim x y sighi s
  | .exccImax dim x y sighi => Sys2Proof.Machine.execExccImax dim x y sighi s
  | .exccImin dim x y sighi => Sys2Proof.Machine.execExccImin dim x y sighi s
  | .exccBand dim x y sighi => Sys2Proof.Machine.execExccBand dim x y sighi s
  | .exccBor dim x y sighi => Sys2Proof.Machine.execExccBor dim x y sighi s
  | .exmd set x y kind res sighi => Sys2Proof.Machine.execExmd set x y kind res sighi s
  | .mcast set x y p => Sys2Proof.Machine.execMcast set x y p s
  | .mcasto set x y p => Sys2Proof.Machine.execMcasto set x y p s
  | .probe x y => Sys2Proof.Machine.execProbe x y s
  | .lstat d x => Sys2Proof.Machine.execLstat d x s
  | .cpyl x res => Sys2Proof.Machine.execCpyl x res s
  | .cpy2 x res => Sys2Proof.Machine.execCpy2 x res s
  | .cpyw x res => Sys2Proof.Machine.execCpyw x res s
  | .cpyx x y res => Sys2Proof.Machine.execCpyx x y res s
  | .waita c x y => Sys2Proof.Machine.execWaita c x y s
  | .sigw set x y p => Sys2Proof.Machine.execSigw set x y p s
  | .bacq x => Sys2Proof.Machine.execBacq x s
  | .brel x => Sys2Proof.Machine.execBrel x s
  | .waite x => Sys2Proof.Machine.execWaite x s
  | .gbind x y => Sys2Proof.Machine.execGbind x y s
  | .gmask p x => Sys2Proof.Machine.execGmask p x s
  | .gstep d x => Sys2Proof.Machine.execGstep d x s
  | .gstat d => Sys2Proof.Machine.execGstat d s
  | .sample d x p => Sys2Proof.Machine.execSample d x p s
  | .rand d x => Sys2Proof.Machine.execRand d x s
  | .rands d x => Sys2Proof.Machine.execRands d x s
  | .rgn x y => Sys2Proof.Machine.execRgn x y s
  | .rstat d => Sys2Proof.Machine.execRstat d s
  | .bar x => Sys2Proof.Machine.execBar x s
  | .gsig x => Sys2Proof.Machine.execGsig x s
  | .gwait x => Sys2Proof.Machine.execGwait x s
  | .launch d x => Sys2Proof.Machine.execLaunch d x s
  | .exit x => Sys2Proof.Machine.execExit x s
  | .shoot n x y => Sys2Proof.Machine.execShoot n x y s
  | .selft d x => Sys2Proof.Machine.execSelft d x s
  | .tlbp d x y => Sys2Proof.Machine.execTlbp d x y s
  | .tlbi x y => Sys2Proof.Machine.execTlbi x y s
  | .qrst x => Sys2Proof.Machine.execQrst x s
  | .ctxs x y => Sys2Proof.Machine.execCtxs x y s
  | .nop => Sys2Proof.Machine.execNop s
  | .leave => Sys2Proof.Machine.execLeave s
  | .minv => Sys2Proof.Machine.execMinv s
  | .mpop => Sys2Proof.Machine.execMpop s
  | .mall => Sys2Proof.Machine.execMall s
  | .mwait => Sys2Proof.Machine.execMwait s
  | .cmt => Sys2Proof.Machine.execCmt s
  | .rend => Sys2Proof.Machine.execRend s
  | .rabt => Sys2Proof.Machine.execRabt s
  | .yield => Sys2Proof.Machine.execYield s
  | .rft => Sys2Proof.Machine.execRft s
  | .resultLanding => Sys2Proof.Machine.execResultLanding s
  | .resultArrival => Sys2Proof.Machine.execResultArrival s
  | .branchRedirectDue => Sys2Proof.Machine.execBranchRedirectDue s
  | .outsideRegionLimit => Sys2Proof.Machine.execOutsideRegionLimit s
  | .regionCommit => Sys2Proof.Machine.execRegionCommit s
  | .chunkCommit => Sys2Proof.Machine.execChunkCommit s
  | .bufferEntryDrain => Sys2Proof.Machine.execBufferEntryDrain s
  | .mmacExecute => Sys2Proof.Machine.execMmacExecute s
  | .manchExecute => Sys2Proof.Machine.execManchExecute s
  | .mzeroExecute => Sys2Proof.Machine.execMzeroExecute s
  | .mloadcExecute => Sys2Proof.Machine.execMloadcExecute s
  | .mdrainExecute => Sys2Proof.Machine.execMdrainExecute s
  | .scatterComplete => Sys2Proof.Machine.execScatterComplete s
  | .copyAdmission => Sys2Proof.Machine.execCopyAdmission s
  | .copyComplete => Sys2Proof.Machine.execCopyComplete s
  | .engineError => Sys2Proof.Machine.execEngineError s
  | .vaultAcquisitionGrant => Sys2Proof.Machine.execVaultAcquisitionGrant s
  | .vaultReleaseComplete => Sys2Proof.Machine.execVaultReleaseComplete s
  | .scrubComplete => Sys2Proof.Machine.execScrubComplete s
  | .exchangePostArrival => Sys2Proof.Machine.execExchangePostArrival s
  | .exchangeDataArrival => Sys2Proof.Machine.execExchangeDataArrival s
  | .exchangeAckArrival => Sys2Proof.Machine.execExchangeAckArrival s
  | .linkPacketArrival => Sys2Proof.Machine.execLinkPacketArrival s
  | .linkDown => Sys2Proof.Machine.execLinkDown s
  | .linkRepair => Sys2Proof.Machine.execLinkRepair s
  | .route => Sys2Proof.Machine.execRoute s
  | .flowPacketArrival => Sys2Proof.Machine.execFlowPacketArrival s
  | .sequenceAckSend => Sys2Proof.Machine.execSequenceAckSend s
  | .sequenceAckArrival => Sys2Proof.Machine.execSequenceAckArrival s
  | .retransmitTimeout => Sys2Proof.Machine.execRetransmitTimeout s
  | .flowRetire => Sys2Proof.Machine.execFlowRetire s
  | .remoteResponseArrival => Sys2Proof.Machine.execRemoteResponseArrival s
  | .suspectTimeout => Sys2Proof.Machine.execSuspectTimeout s
  | .pilotTokenArrival => Sys2Proof.Machine.execPilotTokenArrival s
  | .ejectionReportArrival => Sys2Proof.Machine.execEjectionReportArrival s
  | .tokenLossTimeout => Sys2Proof.Machine.execTokenLossTimeout s
  | .waitProbeArrival => Sys2Proof.Machine.execWaitProbeArrival s
  | .probeTimeout => Sys2Proof.Machine.execProbeTimeout s
  | .shootDownArrival => Sys2Proof.Machine.execShootDownArrival s
  | .shootDownAcknowledge => Sys2Proof.Machine.execShootDownAcknowledge s
  | .shootDownAckArrival => Sys2Proof.Machine.execShootDownAckArrival s
  | .gmaskExecute => Sys2Proof.Machine.execGmaskExecute s
  | .sampleExecute => Sys2Proof.Machine.execSampleExecute s
  | .slotWrite => Sys2Proof.Machine.execSlotWrite s
  | .queueStart => Sys2Proof.Machine.execQueueStart s
  | .graceExpiry => Sys2Proof.Machine.execGraceExpiry s
  | .presenceNoticeArrival => Sys2Proof.Machine.execPresenceNoticeArrival s
  | .serviceHoldTimeout => Sys2Proof.Machine.execServiceHoldTimeout s
  | .watchdogExpiry => Sys2Proof.Machine.execWatchdogExpiry s
  | .barrierArrival => Sys2Proof.Machine.execBarrierArrival s
  | .barrierStepArrival => Sys2Proof.Machine.execBarrierStepArrival s
  | .fenceNoticeArrival => Sys2Proof.Machine.execFenceNoticeArrival s
  | .releaseNoticeArrival => Sys2Proof.Machine.execReleaseNoticeArrival s
  | .quarantineNoticeArrival => Sys2Proof.Machine.execQuarantineNoticeArrival s
  | .uncorrectableError => Sys2Proof.Machine.execUncorrectableError s
  | .correctableError => Sys2Proof.Machine.execCorrectableError s
  | .selftComplete => Sys2Proof.Machine.execSelftComplete s
  | .hostInterrupt => Sys2Proof.Machine.execHostInterrupt s
  | .hostMemoryWrite => Sys2Proof.Machine.execHostMemoryWrite s
  | .hostMemoryRead => Sys2Proof.Machine.execHostMemoryRead s
  | .nodeReset => Sys2Proof.Machine.execNodeReset s
  | .traceOn => Sys2Proof.Machine.execTraceOn s
  | .dataMode => Sys2Proof.Machine.execDataMode s
  | .breakpointHaltsEnabled => Sys2Proof.Machine.execBreakpointHaltsEnabled s
  | .releaseHalt => Sys2Proof.Machine.execReleaseHalt s
  | .trrdWrite => Sys2Proof.Machine.execTrrdWrite s
  | .elrdWrite => Sys2Proof.Machine.execElrdWrite s
  | .fencerel => Sys2Proof.Machine.execFencerel s
  | .migrq => Sys2Proof.Machine.execMigrq s
  | .featack => Sys2Proof.Machine.execFeatack s
  | .hintClear => Sys2Proof.Machine.execHintClear s
  | .hintenWrite => Sys2Proof.Machine.execHintenWrite s
  | .msixUnmask => Sys2Proof.Machine.execMsixUnmask s
  | .pstateWrite => Sys2Proof.Machine.execPstateWrite s
  | .powerStateChange => Sys2Proof.Machine.execPowerStateChange s
  | .flashBlockWrite => Sys2Proof.Machine.execFlashBlockWrite s
  | .flashWriteDone => Sys2Proof.Machine.execFlashWriteDone s
  | .flashSlotSelect => Sys2Proof.Machine.execFlashSlotSelect s
  | .attestationRequest => Sys2Proof.Machine.execAttestationRequest s
  | .attestationComplete => Sys2Proof.Machine.execAttestationComplete s
  | .hostRegisterWrite => Sys2Proof.Machine.execHostRegisterWrite s
  | .powerOn => Sys2Proof.Machine.execPowerOn s
  | .throttle => Sys2Proof.Machine.execThrottle s
  | .thermalTrip => Sys2Proof.Machine.execThermalTrip s
  | .illegalEncoding => Sys2Proof.Machine.execIllegalEncoding s
  | .translationWalkComplete => Sys2Proof.Machine.execTranslationWalkComplete s
  | .telemetryRefresh => Sys2Proof.Machine.execTelemetryRefresh s
  | .powerLoss => Sys2Proof.Machine.execPowerLoss s

end Sys2Proof.Machine
end

