-- ==== Sys2Proof/Machine/Events.lean ====
section
/-! DEFINITION. Which acts a node hears, and which of its own steps come next: those that are due, and those that may happen now
(95_what_each_step_holds). -/

namespace Sys2Proof.Machine

/-! ## Acts of the surroundings -/

/-- The machine's own steps: nothing outside brings them about. -/
def isOwnStep : Instr → Bool
  | .resultLanding | .branchRedirectDue | .regionCommit | .illegalEncoding | .translationWalkComplete | .outsideRegionLimit => true
  | _ => false

/-- The package block of the control window (R410). -/
def inPackage (a : EventArgs) : Bool := decide (0x40000 ≤ a.off ∧ a.off < 0x50000)

/-- What reaches a node that is off: its package (R419 to R424). -/
def reachesOff (e : Event) : Bool :=
  match e.row with
  | .powerOn | .powerLoss | .nodeReset | .pstateWrite | .flashBlockWrite | .flashWriteDone | .flashSlotSelect | .attestationRequest
  | .attestationComplete | .msixUnmask | .throttle => true
  | .hostRegisterWrite => if e.args.flag then inPackage e.args else e.args.reg == .pwrcap || e.args.reg == .bar4
  | .hostMemoryRead => !e.args.flag && e.args.num == 2 && inPackage e.args
  | _ => false

/-- R412: acts on the control window of a node. -/
def onControl (e : Event) : Bool :=
  match e.row with
  | .traceOn | .dataMode | .breakpointHaltsEnabled | .releaseHalt | .trrdWrite | .elrdWrite | .hostRegisterWrite | .fencerel | .migrq | .featack
  | .hintClear | .hintenWrite => true
  | .hostMemoryRead => !e.args.flag && e.args.num == 2
  | _ => false

/-- R418, R422: bring-up has failed: the window still answers. -/
def Hst.failed (h : Hst) : Bool := h.brstat.toNat % 16 == 15

/-- R405: a quarantined node takes no packet; R422, R423: a node that is off takes only what its package does, and what its window does when its
bring-up has failed. -/
def State.hears (s : State) (e : Event) : Bool :=
  (encodeInstr e.row).isNone && !isOwnStep e.row && (!s.hst.off || reachesOff e || (s.hst.failed && onControl e)) && !(s.err.node && e.row == .linkPacketArrival)

/-- R403: an act that needs the unit under test waits (log 89): exchanges for the engines (5), accesses of other nodes and of the host, answers and
unmappings for the memory (6), and all that reads or writes the scratchpad for a vault (3). -/
def State.mustWait (s : State) (e : Event) : Bool :=
  match e.row with
  | .exchangeDataArrival | .exchangePostArrival | .exchangeAckArrival => s.testing 5 || s.testing 3
  | .remoteResponseArrival => s.testing 6 || s.testing 3
  | .barrierStepArrival | .waitProbeArrival => s.testing 3
  | .shootDownArrival => s.testing 6
  | .flowPacketArrival => s.testing 6 || (s.testing 3 && e.args.packet.space == 2)
  | .hostMemoryWrite | .hostMemoryRead => s.testing 6
  | _ => false

/-- What the host sends over its link. -/
def fromHost (e : Event) : Bool :=
  match e.row with
  | .hostMemoryWrite | .hostMemoryRead | .slotWrite | .nodeReset | .pstateWrite | .flashBlockWrite | .flashSlotSelect | .attestationRequest
  | .msixUnmask => true
  | _ => onControl e

/-- The first act that need not wait. R411: what the host sends stays in order, so it waits behind what of it must (`behind`). -/
def firstAct (waits : Event → Bool) : Bool → List Event → Option Event
  | _, [] => none
  | behind, e :: l => if waits e || (behind && fromHost e) then firstAct waits (behind || fromHost e) l else some e

/-- The act that the node takes next, of those that have reached it, and the acts that are left. -/
def State.nextAct (s : State) : Option (Event × List Event) :=
  (firstAct s.mustWait false s.inbox).map fun e => (e, s.inbox.erase e)

/-! ## Steps that are due -/

def ownStep (row : Instr) (a : EventArgs) : Event := ⟨row, a⟩

def State.scrubDue (s : State) (n : Nat) : Bool :=
  match s.vaults[n]? with | some v => v.state == .scrubbing && decide (v.scrubEnd ≤ s.clock) && !s.testingVault n | none => false

/-- R213: a releasing vault is free as soon as no engine work of its owner names it. -/
def State.releaseDue (s : State) (n : Nat) : Bool :=
  match s.vaults[n]? with | some v => v.state == .releasing && !s.vaultInUse v.owner n | none => false

/-- R423: a change of the power state that need wait no more; of a node that is off too. -/
def State.duePower (s : State) : Option Event := if s.hst.pwant.isSome && s.settled then some (ownStep .powerStateChange {}) else none

/-- What a clock or a grant makes due in this node's queues and vaults (R211 to R213, R347, R378, R379, R385, R387, R423). The urgent watchdog
comes before a pre-emption that is due with it (R135). -/
def State.dueHere (s : State) : Option Event :=
  (((List.range 32).find? s.releaseDue).map fun v => ownStep .vaultReleaseComplete { num := v })
    <|> (s.nextGrant.map fun _ => ownStep .vaultAcquisitionGrant {})
    <|> (s.selects.map fun q => ownStep .queueStart { num := q })
    <|> (((List.range 32).find? s.scrubDue).map fun v => ownStep .scrubComplete { num := v })
    <|> (if s.watchdogDue then some (ownStep .watchdogExpiry {}) else none)
    <|> (if s.graceOver then some (ownStep .graceExpiry {}) else none)
    <|> (((List.range 64).find? fun q => s.serviceDue q && (s.queue q).job.isSome).map fun q => ownStep .serviceHoldTimeout { num := q })
    <|> ((s.fab.probes.find? fun p => s.probeDue p && !s.testingVault (vaultOf p.addr)).map fun p => ownStep .probeTimeout { id := p.id })
    <|> s.duePower

/-- What a clock makes due in the fabric (R333, R338, R342). -/
def State.dueFabric (s : State) : Option Event :=
  ((s.fab.rx.find? fun r => match r.ackDue with | some t => decide (t ≤ s.clock) | none => false).map fun r =>
      ownStep .sequenceAckSend { job := r.job, peer := r.src, flow := r.flow })
    <|> ((s.fab.tx.find? fun t => t.timedOut s.clock).map fun t => ownStep .retransmitTimeout { job := t.job, peer := t.dst, flow := t.flow })
    <|> (((List.range s.fab.bufs.length).find? s.suspectDue).map fun i => ownStep .suspectTimeout { id := i })
    <|> ((List.range 14).findSome? fun d =>
      ((List.range ((s.fab.links[d]?).elim 0 fun l => l.ready.length)).find? (s.suspectWaits d)).map fun i =>
        ownStep .suspectTimeout { flag := true, dim := d, id := i })
    <|> (if s.tokenLost && s.lowestLive then some (ownStep .tokenLossTimeout {}) else none)

/-- A step that is due by its rule: it comes before anything else. -/
def State.forced (s : State) : Option Event :=
  if s.hst.off then s.duePower else s.dueHere <|> (if s.err.node then none else s.dueFabric)

/-! ## Steps that may happen now -/

/-- R403: a result that needs the memory (class 6) or a vault (3) under test waits (log 89). -/
def State.resultHeld (s : State) (w : WaitOp) : Bool :=
  match w with
  | .load _ (.here _) .. => s.testing 6
  | .window a _ => s.testingVault (vaultOf a)
  | .gather .. | .strided .. | .scatter .. => s.testing 3
  | _ => false

/-- R37: results that may arrive: those that wait for nothing but their own unit. -/
def State.resultsDue (s : State) : List Event :=
  s.pipe.waits.filterMap fun w =>
    if !w.outstanding || s.resultHeld w.op then none
    else
      match w.op with
      | .scatter _ _ _ _ _ res =>
        if s.storesBefore w.seq && !(res && decide (s.progress < 2048)) then some (ownStep .scatterComplete { id := w.id }) else none
      | .gather _ _ _ _ res => if res && decide (s.progress < 2048) then none else some (ownStep .resultArrival { id := w.id })
      | .load va l _ t pol tag =>
        let sends : Bool := match l with
          | .here _ => true
          | _ => !s.storePending l va (tyBytes t) && s.fab.hasRoom s.k.jobtag (s.homeNode l) (polClass pol)
        if tag.isSome || s.loadWaits w (polClass pol) (s.homeNode l) || !sends then none else some (ownStep .resultArrival { id := w.id })
      | .window .. | .direct _ | .strided .. | .mcastRead | .tlbp _ => some (ownStep .resultArrival { id := w.id })
      | .gmask | .sample | .selft _ => none

/-- R192, R193: the operation at the head of the matrix queue. -/
def State.mayCompute (s : State) : List Event :=
  match s.mat.queue with
  | [] => []
  | e :: _ =>
    match e.op with
    | .mac _ _ _ _ _ _ res => [ownStep (if res then .chunkCommit else .mmacExecute) {}]
    | .zero _ => [ownStep .mzeroExecute {}]
    | .load .. => [ownStep .mloadcExecute {}]
    | .drain .. => if s.drainWaits e then [] else [ownStep .mdrainExecute {}]
    | .anchor .. => [ownStep .manchExecute {}]
    | .wait => []

/-- R132: the next chunk of a resumable operation that is no matrix operation. -/
def State.mayChunk (s : State) : List Event := if s.chunkReady then [ownStep .chunkCommit {}] else []

/-- R403: a requester of the unit under test waits (log 89): the memory (class 6), a vault (3). -/
def State.drainHeld (s : State) (e : BufEntry) : Bool :=
  s.testing 6 || (match e.op with | .sigw _ a _ => s.testingVault (vaultOf a) | _ => false)

/-- R403: a copy command waits for the engines, the memory or a vault of its own under test. -/
def State.copyHeld (s : State) (c : CopyCmd) : Bool := s.testing 5 || s.testing 6 || (List.range 32).any fun v => s.testingVault v && c.names v

def State.mayDrain (s : State) : List Event :=
  s.buf.filterMap fun e => if s.entryTurn e && !s.drainHeld e then some (ownStep .bufferEntryDrain { id := e.id }) else none

def State.copyEnds (s : State) (c : CopyCmd) : Bool :=
  if c.sent then c.out.isEmpty
  else s.copyReady c && (if c.res then s.chunksDone c && (c.settled || !c.data.isEmpty)
    else s.eng.copies.contains c && (c.settled || !c.data.isEmpty || decide (c.prog < (piecesFor c (s.copyUnit c)).length)))

/-- An admission can go further than that the command waits for a vault. -/
def State.admitsNow (s : State) (c : CopyCmd) : Bool := !c.admitted && (match s.copyAdmits c with | .waits => !c.waitsVault | _ => true)

def State.mayCopy (s : State) : List Event :=
  let all := (s.heldCopies ++ s.eng.copies).filter fun c => !s.copyHeld c
  ((all.filter s.admitsNow).map fun c => ownStep .copyAdmission { id := c.id })
    ++ ((all.filter s.copyEnds).map fun c => ownStep .copyComplete { id := c.id })

/-- R363: the command at the head of the grammar engine's queue. -/
def State.mayStep (s : State) : List Event :=
  match s.eng.gram with
  | [] => []
  | g :: _ =>
    if s.testing 5 || s.testing 6 || (List.range 32).any (fun v => s.testingVault v && g.names v) then []
    else match g.op with
    | .mask .. =>
      if s.writesBefore g.seq && (s.k.priv || s.vaultOwned (vaultOf g.bind.context)) then [ownStep .gmaskExecute { id := g.id }] else []
    | .sample .. => [ownStep .sampleExecute { id := g.id }]

/-- R263, R391, R403: acknowledgements, arrivals at a barrier, and tests. -/
def State.mayEnd (s : State) : List Event :=
  ((s.fab.shoots.filter s.shootReady).map fun h => ownStep .shootDownAcknowledge { id := h.id })
    ++ ((s.sch.barriers.filter fun b => b.sent == 0 && !b.finished && !s.arrivalWaits b && !s.testing 3).map fun b =>
      ownStep .barrierArrival { num := b.slot, job := b.job })
    ++ (if s.err.selft.isSome then [ownStep .selftComplete {}, ownStep .selftComplete { flag := true }] else [])

/-- R419, R420: the package's work. -/
def State.mayPackage (s : State) : List Event :=
  (if s.hst.flashReq.isSome then [ownStep .flashWriteDone {}, ownStep .flashWriteDone { flag := true }] else [])
    ++ (if s.hst.attest == 1 then [ownStep .attestationComplete {}] else [])

/-- R325: what the links send next. -/
def State.mayTransmit (s : State) : List Event :=
  ((List.range 14).filter fun d => (s.leaving d).isSome).map fun d => ownStep .route { flag := true, dim := d }

/-- R324, R325, R329, R333: packets at the heads of router buffers, what the links send next, and acknowledgements that may go at any time before
they are due. -/
def State.mayRoute (s : State) : List Event :=
  (((List.range s.fab.bufs.length).filter s.canRoute).map fun i => ownStep .route { id := i })
    ++ s.mayTransmit
    ++ ((s.fab.rx.filter fun r => r.ackDue.isSome).map fun r => ownStep .sequenceAckSend { job := r.job, peer := r.src, flow := r.flow })

/-- Steps that may happen now; which of them does, and when, is open (log 4). A quarantined node routes nothing more; what waits at its ports, its
notices among it, still leaves (R405). -/
def State.enabled (s : State) : List Event :=
  s.mayPackage ++ if s.hst.off then []
  else
    s.resultsDue ++ s.mayCompute ++ s.mayChunk ++ s.mayDrain ++ s.mayCopy ++ s.mayStep ++ s.mayEnd ++ (if s.err.node then s.mayTransmit else s.mayRoute)

end Sys2Proof.Machine
end

