-- ==== Sys2Proof/Machine/Run.lean ====
section
/-! DEFINITION. One clock of the sequencer: what may issue, the slots in order, and the end of the bundle (01_bundles R12, R13, R35;
03_sequencer R90, R107 to R111; 04_regions R113, R116). -/

namespace Sys2Proof.Machine

/-- One slot: its instruction, or what is left of one that its guard turns off (R19, R125). -/
def State.runSlot (s : State) (sl : Slot) : Host.Outcome State Fault Refusal :=
  if s.guardHolds sl then exec sl.instr s else s.settle (s.offIssue sl.instr)

/-- R135: of the slots after one that has raised a cause, the first that raises a program-fatal one; it takes precedence. -/
def laterFatal : List (Nat × Slot) → State → Option State
  | [], _ => none
  | (n, sl) :: l, s =>
    let s := { s with seq := { s.seq with bun := { s.seq.bun with slot := n } } }
    match s.runSlot sl with
    | .next s1 =>
      match s1.seq.bun.trapped with
      | some t => if t.cause.class_ = 2 then some s1 else laterFatal l s
      | none => if s1.seq.bun.stalled.isSome then laterFatal l s else laterFatal l s1
    | _ => none

/-- The slots of a bundle, in order: a slot that stalls or raises a cause ends it, but for a program-fatal cause of a later one (R135). -/
def runSlots : List (Nat × Slot) → State → Host.Outcome State Fault Refusal
  | [], s => .next s
  | (n, sl) :: l, s =>
    let s := { s with seq := { s.seq with bun := { s.seq.bun with slot := n } } }
    match s.runSlot sl with
    | .next s1 =>
      match s1.seq.bun.trapped with
      | some t => .next (if t.cause.class_ = 2 then s1 else (laterFatal l s).getD s1)
      | none => if s1.seq.bun.stalled.isSome then .next s1 else runSlots l s1
    | o => o

def State.withSlot (s : State) (n : Nat) : State := { s with seq := { s.seq with bun := { Bundle.start with slot := n } } }

/-- R240: the fetch path has used the words that it read on a peer. -/
def State.fetched (s : State) : State := { s with fab := s.fab.clearPeeks 0 }

/-- R134: the bytes of a bundle enter the CRC of the open region. -/
def State.withCrc (s : State) (bytes : List Byte) : State :=
  { s with rgn := s.rgn.map fun r => { r with crc := crcRun polyIEEE r.crc bytes } }

/-- The region is still open: the bundle will issue again, and enters the CRC then. -/
def State.crcBack (s old : State) : State :=
  match old.rgn with
  | some o => { s with rgn := s.rgn.map fun r => { r with crc := o.crc } }
  | none => s

/-- R90: the words of a bundle whose region is closing, or has, stay: it is not fetched again. -/
def State.keepWords (s : State) (ws : List (BitVec 32)) : State := if s.closing then { s with seq := { s.seq with words := ws } } else s

/-- R13, R35: the bundle's slots have run on `s1`. A bundle that raised a cause or stalled leaves the state that it began with,
but for what a begun instruction keeps. -/
def State.finish (s : State) (ws : List (BitVec 32)) (bytes : List Byte) (slots : List (Nat × Slot)) (s1 : State) : Host.Outcome State Fault Refusal :=
  let n := s1.seq.bun.slot
  match s1.seq.bun.trapped with
  | some t => .next ((((s.fetched.withSlot n).endStall).takeTrap t).tick false)
  | none =>
    match s1.seq.bun.stalled with
    | some c =>
      if s1.seq.bun.kept then
        match slots.find? fun x => x.1 == n with
        | some (_, sl) =>
          match ((s.withCrc bytes).withSlot n).runSlot sl with
          | .next s2 => let s3 := (s2.crcBack s).keepWords ws; .next (s3.stallClock c (s3.frozen c))
          | o => o
        | none => .next (s.stallClock c (s.frozen c))
      else .next (s.stallClock c (s.frozen c))
    | none =>
      let s2 := s1.fetched.endBundle s.seq.pc
      .next ({ s2 with seq := { s2.seq with stall := none } }.tick false)

/-- The bundle at the program counter, its four words fetched. -/
def State.bundle (s : State) (ws : List (BitVec 32)) : Host.Outcome State Fault Refusal :=
  match s.gate ws with
  | .trap n t => .next ((((s.fetched.withSlot n).endStall).takeTrap t).tick false)
  | .stall c => .next (s.stallClock c (s.frozen c))
  | .go slots =>
    let bytes := ws.flatMap fun w => toBytes 4 w.toNat
    let s0 := s.endStall.noteReads slots
    let s1 : State := { s0.withCrc bytes with
      seq := { s0.seq with bun := { Bundle.start with fin := { BundleEnd.none with record := branchRecorded ws slots } } } }
    match runSlots slots s1 with
    | .next s2 => s.finish ws bytes slots s2
    | o => o

/-- R116: the entry bundle of a re-entered region acts as an opening only. -/
def State.reopen (s : State) (r : Region) : State :=
  let s1 := { s.endStall with rgn := some { r with again := false }, mat := { s.mat with aanch := 0 } }.tagOpened
  let s2 := s1.endBundle s.seq.pc
  let s3 : State := { s2 with rgn := s2.rgn.map (fun r => { r with counted := 0 }), seq := { s2.seq with stall := none } }
  s3.tick false

/-- R90, R113: what has stopped a fetch. -/
def State.fetchStops (s : State) (i : Issue) : Host.Outcome State Fault Refusal :=
  match i with
  | .trap t => .next ((s.fetched.endStall.takeTrap { t with slotless := true }).tick false)
  | .halt f => .fault f
  | .stall c => .next (s.stallClock c (s.frozen c))
  | .pause es c => .next ((applyAll s es).stallClock c (s.frozen c))
  | .done es => .next ((applyAll s es).tick false)

/-- R90, R113: fetch and issue. A region that opens again waits for the vaults that it names (R115, R405, R407). -/
def State.issueNext (s : State) : Host.Outcome State Fault Refusal :=
  if !s.seq.words.isEmpty then s.bundle s.seq.words
  else
  match s.fetchAt s.seq.pc with
  | .error i => s.fetchStops i
  | .ok x =>
    let s := { s with tlb := x.tlb, l2 := s.touch x.loc x.attr false }
    match s.wordsOf x s.seq.pc with
    | .error i => s.fetchStops i
    | .ok ws =>
      match s.rgn with
      | some r =>
        if r.again && s.pipe.waits.any Wait.outstanding then .next (s.stallClock 0x09 (s.frozen 0x09))
        else if (r.again || r.counted == 0) && !s.ownsAll (r.rmask ||| r.wmask) then .next (s.stallClock 0x0F (s.frozen 0x0F))
        else if r.again then .next (s.fetched.reopen r)
        else s.bundle ws
      | none =>
        if !s.k.priv && s.seq.perform.isNone && decide (4095 ≤ s.seq.outside) then exec .outsideRegionLimit s.fetched.endStall else s.bundle ws

/-- R407: a program outside region mode is held at once when its job is fenced. R135: a watchdog expiry ends a program that stalls there. -/
def State.heldNow (s : State) : Option Notice :=
  if s.k.priv || s.rgn.isSome || s.seq.perform.isSome || s.sch.running.isNone then none
  else s.sch.notices.find? fun n =>
    (n.cause == .jobFenced && n.queue == s.sch.running && s.seq.redirects.isEmpty) || (n.cause == .watchdogExpiry && s.seq.stall.isSome)

/-- R129, R379: a region has committed and what is to open the next one has not completed; an event is taken here. The next region is held
as it would open: at its opening bundle, or at the bundle after the boundary instruction (R106, R116), which goes on when the region is
entered again (log 80). -/
def State.heldWaiting (s : State) (o : Opening) : State :=
  let (loops, next) := if o.byBoundary then nextAddr s.seq.pc .none s.seq.loops else (s.seq.loops, s.seq.pc)
  let epc := next &&& ~~~0xF#48
  let s1 := ({ s with seq := { s.seq with loops := loops } }.openRegion o epc).unopened s
  let w : Waiting := ⟨s.seq.pc, s.seq.words, s.seq.loops⟩
  let s2 : State := { s1 with rgn := s1.rgn.map fun r => { r with waiting := if o.byBoundary then some w else none, tagged := o.byBoundary } }
  s2.boundary epc false

/-- One clock; while the node comes up, it takes the next step of that first (R422). -/
def State.clockStep (s0 : State) : Host.Outcome State Fault Refusal :=
  let s := s0.flushTrace s0.hst.traceQ.length
  let s := { s with seq := { s.seq with bun := .start } }.bringUp
  if s.hst.off || s.err.stopped then .next (s.tick true)
  else if !s.hst.traceQ.isEmpty || (s.tracing && s.hst.traceFull) then .next ((s.setHint 2).stallClock 0x0E true)
  else if s.seq.halted then .next (s.stallClock 0x0D true)
  else if s.testing 0 || s.testing 6 then .next (s.stallClock 0x08 true)
  else if s.engineFence.isSome then .next (match s.engineFence with | some e => s.fenceEngine e | none => s)
  else if s.disagreement.isSome then .next (match s.disagreement with | some r => s.faultOf r.slot r.seq mismatchTrap | none => s)
  else if !s.k.priv && s.sch.running.isNone then .next (({ s with sch := { s.sch with preempt := none } }.boundary s.seq.pc false).tick true)
  else if s.seq.dueTrap.isSome && s.rgn.isNone && s.seq.perform.isNone then .next (s.endStall.boundary s.seq.pc false)
  else if s.seq.perform.isSome && s.boundaryDue false then
    .next (match s.seq.perform with | some o => s.endStall.heldWaiting o | none => s)
  else if s.mat.queue.any (fun e => e.op == .wait) then .next (s.stallClock 0x05 (s.frozen 0x05))
  else if 0 < s.seq.delay then
    if !s.k.priv && !s.inRegion && decide (4095 ≤ s.seq.outside) then exec .outsideRegionLimit s.endStall
    else .next (s.endStall.emptyBundle.tick false)
  else
    match s.heldNow with
    | some n =>
      let s1 := s.endStall
      .next ({ s1 with sch := { s1.sch with notices := s1.sch.notices.erase n } }.enterAt n.cause n.eva n.einfo s.seq.pc)
    | none => s.issueNext

/-- What comes next: an act of the surroundings, a step that is due, or one of the steps that may happen now and the sequencer's
clock (log 3, log 4). -/
def State.advanceOne (s : State) : Host.Outcome State Fault Refusal :=
  match s.nextAct with
  | some (e, rest) =>
    let s := { s with inbox := rest, ev := e.args }
    if s.hears e then exec e.row s else .next s
  | none =>
    match s.forced with
    | some e => exec e.row { s with ev := e.args }
    | none =>
      match s.enabled with
      | [] => s.clockStep
      | es =>
        let s1 := { s with pickCount := s.pickCount + 1 }
        match es[Config.pick s.pickCount % (es.length + 1)]? with
        | some e => exec e.row { s1 with ev := e.args }
        | none => s1.clockStep

/-- The bundle that holds one instruction word alone: in slot s0, or under a header where its encoding needs one (R27). -/
def bundleOf (w : Nat) : List Nat :=
  match tableExt w with
  | .imm b => [0x3F * 2 ^ 26 + b * 2 ^ 18 + 1, w, 0, 0]
  | _ => [w, 0, 0, 0]

/-- A bundle stored where the sequencer fetches next. -/
def State.placeWord (s : State) (w : Nat) : State :=
  match s.fetchAt s.seq.pc with
  | .ok x =>
    match x.loc with
    | .here pa => { s with hbm := Memory.write s.hbm pa ((bundleOf w).flatMap (toBytes 4)) }
    | _ => s
  | .error _ => s

end Sys2Proof.Machine
end

