-- ==== Sys2Proof/Machine/Step.lean ====
section
/-! DEFINITION. One step of the machine, and the placing of one instruction word where the next step fetches it. -/

namespace Sys2Proof.Machine

/-- One step: an act of the surroundings, a step of one of the units, or one clock of the sequencer. -/
def step (s : State) : Host.Outcome State Fault Refusal := s.advanceOne

/-- R12: the word, alone in its bundle, at the program counter. -/
def State.withFetchWord (s : State) (_nbits w : Nat) : State := s.placeWord w

end Sys2Proof.Machine
end

