-- ==== Sys2Proof/Safety.lean ====
section
/-! DEFINITION. The terms in which claims speak of the machine: the state with one more result in flight or one more entry in its
buffer, the words of the spec's own formulas, what a step leaves alone, and the invariant that every step keeps. -/

namespace Sys2Proof.Machine

/-! ## What an issue adds to the state -/

/-- `s` with one more fixed-latency result in flight: it lands at the end of the bundle `left` bundles from now (R36). -/
def State.queued (s : State) (left : Nat) (fl : Flags) (w : Landing) : State :=
  { s with pipe := { s.pipe with inflight := s.pipe.inflight ++ [⟨left, s.seq.bun.slot, s.seq.count, s.k.priv, fl, w⟩] } }

/-- `s` with one more variable-latency result to come (R37). -/
def State.awaiting (s : State) (w : Wait) : State :=
  { s with
    pipe := { s.pipe with waits := s.pipe.waits ++ [{ w with id := s.nextId, slot := s.seq.bun.slot, seq := s.seq.count, sup := s.k.priv, inRgn := s.inRegion }] }
    nextId := s.nextId + 1 }

/-- `s` with units joined to the read-first set, or to the write set, of the open region (R119). -/
def State.readsOf (s : State) (us : List TUnit) : State := { s with rgn := s.rgn.map fun r => r.read us }
def State.writesOf (s : State) (us : List TUnit) : State := { s with rgn := s.rgn.map fun r => r.write us }

/-- `s` with one more taken branch: its redirect and its part of the branch record (R88, R110). -/
def State.redirected (s : State) (left : Nat) (target : VAddr) (w1 : DWord) : State :=
  { s with seq := { s.seq with
      redirects := s.seq.redirects ++ [⟨left, s.seq.count, s.seq.bun.slot, target⟩]
      bun := { s.seq.bun with fin := { s.seq.bun.fin with taken := s.seq.bun.fin.taken + 2 ^ s.seq.bun.slot, branchWord := if w1 = 0 then s.seq.bun.fin.branchWord else w1 } } } }

/-- The cause that an instruction raises at its slot. -/
def State.raises (s : State) (c : Cause) : Host.Outcome State Fault Refusal := .next (s.takeTrap { cause := c })

/-- An answer that is neither a trap nor a stall of the bundle. -/
def State.runs (t : State) : Prop := t.seq.bun.trapped = none ∧ t.seq.bun.stalled = none

/-- R113: the supervisor, an open region, or a boundary instruction that is performing. -/
def State.regional (s : State) : Prop := s.k.priv = true ∨ s.rgn.isSome = true ∨ s.seq.perform.isSome = true

/-- R119: no unit of `us` has been read first in the open region. -/
def State.noClash (s : State) (us : List TUnit) : Prop := ∀ r, s.rgn = some r → r.clash us = false

/-- R247, R251: the slot has asked no other node, none of its lines has been done, and there is room for its request. -/
def State.unasked (s : State) : Prop :=
  s.requests < 8192 ∧ s.fab.answerTo s.k.jobtag s.asker = none ∧ s.fab.asking s.k.jobtag s.asker = false ∧ s.directOf = 0

/-- STATUS bits that are set at the end of the bundle (R68). -/
def State.flagged (s : State) (f : Flags) : State := if f = 0 then s else s.queued 0 f (.sticky 0)

/-- `s` with the resumable operation of its region issued (R132). -/
def State.resuming (s : State) : State := { s with rgn := s.rgn.map fun r => { r with resIssued := true } }

/-- R122: the region's budget and the buffer have room for an entry of this cost. -/
def State.bufferHas (s : State) (cost : Nat) : Prop :=
  (∀ r, s.rgn = some r → r.used + cost ≤ r.budget) ∧ s.bufUsed + cost ≤ 1024

/-- `s` with one more entry in the region store buffer (R122). It carries the subcube of its job as it is now (R270); the synchronisation bits of
the supervisor's are ignored (R286). -/
def State.buffered (s : State) (cost : Nat) (pol : BitVec 32) (out : List Nat) (op : BufOp) : State :=
  { s with
    buf := s.buf ++ [⟨s.nextId, s.seq.bun.slot, s.seq.count, cost, s.k.jobtag, s.k.cube, if s.k.priv then pol &&& 0xFFFFFF3F#32 else pol,
      if s.inRegion then .opened else .draining, if s.inRegion then out else [], 0, op, s.k.priv⟩]
    nextId := s.nextId + 1
    rgn := s.rgn.map fun r => { r with used := r.used + cost } }

/-- R124: a boundary instruction may commit the region that it closes. -/
def State.boundaryReady (s : State) : Prop := s.seq.perform = none → ∀ r, s.rgn = some r → s.commitReady r = .ok ()

/-- R113, R124: the state on which a boundary instruction performs: its region has committed. -/
def State.performing (s : State) : State :=
  match s.seq.perform, s.rgn with
  | none, some r => (s.signed r).commitRegion
  | _, _ => s

/-- R113, R124, R125: the state after a boundary instruction has performed: with the region that follows, if it closed one. -/
def State.bounded (s : State) (es : List Effect) : State :=
  match s.seq.perform, s.rgn with
  | some o, _ => applyAll s (es ++ [.perform none, .opens o])
  | none, some r => applyAll (s.signed r).commitRegion (es ++ [.opens (r.next true)])
  | none, none => applyAll s es

/-! ## What the units hold after an issue -/

/-- One random draw (R70, R151). -/
def State.drawing (s : State) : State := (s.readsOf [.rngkey]).setFin { s.fin with draws := s.fin.draws + 1 }

/-- `s` stalled: the bundle issues again (R37). -/
def State.stalls (s : State) (cause : Nat) : State := { s with seq := { s.seq with bun := { s.seq.bun with stalled := some cause } } }

/-- R191, R192: `s` with one more operation in the matrix queue. -/
def State.enqueued (s : State) (op : MatOp) : State :=
  { s with
    mat := { s.mat with queue := s.mat.queue ++ [⟨s.nextId, s.seq.count, s.seq.bun.slot, s.regs.fmt, op⟩] }
    nextId := s.nextId + 1 }

/-- R102: the tile that a selector names. -/
def State.namesTile (s : State) (c : TileSel) (t : Nat) : Prop :=
  match c with
  | .tile n => t = n
  | .ring => bits s.k.mring 6 3 ≤ 5 ∧
      t = (bits s.k.mring 0 3 + ((s.seq.loops.reverse[bits s.k.mring 6 3]?).elim 0 fun l => l.index.toNat) % (bits s.k.mring 3 3 + 1)) % 8

/-- R120, R207: an extent of the scratchpad that an instruction may name. -/
def State.mayName (s : State) (a n : Nat) (u : VUse) : Prop :=
  spExtent a n = true ∧ (s.k.priv = true ∨ s.discipline (vaultOf a) u = true)

/-- R403: an extent that it may use now: the supervisor waits for a vault under test. -/
def State.mayUse (s : State) (a n : Nat) (u : VUse) : Prop :=
  s.mayName a n u ∧ (s.k.priv = true → s.testingVault (vaultOf a) = false)

/-- `s` with banks of the scratchpad that an access of this bundle uses for some clocks (R209, R210). -/
def State.banking (s : State) (l : List Nat) (n : Nat) : State :=
  { s with pipe := { s.pipe with banks := (s.pipe.banks.filter fun b => decide (s.clock < b.upto)) ++ [⟨s.seq.count, l, s.clock + n⟩] } }

/-- R201: the matrix queue once its head is done: an MWAIT leaves as soon as it comes to the head. -/
def State.restOfQueue (s : State) : List MatEntry := s.mat.queue.tail.dropWhile fun e => e.op == .wait

/-- R189: the anchor that a queued operation starts a version with. -/
def State.startAnchor (s : State) (e : MatEntry) : BitVec 10 := if fmtAuto e.fmt then s.mat.aanch else fmtAnchor e.fmt

/-- STATUS bits and sticky bits of the array, set at once (R68, R201). -/
def State.marked (s : State) (m : Marks) : State := (s.setStatus m.1).setSticky m.2

/-! ## Exchanges -/

/-- R214: a vault that the job owns, or that an acquisition by it waits for. -/
def State.ownsOrComes (s : State) (a : Nat) : Prop :=
  s.k.priv = true ∨ s.vaultOwned (vaultOf a) = true ∨ s.vaultComing s.k.jobtag (vaultOf a) = true

/-- R302 to R304, R319: what an end of an exchange needs of its vault. -/
def State.mayExchange (s : State) (a n : Nat) (u : VUse) : Prop := s.mayName a n u ∧ s.ownsOrComes a

/-- R305: no exchange of the job is recorded on any port, and no post of a partner waits. -/
def State.portsIdle (s : State) : Prop :=
  s.xch.ports.length = 14 ∧ ∀ d, d < 14 → (s.xch.at d s.k.jobtag).recs = [] ∧ (s.xch.at d s.k.jobtag).posts = []

/-- R305, R306: every port of some legs takes its number and sends its post. -/
def State.posting (s : State) : List Leg → State
  | [] => s
  | l :: ls =>
    let j := s.xch.at l.port s.k.jobtag
    let r := { l.rcd with xseq := j.xseq }
    State.posting ((s.putPort l.port { j with recs := j.recs ++ [r], xseq := j.xseq + 1 }).hop l.port 1 (s.postOf s.k.jobtag r)) ls

/-- R336, R344: the checks of a multicast: one to every receiver for every page that it meets. -/
def State.checksSent (s : State) (peers : List (BitVec 14)) (addrs : List Nat) (pol : BitVec 32) : Fab × List Nat :=
  (peers.flatMap fun m => addrs.map fun a => (m, a)).foldl (fun (q : Fab × List Nat) x =>
    let r : RouteInfo := { flow := polClass pol, check := true, scope := polScope pol, type := 1, addr := BitVec.ofNat 48 x.2 }
    let t := q.1.request s.clock s.k.nodeId (.bufCheck s.nextId) 6 x.1 s.k.jobtag r []
    (t.1, q.2 ++ [t.2])) (s.fab, [])

/-- A copy instruction of a kind. -/
def copyInstr (k : CopyKind) (x y : SSrc) (res : Bool) : Instr :=
  match k with
  | .linear => .cpyl x res
  | .rows => .cpy2 x res
  | .walk => .cpyw x res
  | .lattice => .cpyx x y res

/-! ## Formulas of the spec -/

/-- R71: a binary operation at the width and with the extension of a type. -/
def atWidth (t : ITy) (f : (w : Nat) → BitVec w → BitVec w → BitVec w) (x y : DWord) : DWord :=
  match t with
  | .i32 => (f 32 (x.setWidth 32) (y.setWidth 32)).signExtend 64
  | .z32 => (f 32 (x.setWidth 32) (y.setWidth 32)).setWidth 64
  | .i64 | .z64 => f 64 x y

/-- R79: the relation on integers read at a type. -/
def intLt (t : ITy) (x y : DWord) : Bool :=
  match t with
  | .i32 => (x.setWidth 32).slt (y.setWidth 32)
  | .z32 => (x.setWidth 32).ult (y.setWidth 32)
  | .i64 => x.slt y
  | .z64 => x.ult y

def intEq (t : ITy) (x y : DWord) : Bool :=
  match t with
  | .i32 | .z32 => (x.setWidth 32 : BitVec 32) == y.setWidth 32
  | .i64 | .z64 => x == y

/-- R79: the value that a combine leaves. -/
def combined (c : Combine) (old v : Bool) : Bool :=
  match c with
  | .set => v
  | .and => old && v
  | .or => old || v

/-- A binary32 encoding is NaN (R140). -/
def isNan32 (x : BitVec 32) : Bool := x.extractLsb' 23 8 == BitVec.allOnes 8 && x.extractLsb' 0 23 != 0

/-- The place of a binary32 encoding that is not NaN on the line of numbers, −0 and +0 together. -/
def order32 (x : BitVec 32) : Int := if x.msb then -((x.extractLsb' 0 31).toNat : Int) else (x.extractLsb' 0 31).toNat

/-- R254: the word that an atomic leaves, or none where it writes nothing. -/
def amoSpec (op : AmoOp) {w : Nat} (old v v2 : BitVec w) : Option (BitVec w) :=
  match op with
  | .add => some (old + v)
  | .smin => some (if v.slt old then v else old)
  | .smax => some (if old.slt v then v else old)
  | .zmin => some (if v.ult old then v else old)
  | .zmax => some (if old.ult v then v else old)
  | .and => some (old &&& v)
  | .or => some (old ||| v)
  | .xor => some (old ^^^ v)
  | .swap => some v
  | .cas => if old = v then some v2 else none
  | .fadd => some (BitVec.ofNat w (fpAdd fmtF32 .rne old.toNat v.toNat).1)
  | .fmin => some (BitVec.ofNat w (fpMin fmtF32 old.toNat v.toNat))
  | .fmax => some (BitVec.ofNat w (fpMax fmtF32 old.toNat v.toNat))

/-- The same for a word of four or eight bytes held as a number. -/
def amoWord (op : AmoOp) (w64 : Bool) (old : Nat) (v v2 : DWord) : Option Nat :=
  if w64 then (amoSpec op (BitVec.ofNat 64 old) v v2).map (·.toNat)
  else (amoSpec op (BitVec.ofNat 32 old) (v.setWidth 32) (v2.setWidth 32)).map (·.toNat)

def amoIsFloat : AmoOp → Bool
  | .fadd | .fmin | .fmax => true
  | _ => false

/-- The instruction AMO or RED of an operation. CAS takes the register pair `n`, the others the operand `y`; the float operations have one
width. -/
def amoInstr (op : AmoOp) (d : SDst) (x y : SSrc) (n p : Nat) (w64 : Bool) : Instr :=
  match op with
  | .add => .amoAdd d x y p w64 | .smin => .amoSmin d x y p w64 | .smax => .amoSmax d x y p w64 | .zmin => .amoZmin d x y p w64
  | .zmax => .amoZmax d x y p w64 | .and => .amoAnd d x y p w64 | .or => .amoOr d x y p w64 | .xor => .amoXor d x y p w64
  | .swap => .amoSwap d x y p w64 | .cas => .amoCas d x n p w64 | .fadd => .amoFadd d x y p | .fmin => .amoFmin d x y p
  | .fmax => .amoFmax d x y p

def redInstr (op : AmoOp) (x y : SSrc) (n p : Nat) (w64 : Bool) : Instr :=
  match op with
  | .add => .redAdd x y p w64 | .smin => .redSmin x y p w64 | .smax => .redSmax x y p w64 | .zmin => .redZmin x y p w64
  | .zmax => .redZmax x y p w64 | .and => .redAnd x y p w64 | .or => .redOr x y p w64 | .xor => .redXor x y p w64
  | .swap => .redSwap x y p w64 | .cas => .redCas x n p w64 | .fadd => .redFadd x y p | .fmin => .redFmin x y p
  | .fmax => .redFmax x y p

/-- R254: the operand and the swap value of AMO and RED. -/
def State.amoOperand (s : State) (op : AmoOp) (y : SSrc) (n : Nat) : DWord := if op = .cas then s.srcS (.reg n) else s.srcS y
def State.amoSwap (s : State) (op : AmoOp) (n : Nat) : DWord := if op = .cas then s.srcS (.reg (n + 1)) else 0

/-- The type code of an atomic's request (R326). -/
def amoType (op : AmoOp) (w64 : Bool) : Nat := if w64 then 3 else if amoIsFloat op then 4 else 1

/-- R162: lane `i` of `w` bytes, as a number. -/
def laneVal (w : Nat) (v : VReg) (i : Nat) : Nat := (v.extractLsb' (8 * w * i) (8 * w)).toNat

/-- R164: the top of the mask stack makes lane `i` of `w` bytes active. -/
def laneActive (m : Mask) (w i : Nat) : Bool :=
  if w = 4 then m.getLsbD i else if w = 2 then m.getLsbD (i / 2) else if w = 1 then m.getLsbD (i / 4) else m.getLsbD (2 * i) && m.getLsbD (2 * i + 1)

/-- R165, R68: an answer that queues one vector result: lane `i` of the lanes in `act` takes the value of `f i`, no other lane is written, and
the STATUS bits are those that the written lanes set. -/
def Lanewise (s : State) (o : Host.Outcome State Fault Refusal) (lat w : Nat) (d : VDst) (act : Nat → Bool) (f : Nat → Nat × Flags) : Prop :=
  ∃ (r m : VReg) (fl : Flags), o = .next (s.queued lat fl (.vector d r m))
    ∧ (∀ j, j < 65536 → m.getLsbD j = act (j / (8 * w)))
    ∧ (∀ i, i < 8192 / w → act i = true → laneVal w r i = (f i).1 % 2 ^ (8 * w))
    ∧ (∀ b, fl.getLsbD b = true ↔ ∃ i, i < 8192 / w ∧ act i = true ∧ (f i).2.getLsbD b = true)

/-- The bit vector whose bit `i` is `f i`. -/
def maskFrom (f : Nat → Bool) (m : Mask) : Prop := ∀ i, i < 2048 → m.getLsbD i = f i

/-- The value of a finite encoding (R139), and the exact value that a sign, a natural number and a power of two stand for. -/
def exactValue (neg : Bool) (n : Nat) (e : Int) : ℚ := (if neg then -1 else 1) * n * (2 : ℚ) ^ e

def FVal.value : FVal → Option ℚ
  | .fin neg n e => some (exactValue neg n e)
  | .zero _ => some 0
  | .nan | .inf _ => none

/-- R150: the integer that `y` rounds to. The 16 random bits `u` count in the stochastic mode alone. -/
def RoundsTo (mode : RMode) (u : Nat) (y : ℝ) (k : ℤ) : Prop :=
  (Int.fract y = 0 → k = ⌊y⌋)
  ∧ (Int.fract y ≠ 0 → match mode with
    | .rne => (Int.fract y < 1 / 2 → k = ⌊y⌋) ∧ (1 / 2 < Int.fract y → k = ⌊y⌋ + 1) ∧ (Int.fract y = 1 / 2 → (k = ⌊y⌋ ∨ k = ⌊y⌋ + 1) ∧ k % 2 = 0)
    | .rtz => (0 < y → k = ⌊y⌋) ∧ (y < 0 → k = ⌊y⌋ + 1)
    | .rup => k = ⌊y⌋ + 1
    | .rdn => k = ⌊y⌋
    | .sr => ((u : ℤ) < ⌊Int.fract y * 2 ^ 16⌋ → k = ⌊y⌋ + 1) ∧ (⌊Int.fract y * 2 ^ 16⌋ ≤ (u : ℤ) → k = ⌊y⌋))

/-- The largest finite number of a format (R139). -/
def Fmt.greatest (f : Fmt) : ℚ := ((f.decode f.top).value).getD 0

/-- R150: the encoding and the STATUS bits are those of ROUND of the exact nonzero number `x`. -/
def Rounds (f : Fmt) (mode : RMode) (nsat : Bool) (u : Nat) (x : ℝ) (r : Nat × Flags) : Prop :=
  let q : ℝ := (2 : ℝ) ^ (max (Int.log 2 |x|) f.emin - (f.m : ℤ))
  ∃ (k : ℤ) (neg : Bool), RoundsTo mode u (x / q) k ∧ (neg = true ↔ x < 0)
    ∧ ((f.greatest : ℝ) < |k * q| → r = (ovf f mode nsat neg, flagOverflow ||| flagInexact))
    ∧ (|k * q| ≤ (f.greatest : ℝ) →
        (∃ v : ℚ, (f.decode r.1).value = some v ∧ (v : ℝ) = k * q) ∧ (f.signBit ≤ r.1 ↔ neg = true)
        ∧ (Int.fract (x / q) = 0 → r.2 = 0)
        ∧ (Int.fract (x / q) ≠ 0 → (2 : ℝ) ^ f.emin ≤ |k * q| → r.2 = flagInexact)
        ∧ (Int.fract (x / q) ≠ 0 → |k * q| < (2 : ℝ) ^ f.emin → r.2 = (flagInexact ||| flagUnderflow)))

/-- R146: a pattern of a long cell that stands for no tag. -/
def isFinitePattern (a : BitVec 128) : Bool := a != BitVec.intMin 128 && a != BitVec.intMax 128 && a != BitVec.intMin 128 + 1

/-- R67: the state registers whose access is "—" in program mode; those that a program may write; those that the supervisor alone may
write; and those that nothing writes. -/
def kSupervisorOnly (k : Nat) : Bool := (0x030 ≤ k && k ≤ 0x034) || (0x200 ≤ k && k ≤ 0x20F)
def kProgramWrites (k : Nat) : Bool := k == 0x010 || k == 0x011 || k == 0x050 || k == 0x051 || (0x100 ≤ k && k ≤ 0x107)
def kSupervisorWrites (k : Nat) : Bool :=
  kSupervisorOnly k || [0x002, 0x003, 0x004, 0x005, 0x020, 0x040, 0x041, 0x052, 0x070].contains k || (0x400 ≤ k && k ≤ 0x4FF)
def kReadOnly (k : Nat) : Bool :=
  [0x000, 0x001, 0x006, 0x021, 0x022, 0x035, 0x042, 0x060, 0x061, 0x062, 0x063, 0x064].contains k

/-! ## One step -/

/-- R13, R35: nothing but the sequencer acts now, and its next clock fetches a bundle. -/
def State.fetches (s : State) : Prop :=
  s.nextAct = none ∧ s.forced = none ∧ s.enabled = [] ∧ s.hst.off = false ∧ s.hst.bring = none ∧ s.err.stopped = false ∧ s.hst.traceQ = []
    ∧ (s.tracing && s.hst.traceFull) = false ∧ s.seq.words = [] ∧ s.seq.halted = false
    ∧ (s.k.priv = true ∨ s.sch.running.isSome = true) ∧ s.seq.dueTrap = none ∧ (∀ e ∈ s.mat.queue, e.op ≠ .wait) ∧ s.seq.delay = 0
    ∧ s.heldNow = none ∧ s.engineFence = none ∧ s.disagreement = none ∧ s.testing 0 = false ∧ s.testing 6 = false
    ∧ (s.seq.perform = none ∨ s.boundaryDue false = false)
    ∧ (∀ r, s.rgn = some r → r.again = false ∧ (0 < r.counted ∨ s.ownsAll (r.rmask ||| r.wmask) = true))
    ∧ (s.rgn = none → s.k.priv = true ∨ s.seq.perform.isSome = true ∨ s.seq.outside < 4095)

/-- The state on which the slots of a bundle run: the end of a stall, the units that the slots read, and the region's CRC over its words
(R19, R110, R119, R133). -/
def State.begun (s : State) (ws : List (BitVec 32)) (slots : List (Nat × Slot)) : State :=
  let t := s.endStall.noteReads slots
  { t with
    rgn := t.rgn.map fun r => { r with crc := crcRun polyIEEE r.crc (ws.flatMap fun w => toBytes 4 w.toNat) }
    seq := { t.seq with bun := { Bundle.start with fin := { BundleEnd.none with record := branchRecorded ws slots } } } }

/-- What a step adds after the slots of a bundle at `pc` have run: the bundle's end, and the clock (R36, R89). -/
def State.ended (s : State) (pc : VAddr) : State :=
  let t := s.fetched.endBundle pc
  { t with seq := { t.seq with stall := none } }.tick false

/-- A bundle that takes a cause at slot `n` begins nothing (R35). -/
def State.rejected (s : State) (n : Nat) (c : Trap) : State := (((s.fetched.withSlot n).endStall).takeTrap c).tick false

/-! ## The invariant -/

/-- What holds of every state that a run can reach: both memories are in canonical form, S0 and P0 stand as R54 says, and the reserved
bits of the policy registers (R63), STATUS (R68), CAUSE (R395) and MRING (R101) read zero. -/
structure State.Inv (s : State) : Prop where
  hbm : Memory.wf s.hbm = true
  sp : Memory.wf s.sp = true
  s0 : s.regs.s.head? = some 0
  p0 : s.regs.p.getLsbD 0 = true
  pol : ∀ y ∈ s.regs.y, y &&& ~~~0xFFFF00FF#32 = 0
  status : s.k.status &&& ~~~0x3FF#32 = 0
  cause : s.k.cause &&& ~~~0xCFFF#16 = 0
  mring : s.k.mring &&& ~~~0x1FF#16 = 0

end Sys2Proof.Machine
end

