-- ==== Sys2Proof/Certificates/Slice0/Obligations.lean ====
section
/-! DEFINITION. The statements that the provers settle. Each docstring names the rule of the spec that its statement formalises. -/

open Sys2Proof Sys2Proof.Machine

/-! ## Scalar integers -/

/-- R71, R72, R74 to R78: every ALU operation but the divisions, and the immediate forms, write the operation's result, extended as the
type says, at their latency (R38): MULH takes the high half of the exact product, shifts count with the low five or six bits of b, MIN and
MAX follow the type's sign; a field of BITF has 1 to 64 bits and ends at bit 63 or below. Nothing else changes. -/
def Obligations.ScalarIntegerResults : Prop :=
  (∀ (s : State) (d : SDst) (x y : SSrc) (t : ITy),
      let r (f : (w : Nat) → BitVec w → BitVec w → BitVec w) : Landing := .scalar d (atWidth t f (s.srcS x) (s.srcS y))
      exec (.add d x y t) s = .next (s.queued 1 0 (r fun _ a b => a + b))
      ∧ exec (.sub d x y t) s = .next (s.queued 1 0 (r fun _ a b => a - b))
      ∧ exec (.mul d x y t) s = .next (s.queued 3 0 (r fun _ a b => a * b))
      ∧ exec (.and d x y t) s = .next (s.queued 1 0 (r fun _ a b => a &&& b))
      ∧ exec (.or d x y t) s = .next (s.queued 1 0 (r fun _ a b => a ||| b))
      ∧ exec (.xor d x y t) s = .next (s.queued 1 0 (r fun _ a b => a ^^^ b))
      ∧ exec (.andn d x y t) s = .next (s.queued 1 0 (r fun _ a b => a &&& ~~~b)))
  ∧ (∀ (s : State) (d : SDst) (x y : SSrc) (t : ITy),
      let r (f : (w : Nat) → BitVec w → BitVec w → BitVec w) : Landing := .scalar d (atWidth t f (s.srcS x) (s.srcS y))
      let ext (w : Nat) (a : BitVec w) : BitVec (2 * w) := if itySigned t then a.signExtend (2 * w) else a.setWidth (2 * w)
      let less (w : Nat) (a b : BitVec w) : Bool := if itySigned t then a.slt b else a.ult b
      exec (.mulh d x y t) s = .next (s.queued 3 0 (r fun w a b => (ext w a * ext w b).extractLsb' w w))
      ∧ exec (.shl d x y t) s = .next (s.queued 1 0 (r fun w a b => a <<< (b.toNat % w)))
      ∧ exec (.shr d x y t) s = .next (s.queued 1 0 (r fun w a b => a >>> (b.toNat % w)))
      ∧ exec (.sar d x y t) s = .next (s.queued 1 0 (r fun w a b => a.sshiftRight (b.toNat % w)))
      ∧ exec (.rot d x y t) s = .next (s.queued 1 0 (r fun w a b => a.rotateLeft (b.toNat % w)))
      ∧ exec (.min d x y t) s = .next (s.queued 1 0 (r fun w a b => if less w b a then b else a))
      ∧ exec (.max d x y t) s = .next (s.queued 1 0 (r fun w a b => if less w a b then b else a)))
  ∧ (∀ (s : State) (d : SDst) (x : SSrc) (t : ITy),
      let r (f : (w : Nat) → BitVec w → BitVec w) : Landing := .scalar d (atWidth t (fun w a _ => f w a) (s.srcS x) 0)
      exec (.clz d x t) s = .next (s.queued 1 0 (r fun w a => BitVec.ofNat w ((List.range w).takeWhile fun i => !a.getMsbD i).length))
      ∧ exec (.popc d x t) s = .next (s.queued 1 0 (r fun w a => BitVec.ofNat w ((List.range w).countP fun i => a.getLsbD i)))
      ∧ exec (.brev d x t) s = .next (s.queued 1 0 (r fun _ a => a.reverse)))
  ∧ (∀ (s : State) (d : SDst) (x y : SSrc) (e n p w pos imm scale : Nat) (z : Int), n < 64 → 1 ≤ w → p + w ≤ 64 → pos < 4 → imm < 65536 →
      let put (v : DWord) : Host.Outcome State Fault Refusal := .next (s.queued 1 0 (.scalar d v))
      let a := s.srcS x
      exec (.addi d x z) s = put (a + BitVec.ofInt 64 z)
      ∧ exec (.andi d x z) s = put (a &&& BitVec.ofInt 64 z)
      ∧ exec (.ori d x z) s = put (a ||| BitVec.ofInt 64 z)
      ∧ exec (.xori d x z) s = put (a ^^^ BitVec.ofInt 64 z)
      ∧ exec (.shli d x n) s = put (a <<< n)
      ∧ exec (.shri d x n) s = put (a >>> n)
      ∧ exec (.sari d x n) s = put (a.sshiftRight n)
      ∧ exec (.roti d x n) s = put (a.rotateLeft n)
      ∧ exec (.movi d z) s = put (BitVec.ofInt 64 z)
      ∧ exec (.bext d x p w) s = put ((a.extractLsb' p w).setWidth 64)
      ∧ exec (.bexs d x p w) s = put ((a.extractLsb' p w).signExtend 64)
      ∧ exec (.lea d x y scale z) s = put (a + (s.srcS y <<< scale) + BitVec.ofInt 64 z)
      ∧ (∃ v : DWord, exec (.bins e x p w) s = .next (s.queued 1 0 (.scalar (.reg e) v))
          ∧ ∀ i : Nat, i < 64 → v.getLsbD i = if p ≤ i ∧ i < p + w then a.getLsbD (i - p) else (s.srcS (.reg e)).getLsbD i)
      ∧ (∃ v : DWord, exec (.movk e pos imm) s = .next (s.queued 1 0 (.scalar (.reg e) v))
          ∧ ∀ i : Nat, i < 64 → v.getLsbD i = if 16 * pos ≤ i ∧ i < 16 * pos + 16 then imm.testBit (i - 16 * pos) else (s.srcS (.reg e)).getLsbD i))

/-- R73: a division by zero gives all ones, a remainder by zero gives a, and DIVZERO is set in that case alone; otherwise the quotient is
cut toward zero, the least number by -1 giving itself and remainder 0. The result lands after 18 bundles. -/
def Obligations.ScalarDivision : Prop :=
  ∀ (s : State) (d : SDst) (x y : SSrc) (t : ITy),
    let r (f : (w : Nat) → BitVec w → BitVec w → BitVec w) : Landing := .scalar d (atWidth t f (s.srcS x) (s.srcS y))
    let fl : Flags := if intEq t (s.srcS y) 0 then 0x001#32 else 0
    exec (.div d x y t) s = .next (s.queued 18 fl (r fun w a b =>
        if b = 0 then BitVec.allOnes w else if itySigned t then a.sdiv b else a.udiv b))
    ∧ exec (.rem d x y t) s = .next (s.queued 18 fl (r fun _ a b => if b = 0 then a else if itySigned t then a.srem b else a.umod b))

/-! ## Predicates -/

/-- R79 to R82: CMP and CMPI compare at the type's width and sign, binary32 with -0 equal to +0 and NaN unordered, and combine with the
old predicate; PLOG and SEL. No STATUS bit is set. -/
def Obligations.PredicateResults : Prop :=
  (∀ (s : State) (c : Combine) (p : Nat) (x y : SSrc) (t : CTy),
      let put (v : Bool) : Host.Outcome State Fault Refusal := .next (s.queued 1 0 (.pred p (combined c (s.srcP p) v)))
      let a := s.srcS x
      let b := s.srcS y
      let unord := isNan32 (a.setWidth 32) || isNan32 (b.setWidth 32)
      let eq := match t with
        | .i32 => intEq .i32 a b | .z32 => intEq .z32 a b | .i64 => intEq .i64 a b | .z64 => intEq .z64 a b
        | .f32 => !unord && order32 (a.setWidth 32) == order32 (b.setWidth 32)
      let lt := match t with
        | .i32 => intLt .i32 a b | .z32 => intLt .z32 a b | .i64 => intLt .i64 a b | .z64 => intLt .z64 a b
        | .f32 => !unord && decide (order32 (a.setWidth 32) < order32 (b.setWidth 32))
      let gt := match t with
        | .i32 => intLt .i32 b a | .z32 => intLt .z32 b a | .i64 => intLt .i64 b a | .z64 => intLt .z64 b a
        | .f32 => !unord && decide (order32 (b.setWidth 32) < order32 (a.setWidth 32))
      exec (.cmpEq c p x y t) s = put eq
      ∧ exec (.cmpNe c p x y t) s = put (!eq)
      ∧ exec (.cmpLt c p x y t) s = put lt
      ∧ exec (.cmpLe c p x y t) s = put (lt || eq)
      ∧ exec (.cmpGt c p x y t) s = put gt
      ∧ exec (.cmpGe c p x y t) s = put (gt || eq)
      ∧ exec (.cmpUn c p x y) s = put unord
      ∧ exec (.cmpOrd c p x y) s = put (!unord))
  ∧ (∀ (s : State) (c : Combine) (p : Nat) (x : SSrc) (z : Int) (t : ITy),
      let put (v : Bool) : Host.Outcome State Fault Refusal := .next (s.queued 1 0 (.pred p (combined c (s.srcP p) v)))
      let a := s.srcS x
      let b := BitVec.ofInt 64 z
      exec (.cmpiEq c p x z t) s = put (intEq t a b)
      ∧ exec (.cmpiNe c p x z t) s = put (!intEq t a b)
      ∧ exec (.cmpiLt c p x z t) s = put (intLt t a b)
      ∧ exec (.cmpiLe c p x z t) s = put (!intLt t b a)
      ∧ exec (.cmpiGt c p x z t) s = put (intLt t b a)
      ∧ exec (.cmpiGe c p x z t) s = put (!intLt t a b))
  ∧ (∀ (s : State) (d m n p : Nat) (e : SDst) (x y : SSrc) (neg : Bool),
      let put (v : Bool) : Host.Outcome State Fault Refusal := .next (s.queued 1 0 (.pred d v))
      exec (.pand d m n) s = put (s.srcP m && s.srcP n)
      ∧ exec (.por d m n) s = put (s.srcP m || s.srcP n)
      ∧ exec (.pxor d m n) s = put (xor (s.srcP m) (s.srcP n))
      ∧ exec (.pandn d m n) s = put (s.srcP m && !s.srcP n)
      ∧ exec (.pnot d m) s = put (!s.srcP m)
      ∧ exec (.pmov d m) s = put (s.srcP m)
      ∧ exec (.pset d) s = put true
      ∧ exec (.pclr d) s = put false
      ∧ exec (.sel e p neg x y) s = .next (s.queued 1 0 (.scalar e (if xor (s.srcP p) neg then s.srcS x else s.srcS y))))

/-! ## Scalar floating point -/

/-- R84: the SFP minors read binary32 operands and land a binary32 result after four bundles (R38); SFMIN, SFMAX, SFABS and SFNEG set no
flag, and the last two change bit 31 alone. SFCVT draws one number where stochastic rounding applies to it (R85, R152). -/
def Obligations.ScalarFloatCompletes : Prop :=
  ∀ (s : State) (d : SDst) (x y : SSrc) (n src : Nat) (dst : Ty),
    let m := fmtMode s.regs.fmt
    let f (z : SSrc) : Nat := ((s.srcS z).setWidth 32).toNat
    let put (d : SDst) (r : Nat × Flags) : Host.Outcome State Fault Refusal := .next (s.queued 4 r.2 (.scalar d (BitVec.ofNat 64 r.1)))
    let low : BitVec 32 := (s.srcS x).setWidth 32
    exec (.sfadd d x y) s = put d (fpAdd fmtF32 m (f x) (f y))
    ∧ exec (.sfsub d x y) s = put d (fpSub fmtF32 m (f x) (f y))
    ∧ exec (.sfmul d x y) s = put d (fpMul fmtF32 m (f x) (f y))
    ∧ exec (.sfma n x y) s = put (.reg n) (fpFma fmtF32 m false (f x) (f y) (f (.reg n)))
    ∧ exec (.sfmin d x y) s = put d (fpMin fmtF32 (f x) (f y), 0)
    ∧ exec (.sfmax d x y) s = put d (fpMax fmtF32 (f x) (f y), 0)
    ∧ exec (.sfabs d x) s = .next (s.queued 4 0 (.scalar d ((low &&& 0x7FFFFFFF#32).setWidth 64)))
    ∧ exec (.sfneg d x) s = .next (s.queued 4 0 (.scalar d ((low ^^^ 0x80000000#32).setWidth 64)))
    ∧ (let r := convert (cfmtOf src) (tyFmt dst) m (s.regs.fmt.getLsbD 15) (s.srBits 0) (bits (s.srcS x) 0 (8 * (cfmtOf src).bytes))
       let draws := m = .sr ∧ cvtDraws (cfmtOf src) (tyFmt dst) = true
       let s1 := if draws then (s.readsOf [.rngkey]).setFin { s.fin with draws := s.fin.draws + 1 } else s
       exec (.sfcvt d x src dst) s = .next (s1.queued 4 r.2 (.scalar d (tyExtend dst r.1))))

/-- R141, R150, R152, R154, R170, R317, R366, R367: under round to nearest even a result that does not overflow lies at least as near to the exact value
as every other finite number of its format, and an exact result raises no flag. Sums, differences, products, fused products, conversions, reciprocals,
quotients and square roots of finite operands are the exact value, rounded once (of exp2 and log2 the model has log 9 and this says nothing); VFLR and
VRND give the integral value; the combines give exact sums, extremes and bits. A weight of SAMPLE is EXP2Q of two rounded products, by a table of
nearest integers, and the token drawn is the first whose sum of weights passes the target. -/
def Obligations.ExactValueRoundedOnce : Prop :=
  (∀ (f : Fmt), f = fmtF32 ∨ f = fmtBf ∨ f = fmtE4 ∨ f = fmtE5 →
      (∀ (neg nsat : Bool) (n : Nat) (e : Int) (u : Nat), 0 < n →
        let r := round f .rne nsat neg n 1 e u
        r.2 &&& flagOverflow = 0 →
          ∃ v : ℚ, (f.decode r.1).value = some v
            ∧ (∀ (z : Nat) (w : ℚ), (f.decode z).value = some w → |v - exactValue neg n e| ≤ |w - exactValue neg n e|)
            ∧ (v = exactValue neg n e ↔ r.2 = 0))
      ∧ (∀ (mode : RMode) (nsat neg : Bool) (n d : Nat) (e : Int) (u : Nat), 0 < n → 0 < d →
        Rounds f mode nsat u ((exactValue neg n e : ℚ) / d) (round f mode nsat neg n d e u))
      ∧ ∀ (mode : RMode) (x y z u : Nat) (nsat : Bool) (a b c : ℚ),
        (f.decode x).value = some a → (f.decode y).value = some b → (f.decode z).value = some c →
        let m := arithMode mode
        (a + b ≠ 0 → Rounds f m false 0 ((a + b : ℚ) : ℝ) (fpAdd f mode x y))
        ∧ (a - b ≠ 0 → Rounds f m false 0 ((a - b : ℚ) : ℝ) (fpSub f mode x y))
        ∧ (a * b ≠ 0 → Rounds f m false 0 ((a * b : ℚ) : ℝ) (fpMul f mode x y))
        ∧ (a * b + c ≠ 0 → Rounds f m false 0 ((a * b + c : ℚ) : ℝ) (fpFma f mode false x y z))
        ∧ (a ≠ 0 → ∀ g, g = fmtF32 ∨ g = fmtBf ∨ g = fmtE4 ∨ g = fmtE5 → Rounds g mode nsat u (a : ℝ) (cvtFF f g mode nsat u x))
        ∧ (∀ v : Int, v ≠ 0 → Rounds f mode nsat u (v : ℝ) (cvtIF f mode nsat u v))
        ∧ (∀ i : IFmt, ∃ k : ℤ, RoundsTo mode u (a : ℝ) k
            ∧ (i.lo ≤ k → k ≤ i.hi → (cvtFI f i mode u x).1 = i.encode k
              ∧ (Int.fract (a : ℝ) = 0 → (cvtFI f i mode u x).2 = 0) ∧ (Int.fract (a : ℝ) ≠ 0 → (cvtFI f i mode u x).2 = flagInexact))
            ∧ (k < i.lo → cvtFI f i mode u x = (i.encode i.lo, flagInvalid)) ∧ (i.hi < k → cvtFI f i mode u x = (i.encode i.hi, flagInvalid)))
        ∧ (f = fmtF32 ∨ f = fmtBf →
            (a ≠ 0 → Rounds f .rne false 0 (1 / (a : ℝ)) (fpRcp f x))
            ∧ (a ≠ 0 → b ≠ 0 → Rounds f .rne false 0 ((a : ℝ) / b) (fpDiv f x y))
            ∧ (0 < a → Rounds f .rne false 0 (Real.sqrt a) (fpSqrt f x))
            ∧ (0 < a → Rounds f .rne false 0 (1 / Real.sqrt a) (fpRsq f x))
            ∧ (f.decode (fpFlr f x).1).value = some ((⌊a⌋ : ℤ) : ℚ) ∧ (fpFlr f x).2 = 0
            ∧ (∃ k : ℤ, RoundsTo m 0 (a : ℝ) k ∧ (f.decode (fpRnd f mode x).1).value = some (k : ℚ)
              ∧ ((fpRnd f mode x).2 = if (k : ℚ) = a then 0 else flagInexact))))
  ∧ ((∀ a b : BitVec 32,
        comb 0 a.toNat b.toNat = fpAdd fmtF32 .rne a.toNat b.toNat
        ∧ comb 3 a.toNat b.toNat = (fpMax fmtF32 a.toNat b.toNat, 0) ∧ comb 4 a.toNat b.toNat = (fpMin fmtF32 a.toNat b.toNat, 0)
        ∧ comb 5 a.toNat b.toNat = ((if a.slt b then b else a).toNat, 0) ∧ comb 6 a.toNat b.toNat = ((if b.slt a then b else a).toNat, 0)
        ∧ comb 7 a.toNat b.toNat = ((a &&& b).toNat, 0) ∧ comb 8 a.toNat b.toNat = ((a ||| b).toNat, 0))
      ∧ (∀ a b : DWord, comb 1 a.toNat b.toNat = ((a + b).toNat, 0))
      ∧ ∀ a b : BitVec 128, isFinitePattern a = true → isFinitePattern b = true →
        comb 2 a.toNat b.toNat = ((a + b).toNat, if (a + b).toInt = a.toInt + b.toInt then 0 else flagAnchOvf))
  ∧ ((∀ (m invt x : Nat) (a b c : ℚ), (fmtF32.decode m).value = some a → (fmtF32.decode x).value = some b → (fmtF32.decode invt).value = some c →
        0 < c → weight m invt m = 2 ^ 31
        ∧ (b < a → ∃ d fl, Rounds fmtF32 .rne false 0 (((b - a) * c : ℚ) : ℝ) (d, fl)
          ∧ (d = fmtF32.inf true → weight m invt x = 0)
          ∧ ((fmtF32.decode d).value = some 0 → weight m invt x = 2 ^ 31)
          ∧ (∀ v l : ℚ, (fmtF32.decode d).value = some v → v ≠ 0 → (fmtF32.decode 0x3FB8AA3B).value = some l →
              ∃ z fl', Rounds fmtF32 .rne false 0 ((v * l : ℚ) : ℝ) (z, fl') ∧ weight m invt x = exp2Q z)))
      ∧ (∀ (z : Nat) (v : ℚ), (fmtF32.decode z).value = some v → v ≤ 0 →
          let t := 256 * Int.fract v
          let low : ℤ := exp2T ⌊t⌋.toNat
          let high : ℤ := exp2T (⌊t⌋.toNat + 1)
          let base : ℤ := low + ((high - low) * ⌊Int.fract t * 2 ^ 16⌋ + 2 ^ 15) / 2 ^ 16
          (v < -32 → exp2Q z = 0) ∧ (-32 ≤ v → (exp2Q z : ℤ) = (base + ⌊(2 : ℚ) ^ (-⌊v⌋ - 1)⌋) / 2 ^ (-⌊v⌋).toNat))
      ∧ exp2T 256 = 2 ^ 32 ∧ (∀ j, j < 256 → 1 ≤ exp2T j ∧ (2 * exp2T j - 1) ^ 256 ≤ 2 ^ (8192 + j) ∧ 2 ^ (8192 + j) < (2 * exp2T j + 1) ^ 256)
      ∧ ∀ (u : DWord) (invt : Nat) (l : List (Nat × Nat)),
        let m := greatest l
        let w (p : Nat × Nat) : Nat := weight m invt p.2
        let total := (l.map w).sum
        let target := u.toNat * total / 2 ^ 64
        (∀ p ∈ l, fmtF32.isNan p.2 = false → fmtF32.key p.2 ≤ fmtF32.key m) ∧ (m = fmtF32.inf true ∨ ∃ p ∈ l, p.2 = m)
        ∧ (total = 0 → ∀ a i b, l = a ++ (i, m) :: b → (∀ p ∈ a, p.2 ≠ m) → drawToken u invt l = i)
        ∧ (total = 0 → (∀ p ∈ l, p.2 ≠ m) → ∀ p b, l = p :: b → drawToken u invt l = p.1)
        ∧ (0 < total → ∃ a p b, l = a ++ p :: b ∧ drawToken u invt l = p.1 ∧ (a.map w).sum ≤ target ∧ target < (a.map w).sum + w p))

/-! ## State registers, the format register and loop levels -/

/-- R66 to R70, R99, R156, R157: GETK and SETK land after two bundles, or raise the privilege fault where the mode does not allow them;
what a landed SETK leaves to be read (of EINFO all 64 bits: the model's reading, log 90); GETF, SETF and the format fault; LIDX and LCNT read a level counted from the outermost, 0 where
there is none. -/
def Obligations.StateRegistersAndFormat : Prop :=
  (∀ (s : State) (d : SDst) (k : Nat), (kSupervisorOnly k = true → s.k.priv = true) →
      exec (.getk d k) s = .next ((s.readsOf (if k = 0x010 then [.rngkey] else [])).queued 2 0 (.scalar d (s.getK k))))
  ∧ (∀ (s : State) (k : Nat) (x : SSrc), kProgramWrites k = true ∨ (kSupervisorWrites k = true ∧ s.k.priv = true) →
      exec (.setk k x) s = .next (s.queued 2 0 (.kreg k (s.srcS x))))
  ∧ (∀ (s : State) (d : SDst) (k : Nat) (x : SSrc),
      (s.k.priv = false → kSupervisorOnly k = true → exec (.getk d k) s = s.raises .privilege)
      ∧ (s.k.priv = false → kSupervisorWrites k = true → exec (.setk k x) s = s.raises .privilege)
      ∧ (kReadOnly k = true → exec (.setk k x) s = s.raises .privilege))
  ∧ (∀ (s : State) (v : DWord), s.regs.s.length = 64 → s.regs.y.length = 8 → s.k.gtable.length = 256 →
      (∀ k ∈ [0x010, 0x011, 0x033], (s.setK k v).getK k = v)
      ∧ (∀ k ∈ [0x002, 0x003], (s.setK k v).getK k = v &&& 0x3FFF#64)
      ∧ (∀ k ∈ [0x031, 0x032, 0x034, 0x041], (s.setK k v).getK k = v &&& 0xFFFFFFFFFFFF#64)
      ∧ (∀ k ∈ [0x004, 0x005], (s.setK k v).getK k = v &&& 0xFFFFFFFFFFFFFF#64)
      ∧ (s.setK 0x020 v).getK 0x020 = v &&& 0xFF#64
      ∧ (s.setK 0x040 v).getK 0x040 = v &&& 0xFFFF#64
      ∧ (s.setK 0x070 v).getK 0x070 = v &&& 0xFFFFFFFF#64
      ∧ (s.setK 0x050 v).getK 0x050 = s.getK 0x050 &&& ~~~v &&& 0x3FF#64
      ∧ (∀ n, n < 8 → (s.setK (0x100 + n) v).getK (0x100 + n) = v &&& 0xFFFF00FF#64)
      ∧ (∀ n, n < 16 → (s.setK (0x200 + n) v).getK (0x200 + n) = v)
      ∧ (∀ n, n < 256 → (s.setK (0x400 + n) v).getK (0x400 + n) = (v &&& 0xBFFFFFFFFFFF0000#64) ||| (s.getK (0x400 + n) &&& 0xFFFF#64))
      ∧ (∀ k, s.setK k v = { s with regs := (s.setK k v).regs, k := (s.setK k v).k }))
  ∧ (∀ (s : State) (d : SDst) (x : SSrc) (n : Nat),
      let f : BitVec 48 := (s.srcS x).setWidth 48
      let ok := bits f 0 4 ≤ 10 ∧ bits f 4 4 ≤ 10 ∧ bits f 8 4 ≤ 10 ∧ bits f 12 3 ≤ 4 ∧ bits f 17 1 = 0 ∧ bits f 28 4 = 0
      exec (.getf d) s = .next (s.queued 2 0 (.scalar d (s.regs.fmt.setWidth 64)))
      ∧ (ok → exec (.setf x) s = .next (s.queued 4 0 (.fmt f)))
      ∧ (¬ ok → exec (.setf x) s = s.raises .format)
      ∧ (∀ (l : LoopLevel), n < s.seq.loops.length → s.seq.loops[s.seq.loops.length - 1 - n]? = some l →
          exec (.lidx d n) s = .next (s.queued 1 0 (.scalar d (l.index.setWidth 64)))
          ∧ exec (.lcnt d n) s = .next (s.queued 1 0 (.scalar d (l.count.setWidth 64))))
      ∧ (s.seq.loops.length ≤ n →
          exec (.lidx d n) s = .next (s.queued 1 0 (.scalar d 0)) ∧ exec (.lcnt d n) s = .next (s.queued 1 0 (.scalar d 0))))

/-! ## Branches, loops, traps -/

/-- R12, R25, R88, R93 to R95: a taken branch redirects to PC + 16 × offset, or to a register's aligned address, after its delay bundles;
CALL and CALLI land the address four bundles on; a branch that is not taken does nothing, and so does one of any form that falls due with an
earlier one or stands in one bundle with another: it writes no link; a misaligned register target raises its fault, of a branch that would lose
too (the model's choice, log 107). -/
def Obligations.BranchesRedirect : Prop :=
  (∀ (s : State) (p : Nat) (neg : Bool) (off : Int) (x : SSrc) (d : SDst),
      let free (k : Nat) : Prop := ∀ r ∈ s.seq.redirects, r.seq ≠ s.seq.count ∧ r.left ≠ k + 1
      let rel : VAddr := s.seq.pc + BitVec.ofInt 48 (16 * off)
      let abs : VAddr := (s.srcS x).setWidth 48
      let link : DWord := (s.seq.pc + 64).setWidth 64
      let top := s.regs.masks.headD fullMask
      let parent := s.regs.masks.tail.headD fullMask
      s.seq.pc &&& 0xF#48 = 0 →
      (xor (s.srcP p) neg = false → exec (.bra p neg off) s = .next s)
      ∧ (free 2 → xor (s.srcP p) neg = true → exec (.bra p neg off) s = .next (s.redirected 3 rel 0))
      ∧ (free 2 → top = 0 → exec (.brmNone off) s = .next (s.redirected 3 rel 0) ∧ exec (.brmAny off) s = .next s)
      ∧ (free 2 → top ≠ 0 → exec (.brmAny off) s = .next (s.redirected 3 rel 0) ∧ exec (.brmNone off) s = .next s)
      ∧ (free 2 → parent &&& ~~~top = 0 → exec (.brmAll off) s = .next (s.redirected 3 rel 0))
      ∧ (parent &&& ~~~top ≠ 0 → exec (.brmAll off) s = .next s)
      ∧ (free 3 → exec (.call off) s = .next ((s.redirected 4 rel 0).queued 1 0 (.scalar (.reg 62) link)))
      ∧ (free 3 → abs &&& 0xF#48 = 0 →
          exec (.bri x) s = .next (s.redirected 4 abs (abs.setWidth 64))
          ∧ exec (.ret x) s = .next (s.redirected 4 abs (abs.setWidth 64))
          ∧ exec (.calli d x) s = .next ((s.redirected 4 abs (abs.setWidth 64)).queued 1 0 (.scalar d link)))
      ∧ (¬ free 2 → exec (.bra p neg off) s = .next s ∧ exec (.brmNone off) s = .next s ∧ exec (.brmAny off) s = .next s
          ∧ exec (.brmAll off) s = .next s)
      ∧ (¬ free 3 → exec (.call off) s = .next s)
      ∧ (¬ free 3 → abs &&& 0xF#48 = 0 → exec (.bri x) s = .next s ∧ exec (.ret x) s = .next s ∧ exec (.calli d x) s = .next s))
  ∧ (∀ (s : State) (x : SSrc) (d : SDst), ((s.srcS x).setWidth 48 : VAddr) &&& 0xF#48 ≠ 0 →
      exec (.bri x) s = s.raises .misalignedTarget ∧ exec (.ret x) s = s.raises .misalignedTarget
      ∧ exec (.calli d x) s = s.raises .misalignedTarget)

/-- R14, R97, R98, R100, R106 to R108: LOOP and LOOPI leave a level for the end of the bundle, or a skip where the count is 0; LEAVE
leaves a pop; a loop that does not fit the stack raises the loop-stack fault; TRAP, DELAY and BRK leave their marks, and NOP nothing. That the
largest of several DELAYs counts (log 15) and which instructions set a bit of the branch outcome (log 33) are the model's readings. -/
def Obligations.LoopsTrapsAndDelays : Prop :=
  (∀ (s : State) (x : SSrc) (n off : Nat),
      let f := s.seq.bun.fin
      let fin : VAddr := s.seq.pc + BitVec.ofNat 48 (16 * off)
      let nested := s.seq.loops.length < 6 ∧ (∀ l ∈ s.seq.loops, fin.toNat ≤ l.fin.toNat) ∧ (∀ l, s.seq.loops.head? = some l → l.fin ≠ s.seq.pc)
      let clash := ∃ r, s.rgn = some r ∧ r.clash [.l s.seq.loops.length] = true
      let pushed (m : BitVec 32) (w : DWord) : State := (if s.rgn.isSome then s.writesOf [.l s.seq.loops.length] else s).setFin
        { f with pushed := some ⟨s.seq.pc + 16, fin, 0, m⟩, taken := f.taken + 2 ^ s.seq.bun.slot, branchWord := if w = 0 then f.branchWord else w }
      let m : BitVec 32 := (s.srcS x).setWidth 32
      (nested → ¬ clash → m ≠ 0 → exec (.loop x off) s = .next (pushed m (m.setWidth 64)))
      ∧ (nested → ¬ clash → BitVec.ofNat 32 n ≠ 0 → exec (.loopi n off) s = .next (pushed (BitVec.ofNat 32 n) 0))
      ∧ (nested → m = 0 → exec (.loop x off) s = .next (s.setFin { f with skip := some fin }))
      ∧ (nested → BitVec.ofNat 32 n = 0 → exec (.loopi n off) s = .next (s.setFin { f with skip := some fin }))
      ∧ (¬ nested → exec (.loop x off) s = s.raises .loopStack ∧ exec (.loopi n off) s = s.raises .loopStack)
      ∧ (f.leaves < s.seq.loops.length → exec .leave s = .next (s.setFin
          { f with leaves := f.leaves + 1, taken := f.taken + 2 ^ s.seq.bun.slot }))
      ∧ (s.seq.loops.length ≤ f.leaves → exec .leave s = s.raises .loopStack))
  ∧ (∀ (s : State) (imm n : Nat),
      let f := s.seq.bun.fin
      let bit := f.taken + 2 ^ s.seq.bun.slot
      exec .nop s = .next s
      ∧ (s.k.priv = false → s.rgn.isSome = true → s.seq.trapReq = none → exec (.trap imm) s =
          .next { s with seq := { s.seq with trapReq := some (BitVec.ofNat 26 imm), bun := { s.seq.bun with fin := { f with taken := bit } } } })
      ∧ (s.k.priv = true ∨ s.rgn = none ∨ s.seq.trapReq ≠ none → exec (.trap imm) s = s.raises .trapContext)
      ∧ exec (.delay n) s = .next (s.setFin { f with delay := max f.delay n, taken := bit })
      ∧ exec (.brk imm) s = .next (s.setFin { f with brk := true, taken := bit }))

/-! ## Global memory -/

/-- R123, R210, R250 to R252, R256, R279, R331: a load waits for its data with its destination marked, once its request can be held and, for
another node's page, sent; LD of the scratchpad window reads a read vault, when its bank takes it; a supervisor's load performs at issue; an
acquire outside its scope sets SCOPEMISS. How long a bank holds an access back is open (log 82). -/
def Obligations.LoadsIssue : Prop :=
  (∀ (s : State) (d : SDst) (x y : SSrc) (off : Int) (p : Nat) (t : Ty) (va : VAddr) (l : Xlat),
      let n := tyBytes t
      let pol := s.srcY p
      let w (lat : Nat) (l : Xlat) (pol : BitVec 32) : Wait := ⟨0, 0, 0, false, false, some d, none, 0, none, lat, false, .no,
        .load va l.loc l.attr t pol none⟩
      let issued (lat : Nat) (l : Xlat) (pol : BitVec 32) : State :=
        ({ s.writesOf (sDstUnits d) with tlb := l.tlb }.awaiting (w lat l pol)).flagged (if s.acquireOut pol l.loc then 0x100#32 else 0)
      s.k.priv = false → s.rgn.isSome = true → s.requests < 8192 → s.noClash (sDstUnits d) →
      (s.access (s.srcS x + BitVec.ofInt 64 (n * off)) n .read pol = .ok (va, l) →
          (∀ node a, l.loc = .peer node a → s.flowRoom s.k.jobtag node (polClass pol) = true) →
          exec (.ld d x off p t) s = .next (issued 24 l pol))
      ∧ (s.remote (s.srcS x) (s.srcS y) n .read pol = .ok (va, l) →
          (∀ node a, l.loc = .remote node a → s.flowRoom s.k.jobtag node (polClass pol) = true) →
          exec (.ldx d x y p t) s = .next (issued 64 l pol))
      ∧ (s.srcS x + BitVec.ofInt 64 (n * off) = va.setWidth 64 → va.toNat < 0x10000000 → va.toNat % n = 0 → spExtent va.toNat n = true →
          s.discipline (vaultOf va.toNat) .read = true → s.bankWait (banksOf [(va.toNat, n)]) = .ok () →
          exec (.ld d x off p t) s = .next (((s.writesOf (sDstUnits d)).awaiting
            ⟨0, 0, 0, false, false, some d, none, 0, none, 24, false, .no, .window va.toNat t⟩).banking (banksOf [(va.toNat, n)]) 24)))
  ∧ (∀ (s : State) (d : SDst) (x : SSrc) (off : Int) (p : Nat) (t : Ty) (va : VAddr) (pa : Nat) (attr : Attr) (tlb : Tlb),
      let n := tyBytes t
      let now (l : Loc) : Wait := ⟨0, 0, 0, false, false, some d, none, 0, none, 24, false, .no,
        .direct (loadValue t (leNat (overlay (s.readHome l n) (s.forward l va n))))⟩
      s.k.priv = true → s.unasked →
      (s.access (s.srcS x + BitVec.ofInt 64 (n * off)) n .read (s.srcY p) = .ok (va, ⟨.here pa, attr, tlb⟩) → 0x10000000 ≤ va.toNat →
          exec (.ld d x off p t) s = .next ({ s with tlb := tlb, l2 := s.touch (.here pa) attr false }.awaiting (now (.here pa))))
      ∧ (s.srcS x + BitVec.ofInt 64 (n * off) = va.setWidth 64 → va.toNat < 0x10000000 → va.toNat % n = 0 → s.mayUse va.toNat n .read →
          s.bankWait (banksOf [(va.toNat, n)]) = .ok () →
          exec (.ld d x off p t) s = .next ((s.awaiting (now (.spad va.toNat))).banking (banksOf [(va.toNat, n)]) 24)))

/-- R122, R247, R251, R252, R256, R279, R331, R336: a program's store enters the buffer and leaves memory as it was, with a check for another node's
page; a supervisor's store writes its bytes at once, and every other byte of memory reads as before, but waits while the buffer holds an entry;
a release outside its scope sets SCOPEMISS. -/
def Obligations.StoresIssue : Prop :=
  (∀ (s : State) (d x y : SSrc) (off : Int) (p : Nat) (t : Ty) (va : VAddr) (l : Xlat),
      let n := tyBytes t
      let pol := s.srcY p
      let fl : Flags := if s.releaseOut pol l.loc then 0x100#32 else 0
      let op : BufOp := .store l.loc l.attr va n (s.srcS d)
      let here : State := ({ s with tlb := l.tlb }.buffered 1 pol [] op).flagged fl
      s.k.priv = false → s.rgn.isSome = true → s.bufferHas 1 → s.requests < 8192 →
      (s.access (s.srcS x + BitVec.ofInt 64 (n * off)) n .write pol = .ok (va, l) → exec (.st d x off p t) s = .next here)
      ∧ (s.remote (s.srcS x) (s.srcS y) n .write pol = .ok (va, l) →
          (∀ pa, l.loc = .here pa → exec (.stx d x y p t) s = .next here)
          ∧ (∀ node a, l.loc = .remote node a → s.flowRoom s.k.jobtag node (polClass pol) = true →
              let q := s.fab.request s.clock s.k.nodeId (.bufCheck s.nextId) 6 node s.k.jobtag (s.routeInfo l.loc pol (tyCode t) true) []
              exec (.stx d x y p t) s = .next (({ s with fab := q.1 }.buffered 1 pol [q.2] op).flagged fl))))
  ∧ (∀ (s : State) (d x : SSrc) (off : Int) (p : Nat) (ty : Ty) (va : VAddr) (pa : Nat) (attr : Attr) (tlb : Tlb),
      let n := tyBytes ty
      s.k.priv = true → s.unasked →
      s.access (s.srcS x + BitVec.ofInt 64 (n * off)) n .write (s.srcY p) = .ok (va, ⟨.here pa, attr, tlb⟩) →
        (s.buf = [] → pa + n ≤ hbmEnd → Memory.wf s.hbm = true →
          ∃ t : State, exec (.st d x off p ty) s = .next t
            ∧ (∀ a, Memory.read t.hbm a = if pa ≤ a ∧ a < pa + n then BitVec.ofNat 8 ((s.srcS d).toNat / 256 ^ (a - pa)) else Memory.read s.hbm a)
            ∧ t.sp = s.sp ∧ t.regs = s.regs ∧ t.k = s.k ∧ t.pipe = s.pipe ∧ t.buf = s.buf ∧ t.seq = s.seq)
        ∧ (s.buf ≠ [] → exec (.st d x off p ty) s = .next (s.stalls 0x09)))

/-- R124, R251, R254 to R256, R441: an atomic here reads the old word, writes the new one, and lands the old one at the end of its bundle, CAS
only where the word equals its operand; one elsewhere, once it is answered, lands the answer, or 0 with an engine error where it was refused; in
data mode the value is recorded.
As boundary instructions they close their region first; the supervisor's performs directly and carries no order. -/
def Obligations.AtomicsPerform : Prop :=
  (∀ (s : State) (op : AmoOp) (d : SDst) (x y : SSrc) (m p : Nat) (w64 : Bool) (va : VAddr) (pa : Nat) (attr : Attr) (tlb : Tlb),
      let wide := w64 && !amoIsFloat op
      let n := if wide then 8 else 4
      let pol := s.srcY p
      let performs (s1 : State) (rel : Option (BitVec 14 × Nat)) (fl : Flags) : List Effect :=
        let old := Memory.word s1.hbm pa n
        let new := amoWord op wide old (s.amoOperand op y m) (s.amoSwap op m)
        [.setTlb tlb, .hbm pa (match new with | some v => toBytes n v | none => Memory.bytes s1.hbm pa n),
          .setL2 (if new.isSome then l2Span s1.l2 pa n attr true else s1.touch (.here pa) attr false),
          .setRtags (if new.isSome then tagWrite s1.rtags (.here pa) n rel else s1.rtags),
          .land 0 fl (.scalar d (BitVec.ofNat 64 old))] ++ s1.traceValue (BitVec.ofNat 64 old)
      let s1 := s.performing
      let missed := s1.acquireOut pol (.here pa) || s1.releaseOut pol (.here pa)
        || (polAcquire pol && s1.acquireDrops s1.k (.here pa) s1.k.nodeId (polScope pol))
      (s.k.priv = false → s.regional → s.boundaryReady → (s.seq.perform = none → s.requests < 8192 ∧ ∃ q, s.access (s.srcS x) n .write pol = .ok q) →
        s1.fab.answerTo s1.k.jobtag s1.performer = none → s1.fab.asking s1.k.jobtag s1.performer = false →
        s1.access (s.srcS x) n .write pol = .ok (va, ⟨.here pa, attr, tlb⟩) → s1.atomicWaits pol (.here pa) = .ok () →
        pa + n ≤ hbmEnd → Memory.wf s1.hbm = true →
          exec (amoInstr op d x y m p w64) s = .next (s.bounded (performs s1 (s1.relOf pol s1.k.nodeId) (if missed then 0x100#32 else 0))))
      ∧ (s.k.priv = true → s.unasked → s.buf = [] → s.access (s.srcS x) n .write pol = .ok (va, ⟨.here pa, attr, tlb⟩) → pa + n ≤ hbmEnd → Memory.wf s.hbm = true →
          exec (amoInstr op d x y m p w64) s = .next (applyAll s (performs s none 0))))
  ∧ (∀ (s : State) (op : AmoOp) (d : SDst) (y : SSrc) (r p : Nat) (t : ATy) (va : VAddr) (pa : Nat) (attr : Attr) (tlb : Tlb),
      let wide := decide (t = .i64 ∨ t = .z64)
      let n := if wide then 8 else 4
      let pol := s.srcY p
      let s1 := s.performing
      let old := Memory.word s1.hbm pa n
      let swap : DWord := match op, d with | .cas, .reg k => s.srcS (.reg k) | _, _ => 0
      let new := amoWord op wide old (s.srcS (.reg (r + 1))) swap
      let missed := s1.acquireOut pol (.here pa) || s1.releaseOut pol (.here pa)
        || (polAcquire pol && s1.acquireDrops s1.k (.here pa) s1.k.nodeId (polScope pol))
      s.regional → s.boundaryReady →
      (s.seq.perform = none → s.requests < 8192 ∧ ∃ va' q, s.remote (s.srcS (.reg r)) (s.srcS y) n .write pol = .ok (va', q) ∧ ∃ pa', q.loc = .here pa') →
      s1.fab.answerTo s1.k.jobtag s1.performer = none → s1.fab.asking s1.k.jobtag s1.performer = false →
      s1.remote (s.srcS (.reg r)) (s.srcS y) n .write pol = .ok (va, ⟨.here pa, attr, tlb⟩) → s1.atomicWaits pol (.here pa) = .ok () →
      pa + n ≤ hbmEnd → Memory.wf s1.hbm = true → (amoIsFloat op = true → wide = false) →
        exec (.amx op d r y p t) s = .next (s.bounded
          ([.setTlb tlb, .hbm pa (match new with | some v => toBytes n v | none => Memory.bytes s1.hbm pa n),
            .setL2 (if new.isSome then l2Span s1.l2 pa n attr true else s1.touch (.here pa) attr false),
            .setRtags (if new.isSome then tagWrite s1.rtags (.here pa) n (s1.relOf pol s1.k.nodeId) else s1.rtags),
            .land 0 (if missed && !s1.k.priv then 0x100#32 else 0) (.scalar d (BitVec.ofNat 64 old))] ++ s1.traceValue (BitVec.ofNat 64 old))))
  ∧ (∀ (s : State) (op : AmoOp) (d : SDst) (x y : SSrc) (m p r : Nat) (w64 : Bool) (t : ATy) (o : Opening) (a : Answer),
      let pol := s.srcY p
      let out := !s.k.inScope (polScope pol) a.node
      let fl : Flags := if (polAcquire pol && (out || !a.keep)) || (polRelease pol && out) then 0x100#32 else 0
      let done : State := applyAll s ((.setFab (s.fab.dropAnswer s.k.jobtag s.performer) : Effect) ::
        (if a.status = 0 then .land 0 fl (.scalar d a.value) :: s.traceValue a.value
          else [.land 0 0 (.scalar d 0), .setErr { s.err with engine := s.err.engine ++ [(s.k.jobtag, 15)] },
            .record 7 (statusTrap a.status a.node a.va).cause 15 a.va 0xF, .notify ⟨.engineError, a.va, 0xF, false, s.sch.running⟩] ++ s.traceValue 0)
        ++ [.perform none, .opens o])
      s.k.priv = false → s.seq.perform = some o → s.fab.answerTo s.k.jobtag s.performer = some a →
        exec (amoInstr op d x y m p w64) s = .next done ∧ exec (.amx op d r y p t) s = .next done)

/-- R122, R247, R251, R254 to R256, R331: a reduction of a program enters the region store buffer, at its page's home or at the target that REDX
names (of CAS with 0 to swap in: the model's reading, log 42); one of the supervisor's performs directly, and waits while the buffer holds an
entry. -/
def Obligations.ReductionsEnterBuffer : Prop :=
  (∀ (s : State) (op : AmoOp) (x y : SSrc) (m p : Nat) (w64 : Bool) (va : VAddr) (pa : Nat) (attr : Attr) (tlb : Tlb),
    let wide := w64 && !amoIsFloat op
    let n := if wide then 8 else 4
    let new := amoWord op wide (Memory.word s.hbm pa n) (s.amoOperand op y m) (s.amoSwap op m)
    s.k.priv = true → s.unasked → s.access (s.srcS x) n .write (s.srcY p) = .ok (va, ⟨.here pa, attr, tlb⟩) →
      (s.buf = [] → pa + n ≤ hbmEnd → Memory.wf s.hbm = true →
        exec (redInstr op x y m p w64) s = .next (applyAll s [.setTlb tlb,
          .hbm pa (match new with | some v => toBytes n v | none => Memory.bytes s.hbm pa n),
          .setL2 (if new.isSome then l2Span s.l2 pa n attr true else s.touch (.here pa) attr false),
          .setRtags (if new.isSome then tagWrite s.rtags (.here pa) n none else s.rtags)]))
      ∧ (s.buf ≠ [] → exec (redInstr op x y m p w64) s = .next (s.stalls 0x09)))
  ∧ ∀ (s : State) (op : AmoOp) (x y : SSrc) (m p r : Nat) (w64 : Bool) (t : ATy) (va : VAddr) (l : Xlat),
    let wide := w64 && !amoIsFloat op
    let n := if wide then 8 else 4
    let wx := decide (t = .i64 ∨ t = .z64)
    let nx := if wx then 8 else 4
    let pol := s.srcY p
    let fl : Flags := if s.releaseOut pol l.loc then 0x100#32 else 0
    s.k.priv = false → s.rgn.isSome = true → s.bufferHas 1 → s.requests < 8192 →
    (s.access (s.srcS x) n .write pol = .ok (va, l) →
        exec (redInstr op x y m p w64) s = .next (({ s with tlb := l.tlb }.buffered 1 pol []
          (.reduce l.loc l.attr va op wide (s.amoOperand op y m) (s.amoSwap op m))).flagged fl))
    ∧ (s.remote (s.srcS (.reg r)) (s.srcS y) nx .write pol = .ok (va, l) →
        let e : BufOp := .reduce l.loc l.attr va op wx (s.srcS (.reg (r + 1))) 0
        (∀ pa, l.loc = .here pa → exec (.redx op r y p t) s = .next (({ s with tlb := l.tlb }.buffered 1 pol [] e).flagged fl))
        ∧ (∀ node a, l.loc = .remote node a → s.flowRoom s.k.jobtag node (polClass pol) = true →
            let q := s.fab.request s.clock s.k.nodeId (.bufCheck s.nextId) 8 node s.k.jobtag (s.routeInfo l.loc pol (amoType op wx) true) []
            exec (.redx op r y p t) s = .next (({ s with fab := q.1 }.buffered 1 pol [q.2] e).flagged fl)))

/-- R243, R244, R247, R251, R258, R259, R276: FENCE enters the buffer once the earlier loads of its classes have arrived and the earlier committed
entries that it covers are gone; PIN, UNPIN, FLUSH and INVAL enter it with the lines of their range, every page translated, and act at once in the
supervisor; PREF touches in the L2 each line of its range that translates and lies here, in their order, and changes nothing but the cache and the
TLB; a range of more than 16 MiB raises the memory-range fault (of PREF: the model's reading, log 35). -/
def Obligations.FencesAndCacheControl : Prop :=
  (∀ (s : State) (x y : SSrc) (p : Nat) (runs : List (Loc × Attr)) (tlb : Tlb),
    let va : VAddr := (s.srcS x).setWidth 48
    let len := (s.srcS y).toNat
    let done (op : CacheOp) : State :=
      let u := runs.foldl (fun (u : State) q => u.cacheLine op q.1 q.2) { s with tlb := tlb }
      { s with tlb := tlb, l2 := u.l2, hst := u.hst }
    s.k.priv = true → s.unasked → len ≤ 0x1000000 → (len = 0 ∨ bits (s.srcS x) 48 16 = 0) →
    s.cacheRuns (s.srcY p) (rangeLines va.toNat len) = .ok (runs, tlb) → (∀ q ∈ runs, ∃ pa, q.1 = .here pa) →
      exec (.pin x y p) s = .next (done .pin) ∧ exec (.unpin x y p) s = .next (done .unpin)
      ∧ exec (.flush x y p) s = .next (done .flush) ∧ exec (.inval x y p) s = .next (done .inval))
  ∧ ∀ (s : State) (mask scope : Nat) (x y : SSrc) (p : Nat) (runs : List (Loc × Attr)) (tlb : Tlb),
    let pol := s.srcY p
    let va : VAddr := (s.srcS x).setWidth 48
    let len := (s.srcS y).toNat
    let entry (op : CacheOp) : State := { s with tlb := tlb }.buffered 1 pol [] (.cache op va len runs)
    s.k.priv = false → s.rgn.isSome = true → s.requests < 8192 →
    (s.bufferHas 1 → (∀ w ∈ s.pipe.waits, w.outstanding = true → ∀ va l a t pol r, w.op = .load va l a t pol r → (BitVec.ofNat 16 mask).getLsbD (polClass pol) = false) →
        s.fenceDone s.k s.committedBuf (BitVec.ofNat 16 mask) scope = true →
        exec (.fence mask scope) s = .next (s.buffered 1 0 [] (.fence (BitVec.ofNat 16 mask) scope)))
    ∧ (s.bufferHas 1 → len ≤ 0x1000000 → (len = 0 ∨ bits (s.srcS x) 48 16 = 0) → s.cacheRuns pol (rangeLines va.toNat len) = .ok (runs, tlb) →
        exec (.pin x y p) s = .next (entry .pin) ∧ exec (.unpin x y p) s = .next (entry .unpin)
        ∧ exec (.flush x y p) s = .next (entry .flush) ∧ exec (.inval x y p) s = .next (entry .inval))
    ∧ (let lines := if bits (s.srcS x) 48 16 = 0 then s.prefLines pol (rangeLines va.toNat len) else ([], s.tlb)
       len ≤ 0x1000000 → s.directOf = 0 → (∀ q ∈ lines.1, ∃ pa, q.2.1 = .here pa) →
        exec (.pref x y p) s = .next
          { s with tlb := lines.2, l2 := (lines.1.foldl (fun (u : State) q => { u with l2 := u.touch q.2.1 q.2.2 false }) s).l2 })
    ∧ (0x1000000 < len → ∀ i ∈ [Instr.pref x y p, .pin x y p, .unpin x y p, .flush x y p, .inval x y p],
        exec i s = .next (s.takeTrap { cause := .memoryRange, eva := va }))

/-- R232, R233, R250: the faults of an access, by its address: bits above bit 47, the first 256 MiB for all but LD, an address that is no multiple of
the width, and in the physical window a program's access, bits 46 to 37 that are not zero, or an address at or above 0x18_0000_0000. -/
def Obligations.AccessFaults : Prop :=
  ∀ (s : State) (d : SDst) (e x : SSrc) (off : Int) (p : Nat) (t : Ty),
    let n := tyBytes t
    let a := s.srcS x + BitVec.ofInt 64 (n * off)
    let va : VAddr := a.setWidth 48
    s.regional → (s.k.priv = true → s.unasked) →
    (bits a 48 16 ≠ 0 → exec (.ld d x off p t) s = .next (s.takeTrap { cause := .address, eva := va })
      ∧ exec (.st e x off p t) s = .next (s.takeTrap { cause := .address, eva := va }))
    ∧ (bits a 48 16 = 0 → va.toNat < 0x10000000 → exec (.st e x off p t) s = .next (s.takeTrap { cause := .address, eva := va }))
    ∧ (bits a 48 16 = 0 → 0x10000000 ≤ va.toNat → va.getLsbD 47 = false → va.toNat % n ≠ 0 →
        exec (.ld d x off p t) s = .next (s.takeTrap { cause := .memoryAlignment, eva := va })
        ∧ exec (.st e x off p t) s = .next (s.takeTrap { cause := .memoryAlignment, eva := va }))
    ∧ (bits a 48 16 = 0 → va.getLsbD 47 = true → va.toNat % n = 0 →
        s.k.priv = false ∨ bits va 37 10 ≠ 0 ∨ 0x1800000000 ≤ bits va 0 37 →
        exec (.ld d x off p t) s = .next (s.takeTrap { cause := .address, eva := va })
        ∧ exec (.st e x off p t) s = .next (s.takeTrap { cause := .address, eva := va }))

/-! ## Vectors -/

/-- R169, R170: VFA and VFX work lane by lane on the active lanes, each result rounded once; VFA lands after four bundles, VFX after eight
(R38). VFMA and VFMS read their destination's lanes. That no result depends on the narrow-saturate bit (log 99) and that exp2 and log2 round the exact
value (log 9) are the model's readings. -/
def Obligations.VectorFloatLanes : Prop :=
  ∀ (s : State) (d : VDst) (n : Nat) (x y : VSrc) (t : FTy),
    let f := ftyFmt t
    let w := f.bytes
    let m := s.fpMode
    let act := laneActive (topMask s.regs.masks) w
    let a (i : Nat) : Nat := laneVal w (s.srcV x) i
    let b (i : Nat) : Nat := laneVal w (s.srcV y) i
    let c (i : Nat) : Nat := laneVal w (s.srcV (.reg n)) i
    Lanewise s (exec (.vadd d x y t) s) 4 w d act (fun i => fpAdd f m (a i) (b i))
    ∧ Lanewise s (exec (.vsub d x y t) s) 4 w d act (fun i => fpSub f m (a i) (b i))
    ∧ Lanewise s (exec (.vmul d x y t) s) 4 w d act (fun i => fpMul f m (a i) (b i))
    ∧ Lanewise s (exec (.vfma n x y t) s) 4 w (.reg n) act (fun i => fpFma f m false (a i) (b i) (c i))
    ∧ Lanewise s (exec (.vfms n x y t) s) 4 w (.reg n) act (fun i => fpFma f m false (a i) (b i) (c i ^^^ f.signBit))
    ∧ Lanewise s (exec (.vmin d x y t) s) 4 w d act (fun i => (fpMin f (a i) (b i), 0))
    ∧ Lanewise s (exec (.vmax d x y t) s) 4 w d act (fun i => (fpMax f (a i) (b i), 0))
    ∧ Lanewise s (exec (.vabs d x t) s) 4 w d act (fun i => (a i % f.signBit, 0))
    ∧ Lanewise s (exec (.vneg d x t) s) 4 w d act (fun i => (a i ^^^ f.signBit, 0))
    ∧ Lanewise s (exec (.vcpys d x y t) s) 4 w d act (fun i => (a i % f.signBit + b i / f.signBit * f.signBit, 0))
    ∧ Lanewise s (exec (.vrcp d x t) s) 8 w d act (fun i => fpRcp f (a i))
    ∧ Lanewise s (exec (.vrsq d x t) s) 8 w d act (fun i => fpRsq f (a i))
    ∧ Lanewise s (exec (.vsqrt d x t) s) 8 w d act (fun i => fpSqrt f (a i))
    ∧ Lanewise s (exec (.vexp2 d x t) s) 8 w d act (fun i => fpExp2 f (a i))
    ∧ Lanewise s (exec (.vlog2 d x t) s) 8 w d act (fun i => fpLog2 f (a i))
    ∧ Lanewise s (exec (.vflr d x t) s) 8 w d act (fun i => fpFlr f (a i))
    ∧ Lanewise s (exec (.vrnd d x t) s) 8 w d act (fun i => fpRnd f m (a i))
    ∧ Lanewise s (exec (.vdiv d x y t) s) 8 w d act (fun i => fpDiv f (a i) (b i))

/-- R171: VIA works on 32-bit lanes and sets no flag. -/
def Obligations.VectorIntegerLanes : Prop :=
  ∀ (s : State) (d : VDst) (x y : VSrc) (sg : Bool),
    let act := laneActive (topMask s.regs.masks) 4
    let a (i : Nat) : BitVec 32 := BitVec.ofNat 32 (laneVal 4 (s.srcV x) i)
    let b (i : Nat) : BitVec 32 := BitVec.ofNat 32 (laneVal 4 (s.srcV y) i)
    let less (p q : BitVec 32) : Bool := if sg then p.slt q else p.ult q
    let lanes (i : Instr) (f : BitVec 32 → BitVec 32 → BitVec 32) : Prop := Lanewise s (exec i s) 4 4 d act (fun i => ((f (a i) (b i)).toNat, 0))
    lanes (.viadd d x y sg) (fun p q => p + q) ∧ lanes (.visub d x y sg) (fun p q => p - q) ∧ lanes (.vimul d x y sg) (fun p q => p * q)
    ∧ lanes (.vand d x y sg) (fun p q => p &&& q) ∧ lanes (.vor d x y sg) (fun p q => p ||| q) ∧ lanes (.vxor d x y sg) (fun p q => p ^^^ q)
    ∧ lanes (.vshl d x y sg) (fun p q => p <<< (q.toNat % 32))
    ∧ lanes (.vshr d x y sg) (fun p q => if sg then p.sshiftRight (q.toNat % 32) else p >>> (q.toNat % 32))
    ∧ lanes (.vimin d x y sg) (fun p q => if less q p then q else p) ∧ lanes (.vimax d x y sg) (fun p q => if less p q then q else p)
    ∧ lanes (.viabs d x) (fun p _ => if p.slt 0 then -p else p)

/-- R163, R167, R168, R172: compares and MSK queue a change made from their operands as they stand, and raise the mask-stack fault by the
projected depth; when a change lands, a push meets the top, MINV takes the parent's other lanes, MSET meets the parent, so that no level
ever has a lane that its parent has not. -/
def Obligations.MaskStackChanges : Prop :=
  (∀ (s : State) (x y : VSrc) (t : VTy) (u : FTy),
      let w := vtyWidth t
      let f := ftyFmt u
      let a (w i : Nat) : Nat := laneVal w (s.srcV x) i
      let b (w i : Nat) : Nat := laneVal w (s.srcV y) i
      let every (w : Nat) (c : Nat → Bool) (i : Nat) : Bool := if w = 2 then c (2 * i) && c (2 * i + 1) else c i
      let cmp (r : Rel) (i : Nat) : Bool := vcmpLane r t (a w i) (b w i)
      let pushes (o : Host.Outcome State Fault Refusal) (lat : Nat) (c : Nat → Bool) : Prop :=
        ∃ m, maskFrom c m ∧ o = .next (s.queued lat 0 (.mask (.push m)))
      (s.projectedDepth < 8 →
        pushes (exec (.vcmpeq x y t) s) 6 (every w (cmp .eq)) ∧ pushes (exec (.vcmpne x y t) s) 6 (every w (cmp .ne))
        ∧ pushes (exec (.vcmplt x y t) s) 6 (every w (cmp .lt)) ∧ pushes (exec (.vcmple x y t) s) 6 (every w (cmp .le))
        ∧ pushes (exec (.vcmpgt x y t) s) 6 (every w (cmp .gt)) ∧ pushes (exec (.vcmpge x y t) s) 6 (every w (cmp .ge))
        ∧ pushes (exec (.vcmpun x y u) s) 6 (every f.bytes fun i => f.isNan (a f.bytes i) || f.isNan (b f.bytes i))
        ∧ pushes (exec (.mpush x) s) 2 (fun i => a 4 i != 0))
      ∧ (8 ≤ s.projectedDepth → ∀ i ∈ [Instr.vcmpeq x y t, .vcmpne x y t, .vcmplt x y t, .vcmple x y t, .vcmpgt x y t, .vcmpge x y t,
          .vcmpun x y u, .mpush x], exec i s = s.raises .maskStack)
      ∧ (0 < s.projectedDepth → (∃ m, maskFrom (fun i => a 4 i != 0) m ∧ exec (.mset x) s = .next (s.queued 2 0 (.mask (.set m))))
          ∧ exec .minv s = .next (s.queued 2 0 (.mask .inv)) ∧ exec .mpop s = .next (s.queued 2 0 (.mask .pop)))
      ∧ (s.projectedDepth = 0 → exec (.mset x) s = s.raises .maskStack ∧ exec .minv s = s.raises .maskStack ∧ exec .mpop s = s.raises .maskStack)
      ∧ exec .mall s = .next (s.queued 2 0 (.mask .all)))
  ∧ (∀ (s : State) (f : InFlight) (c : MaskChange), f.what = .mask c → s.regs.masks.length ≤ 8 →
      let m := s.regs.masks
      let top := m.headD fullMask
      let parent := m.tail.headD fullMask
      let now := (s.land f).regs.masks
      s.land f = { s with regs := { s.regs with masks := now } } ∧ now.length ≤ 8
      ∧ (∀ p, c = .push p → m.length < 8 → now = (p &&& top) :: m)
      ∧ (c = .pop → now = m.tail) ∧ (c = .all → now = [])
      ∧ (c = .inv → m ≠ [] → now = (parent &&& ~~~top) :: m.tail)
      ∧ (∀ p, c = .set p → m ≠ [] → now = (p &&& parent) :: m.tail)
      ∧ ((∀ i, i + 1 < m.length → (m.getD i 0) &&& ~~~(m.getD (i + 1) 0) = 0) →
          ∀ i, i + 1 < now.length → (now.getD i 0) &&& ~~~(now.getD (i + 1) 0) = 0))

/-- R172, R173, R174: VSEL takes active lanes of X and the others of Y, writing every lane; VCVT converts the lanes of its part, those that
are active, and under stochastic rounding draws one number. -/
def Obligations.VectorSelectAndConvert : Prop :=
  ∀ (s : State) (d : VDst) (x y : VSrc) (t : VTy) (src dst part : Nat) (mode : Option Nat),
    let wf := cvtWidth src
    let wt := cvtWidth dst
    let n := 8192 / max wf wt
    let md := match mode with | some c => rmodeOf c | none => s.fpMode
    let draws := md = .sr ∧ cvtDraws (cfmtOf src) (cfmtOf dst) = true
    let s1 := if draws then (s.readsOf [.rngkey]).setFin { s.fin with draws := s.fin.draws + 1 } else s
    let lo := if wf ≤ wt then 0 else part * n
    let act (i : Nat) : Bool := laneActive (topMask s.regs.masks) wt i && decide (lo ≤ i ∧ i < lo + n)
    let from_ (i : Nat) : Nat := laneVal wf (s.srcV x) (if wf ≤ wt then part * n + i else i - lo)
    (∃ r : VReg, exec (.vsel d x y t) s = .next (s.queued 6 0 (.vector d r (BitVec.allOnes 65536)))
      ∧ ∀ i, i < 8192 / vtyWidth t → laneVal (vtyWidth t) r i =
          laneVal (vtyWidth t) (if laneActive (topMask s.regs.masks) (vtyWidth t) i then s.srcV x else s.srcV y) i)
    ∧ (part < max wf wt / min wf wt →
        Lanewise s1 (exec (.vcvt d x src dst part mode) s) 6 wt d act (fun i => s.cvtElem src dst md (s.srBits i) (from_ i)))

/-- R175, R176: a reduction writes lane 0 and zero elsewhere, whatever the mask, and a scalar queue entry; VSCAN writes each prefix of the
active lanes, with the STATUS bits that any of them sets, and the total to the queue. An extreme of no lane sets EMPTYRED. -/
def Obligations.VectorReductions : Prop :=
  ∀ (s : State) (d : VDst) (x : VSrc) (t : FTy) (sg : Bool),
    let f := ftyFmt t
    let w := f.bytes
    let m := arithMode s.fpMode
    let on (w : Nat) : List Nat := (List.range (8192 / w)).filter (laneActive (topMask s.regs.masks) w)
    let vals : List Nat := (on w).map (laneVal w (s.srcV x))
    let red (o : Host.Outcome State Fault Refusal) (v : Nat) (q : DWord) (fl : Flags) : Prop :=
      o = .next ((s.queued 6 fl (.vector d (BitVec.ofNat 65536 v) (BitVec.allOnes 65536))).queued 6 0 (.scalar .queue q))
    let sum := (exactSumOf f vals).pack f m
    red (exec (.vxsum d x t) s) sum.1 (BitVec.ofNat 64 sum.1) sum.2
    ∧ (vals = [] → red (exec (.vrmax d x t) s) (f.inf true) (BitVec.ofNat 64 (f.inf true)) 0x20#32
        ∧ red (exec (.vrmin d x t) s) (f.inf false) (BitVec.ofNat 64 (f.inf false)) 0x20#32
        ∧ red (exec (.vargmax d x t) s) 0xFFFFFFFF 0xFFFFFFFF#64 0x20#32)
    ∧ (vals ≠ [] → (∃ z ∈ vals, f.isNan z = true) → red (exec (.vrmax d x t) s) f.nan (BitVec.ofNat 64 f.nan) 0
        ∧ red (exec (.vrmin d x t) s) f.nan (BitVec.ofNat 64 f.nan) 0)
    ∧ ((∀ z ∈ vals, f.isNan z = false) → ∀ z ∈ vals,
        ((∀ y ∈ vals, f.key y ≤ f.key z) → red (exec (.vrmax d x t) s) z (BitVec.ofNat 64 z) 0)
        ∧ ((∀ y ∈ vals, f.key z ≤ f.key y) → red (exec (.vrmin d x t) s) z (BitVec.ofNat 64 z) 0))
    ∧ (∀ i ∈ on w, (∀ j ∈ on w, f.isNan (laneVal w (s.srcV x) j) = false) →
        (∀ j ∈ on w, f.key (laneVal w (s.srcV x) j) < f.key (laneVal w (s.srcV x) i)
          ∨ (f.key (laneVal w (s.srcV x) j) = f.key (laneVal w (s.srcV x) i) ∧ i ≤ j)) →
        red (exec (.vargmax d x t) s) i (BitVec.ofNat 64 i) 0)
    ∧ (∀ i ∈ on w, f.isNan (laneVal w (s.srcV x) i) = true → (∀ j ∈ on w, j < i → f.isNan (laneVal w (s.srcV x) j) = false) →
        red (exec (.vargmax d x t) s) i (BitVec.ofNat 64 i) 0)
    ∧ (let v : Int := ((on 4).map fun i => laneInt sg (laneVal 4 (s.srcV x) i)).sum
       red (exec (.visum d x sg) s) (BitVec.ofInt 32 v).toNat (BitVec.ofInt 64 v) 0)
    ∧ red (exec (.vpopm d) s) (on 4).length (BitVec.ofNat 64 (on 4).length) 0
    ∧ (∃ (r mk : VReg) (fl : Flags), exec (.vscan d x t) s = .next ((s.queued 6 (fl ||| sum.2) (.vector d r mk)).queued 6 0 (.scalar .queue (BitVec.ofNat 64 sum.1)))
        ∧ (∀ j, j < 65536 → mk.getLsbD j = laneActive (topMask s.regs.masks) w (j / (8 * w)))
        ∧ (let prefix_ (i : Nat) : Nat × Flags := (exactSumOf f (((on w).filter (· ≤ i)).map (laneVal w (s.srcV x)))).pack f m
           (∀ i ∈ on w, laneVal w r i = (prefix_ i).1) ∧ ∀ b, fl.getLsbD b = true ↔ ∃ i ∈ on w, (prefix_ i).2.getLsbD b = true))

/-- R168, R177: the permutes on lanes of four, two or one bytes; VEXT gives a scalar result, VINS writes one lane whatever the mask is, and
MGET lands a register of ones in its active lanes. -/
def Obligations.VectorPermutes : Prop :=
  ∀ (s : State) (d : VDst) (e : SDst) (n : Nat) (x y : VSrc) (a b : SSrc) (t : PTy),
    let w := ptyWidth t
    let c := 8192 / w
    let act := laneActive (topMask s.regs.masks) w
    let i := (s.srcS b).toNat % c
    Lanewise s (exec (.vbcst d a t) s) 6 w d act (fun _ => ((s.srcS a).toNat % 2 ^ (8 * w), 0))
    ∧ Lanewise s (exec (.vrot d x b t) s) 6 w d act (fun j => (laneVal w (s.srcV x) ((j + (s.srcS b).toNat) % c), 0))
    ∧ Lanewise s (exec (.vperm d x y t) s) 6 w d act (fun j =>
        (laneVal w (s.srcV x) (if w = 1 then 256 * (j / 256) + laneVal w (s.srcV y) j else laneVal w (s.srcV y) j % c), 0))
    ∧ Lanewise s (exec (.viota d t) s) 6 w d act (fun j => (j % 2 ^ (8 * w), 0))
    ∧ exec (.vext e x b t) s = .next (s.queued 6 0 (.scalar e (BitVec.ofNat 64 (laneVal w (s.srcV x) i))))
    ∧ Lanewise s (exec (.vins n a b t) s) 6 w (.reg n) (fun j => decide (j = i)) (fun _ => ((s.srcS a).toNat % 2 ^ (8 * w), 0))
    ∧ (∃ r : VReg, exec (.mget d) s = .next (s.queued 2 0 (.vector d r (BitVec.allOnes 65536)))
        ∧ ∀ j, j < 2048 → laneVal 4 r j = if (topMask s.regs.masks).getLsbD j then 0xFFFFFFFF else 0)

/-- R178, R179, R210: VLD and VLDN read 8 KiB of a read vault at issue, VST and VSTN leave theirs for the landing bundle, when their banks take
them; the near forms take eight bundles and name vaults 0 to 15. A bad address or vault raises its fault, with EVA 0 (log 68, the model's reading, as is
the order of the checks, log 110). -/
def Obligations.VectorLoadsAndStores : Prop :=
  ∀ (s : State) (d : VDst) (v : VSrc) (x : SSrc) (off : Int) (a : Nat),
    let at_ : Int := (bits (s.srcS x) 0 28 : Int) + 64 * off
    let good := a < 2 ^ 28 ∧ a % 64 = 0 ∧ spExtent a 8192 = true
    let may (u : VUse) : Prop := s.k.priv = true ∨ s.discipline (vaultOf a) u = true
    let bs := banksOf [(a, 8192)]
    let free : Prop := s.bankWait bs = .ok () ∧ (s.k.priv = true → s.testingVault (vaultOf a) = false)
    let loads (o : Host.Outcome State Fault Refusal) (lat : Nat) : Prop :=
      ∃ r : VReg, o = .next ((s.queued lat 0 (.vector d r (BitVec.allOnes 65536))).banking bs lat) ∧ ∀ i, i < 8192 → laneVal 1 r i = (Memory.read s.sp (a + i)).toNat
    s.regional →
    (at_ = a → good → Memory.wf s.sp = true → may .read → free → loads (exec (.vld d x off) s) 16 ∧ (vaultOf a < 16 → loads (exec (.vldn d x off) s) 8))
    ∧ (at_ = a → good → may .write → free → s.storeWaits [(a, 8192)] = .ok () →
        exec (.vst v x off) s = .next ((s.queued 16 0 (.store a (s.srcV v))).banking bs 16)
        ∧ (vaultOf a < 16 → exec (.vstn v x off) s = .next ((s.queued 8 0 (.store a (s.srcV v))).banking bs 8)))
    ∧ (at_ = a → good → 16 ≤ vaultOf a → exec (.vldn d x off) s = s.raises .nearVault ∧ exec (.vstn v x off) s = s.raises .nearVault)
    ∧ (at_ = a → ¬ good → ∀ i ∈ [Instr.vld d x off, .vldn d x off, .vst v x off, .vstn v x off], exec i s = s.raises .scratchpadAddress)
    ∧ (at_ < 0 → ∀ i ∈ [Instr.vld d x off, .vldn d x off, .vst v x off, .vstn v x off], exec i s = s.raises .scratchpadAddress)
    ∧ (at_ = a → good → ¬ may .read → exec (.vld d x off) s = s.raises .vaultDiscipline
        ∧ (vaultOf a < 16 → exec (.vldn d x off) s = s.raises .vaultDiscipline))
    ∧ (at_ = a → good → ¬ may .write → exec (.vst v x off) s = s.raises .vaultDiscipline
        ∧ (vaultOf a < 16 → exec (.vstn v x off) s = s.raises .vaultDiscipline))

/-- R180, R181, R210: VGATH and VLDS wait for their elements with their destination marked; VSCAT waits to write its own, once the scatters and
drains before it that it overlaps are done; each when its banks take it. -/
def Obligations.GathersAndScatters : Prop :=
  ∀ (s : State) (d : VDst) (v y : VSrc) (x z : SSrc) (res : Bool) (w : EW),
    let b := bits (s.srcS x) 0 28
    let top := topMask s.regs.masks
    let again (t : State) : State := if res then t.resuming else t
    let xs := scatterExtents b (ewBytes w) (active top 4) (lanes 4 (s.srcV y))
    let zs := stridedExtents b (ewBytes w) (s.srcS z) top
    s.regional → b % ewBytes w = 0 →
    (s.noClash (vDstUnits d) → s.bankWait (banksOf xs) = .ok () → exec (.vgath d x y res w) s = .next ((again ((s.writesOf (vDstUnits d)).banking
        (banksOf xs) 32)).awaiting ⟨0, 0, 0, false, false, none, some d, maskBits top 4, none, 32, false, .no, .gather b (s.srcV y) top w res⟩))
    ∧ (s.noClash (vDstUnits d) → (s.srcS z).toInt % ewBytes w = 0 → s.bankWait (banksOf zs) = .ok () →
        exec (.vlds d x z w) s = .next (((s.writesOf (vDstUnits d)).banking (banksOf zs) 32).awaiting
          ⟨0, 0, 0, false, false, none, some d, maskBits top (ewBytes w), none, 32, false, .no, .strided b (s.srcS z) top w⟩))
    ∧ (s.storeWaits xs = .ok () → s.bankWait (banksOf xs) = .ok () →
        exec (.vscat v x y res w) s = .next ((again (s.banking (banksOf xs) 32)).awaiting
          ⟨0, 0, 0, false, false, none, none, 0, none, 32, true, .no, .scatter b (s.srcV v) (s.srcV y) top w res⟩))

/-! ## The matrix array and the transposer -/

/-- R183, R191, R192, R197 to R205: in region mode a matrix instruction whose operands are good enters the queue with what it has read, or
stalls while the queue is full; MWAIT of an idle array does nothing; MSTAT lands the array's state; a format outside R183 and R200 faults, and
outside region mode every one of them. TXPI and TXPC land in their block after twelve bundles; TXPO lands a group of the block's transpose. -/
def Obligations.MatrixInstructionsEnterQueue : Prop :=
  (∀ (s : State) (c : TileSel) (t q b n a i : Nat) (k x : SSrc) (res clr : Bool) (d : SDst) (f : LFmt),
      let fmt := s.regs.fmt
      let k32 : BitVec 32 := (s.srcS k).setWidth 32
      let regs (r : Nat) : List DWord := [s.srcS (.reg r), s.srcS (.reg (r + 1))]
      let fits (r : Nat) (g : Bool) : Prop := descOk (s.srcS (.reg r)) (s.srcS (.reg (r + 1))) g = true
      let grouped := isGroup (fmtB fmt)
      let licensed : Prop := fmtB fmt = 5 → s.feature 4 = true
      let s1 := if res then s.resuming else s
      let addr := bits (s.srcS x) 0 28
      let vecs := (List.range k32.toNat).map fun i => 2 * q + i
      let enters (i : Instr) (t : State) : Prop :=
        (s.mat.queue.length < 8 → exec i s = .next t) ∧ (8 ≤ s.mat.queue.length → exec i s = .next (s.stalls 0x0A))
      (s.rgn.isSome = true →
        (s.namesTile c t → licensed → k32.toNat ≤ 65535 → fits (2 * b) grouped → ∀ p, matPair (fmtA fmt) (fmtB fmt) = some p →
          (fits (2 * q) false →
            enters (.mmac c (.pair q) b k res) (s1.enqueued (.mac false t (regs (2 * q)) [] (regs (2 * b)) k32 res))
            ∧ enters (.mmul c (.pair q) b k res) (s1.enqueued (.mac true t (regs (2 * q)) [] (regs (2 * b)) k32 res)))
          ∧ (p.t ≤ 48 → k32.toNat ≤ 8 → 2 * q + k32.toNat ≤ 80 → (∀ v ∈ vecs, s.pendV v = false) →
              (∀ e ∈ s.mat.queue, ∀ m t av b k r, e.op ≠ .mac m t [] av b k r) →
              let vs := vecs.map fun v => s.srcV (.reg v)
              enters (.mmac c (.vec q) b k res) ((s1.readsOf (vecs.map .v)).enqueued (.mac false t [] vs (regs (2 * b)) k32 res))
              ∧ enters (.mmul c (.vec q) b k res) ((s1.readsOf (vecs.map .v)).enqueued (.mac true t [] vs (regs (2 * b)) k32 res))))
        ∧ (s.namesTile c t → enters (.mzero c) (s.enqueued (.zero t))
            ∧ (addr % 64 = 0 → s.mayUse addr (16384 * lfmtBytes f) .read → enters (.mloadc c f x) (s.enqueued (.load t f addr)))
            ∧ (addr % 64 = 0 → (fmtD fmt ≤ 3 ∨ fmtD fmt = 10) → s.mayUse addr (16384 * drainBytes (fmtD fmt)) .write →
                s.bitmapPending addr (16384 * drainBytes (fmtD fmt)) = false →
                enters (.mdrain c x) ((if fmtMode fmt = .sr then s.drawing else s).enqueued
                  (.drain t addr s.k.rngKey (s.k.rngCtr + BitVec.ofNat 64 s.fin.draws)))))
        ∧ (licensed → k32.toNat ≤ 65535 → (matPair (fmtA fmt) (fmtB fmt)).isSome = true → fits n false → fits a grouped →
            enters (.manch k n a) (s.enqueued (.anchor k32 (regs n) (regs a))))
        ∧ (s.mat.queue = [] → exec .mwait s = .next s)
        ∧ (s.mat.queue ≠ [] → enters .mwait (s.enqueued .wait))
        ∧ (s.mat.queue.length ≤ 8 → ∃ v : DWord,
            exec (.mstat d clr i) s = .next (if clr then (s.queued 2 0 (.scalar d v)).queued 2 0 (.sticky s.mat.sticky) else s.queued 2 0 (.scalar d v))
            ∧ bits v 54 10 = (s.mat.tile i).anchor.toNat ∧ bits v 44 10 = s.mat.aanch.toNat ∧ bits v 40 4 = s.mat.queue.length
            ∧ (∀ j, j < 8 → (v.getLsbD (32 + j) = true ↔ ∃ e ∈ s.mat.queue, e.op.tile = some j)) ∧ bits v 6 26 = 0 ∧ bits v 0 6 = s.mat.sticky.toNat)
        ∧ (licensed → matPair (fmtA fmt) (fmtB fmt) = none → ∀ ap, ∀ ins ∈ [Instr.mmac c ap b k res, .mmul c ap b k res, .manch k n a],
            exec ins s = s.raises .operandFormat)
        ∧ (¬ (fmtD fmt ≤ 3 ∨ fmtD fmt = 10) → exec (.mdrain c x) s = s.raises .operandFormat))
      ∧ (s.rgn = none → ∀ ap, ∀ ins ∈ [Instr.mmac c ap b k res, .mmul c ap b k res, .mzero c, .mloadc c f x, .mdrain c x, .manch k n a, .mwait, .mstat d clr i],
          exec ins s = s.raises .regionContext))
  ∧ (∀ (s : State) (v : VSrc) (d : VDst) (b : Bool) (g : Nat), g < 8 → s.regional →
      let block : TBlock := if b then s.regs.tp1 else s.regs.tp0
      let elem (x : TBlock) (row col : Nat) : Nat := (x.extractLsb' (32 * (128 * row + col)) 32).toNat
      exec (.txpi v b g) s = .next (s.queued 12 0 (.tpGroup b g (s.srcV v)))
      ∧ exec (.txpc b) s = .next (s.queued 12 0 (.tpClear b))
      ∧ (∃ r : VReg, exec (.txpo d b g) s = .next (s.queued 12 0 (.vector d r (BitVec.allOnes 65536)))
          ∧ ∀ i j, i < 16 → j < 128 → laneVal 4 r (128 * i + j) = elem block j (16 * g + i))
      ∧ (∀ (x : VReg), let now : TBlock := tpFill block g x
          ∀ row col, row < 128 → col < 128 → elem now row col = if row / 16 = g then laneVal 4 x (128 * (row % 16) + col) else elem block row col))

/-- R190, R191, R196, R199 to R202: what the operation at the head of the queue does, and nothing else: every K step of an MMAC or MMUL adds to every
cell, and sets what its sums set; MZERO, MLOADC and MMUL start a version; MDRAIN writes the cells in rising order; MANCH limits its anchor to ten bits. -/
def Obligations.MatrixOperationsExecute : Prop :=
  ∀ (s : State) (e : MatEntry),
    let rest := s.restOfQueue
    let start := s.startAnchor e
    let cell (t : Tile) (n : Nat) : Cell := (t.dense[n]?).getD .zero
    s.mat.queue.head? = some e →
    (∀ t, e.op = .zero t → exec .mzeroExecute s = .next { s with mat := { s.mat with work := s.mat.work.set t ⟨start, []⟩, queue := rest } })
    ∧ (∀ t f addr, e.op = .load t f addr → Memory.wf s.sp = true →
        let n := lfmtBytes f
        let made (i : Nat) : Cell × Marks := loadCells f start.toInt (Memory.word s.sp (addr + n * i) n)
        ∃ (tile : Tile) (m : Marks), exec .mloadcExecute s = .next ({ s with mat := { s.mat with work := s.mat.work.set t tile, queue := rest } }.marked m)
          ∧ tile.anchor = start ∧ (∀ i, i < 16384 → cell tile i = (made i).1)
          ∧ (∀ b, m.1.getLsbD b = true ↔ ∃ i, i < 16384 ∧ (made i).2.1.getLsbD b = true)
          ∧ (∀ b, m.2.getLsbD b = true ↔ ∃ i, i < 16384 ∧ (made i).2.2.getLsbD b = true))
    ∧ (∀ t addr key ctr, e.op = .drain t addr key ctr → s.drainWaits e = false → Memory.wf s.sp = true →
        let n := drainBytes (fmtD e.fmt)
        let out (i : Nat) : Nat × Flags := drainCell e (s.mat.tile t).anchor.toInt key ctr (cell (s.mat.tile t) i) i
        ∃ (sp : List Host.Cell) (fl : Flags), exec .mdrainExecute s = .next ({ s with sp := sp, mat := { s.mat with queue := rest } }.setStatus fl)
          ∧ (∀ x, Memory.read sp x = if addr ≤ x ∧ x < addr + 16384 * n then BitVec.ofNat 8 ((out ((x - addr) / n)).1 / 256 ^ ((x - addr) % n))
              else Memory.read s.sp x)
          ∧ (∀ b, fl.getLsbD b = true ↔ ∃ i, i < 16384 ∧ (out i).2.getLsbD b = true))
    ∧ (∀ mul t a av b (k : BitVec 32) p (A B : Nat → List (Option (List FVal))), e.op = .mac mul t a av b k false →
        matPair (fmtA e.fmt) (fmtB e.fmt) = some p →
        (∀ j, j < k.toNat → s.stepScales (fmtB e.fmt) b j = .ok () ∧ s.aRows (fmtA e.fmt) p a av j = .ok (A j) ∧ s.bRows (fmtB e.fmt) p b j = .ok (B j)) →
        let old : Tile := if mul then ⟨start, []⟩ else s.mat.tile t
        let step (r c j : Nat) (x : Cell) : Cell × Marks := stepCell old.anchor.toInt p.t (((A j)[r]?).getD none) (((B j)[c]?).getD none) x
        let after (r c n : Nat) : Cell := (List.range n).foldl (fun x j => (step r c j x).1) (cell old (128 * r + c))
        let sets (b : Marks → Bool) : Prop := ∃ j r c, j < k.toNat ∧ r < 128 ∧ c < 128 ∧ b (step r c j (after r c j)).2 = true
        ∃ (tile : Tile) (m : Marks), exec .mmacExecute s = .next ({ s with mat := { s.mat with work := s.mat.work.set t tile, queue := rest } }.marked m)
          ∧ tile.anchor = old.anchor ∧ (∀ r c, r < 128 → c < 128 → cell tile (128 * r + c) = after r c k.toNat)
          ∧ (∀ b, m.1.getLsbD b = true ↔ sets fun x => x.1.getLsbD b) ∧ (∀ b, m.2.getLsbD b = true ↔ sets fun x => x.2.getLsbD b))
    ∧ (∀ (k : BitVec 32) a b p, e.op = .anchor k a b → matPair (fmtA e.fmt) (fmtB e.fmt) = some p →
        (s.autoAnch e.fmt p a b k.toNat = .ok none → exec .manchExecute s = .next { s with mat := { s.mat with aanch := 0, queue := rest } })
        ∧ (∀ x y : Int, s.autoAnch e.fmt p a b k.toNat = .ok (some (x, y)) →
            let v := x + y - 14
            exec .manchExecute s = .next ({ s with mat := { s.mat with aanch := BitVec.ofInt 10 (max (-512) (min 511 v)), queue := rest } }.setSticky
              (if -512 ≤ v ∧ v ≤ 511 then 0 else 0x20#6))))

/-! ## Exchanges -/

/-- R293, R302 to R306, R312 to R319: EXCH, EXSB and EXCC across one logical dimension whose ports are idle: the port records the exchange
under its number, which it advances, and its post leaves; no data moves yet. A dimension outside the subcube, a length that is no multiple
of four, and a misaligned end raise their faults. -/
def Obligations.ExchangesPost : Prop :=
  (∀ (s : State) (d sighi op : Nat) (x y : SSrc),
      let X := s.srcS x
      let Y := s.srcS y
      let n := bits X 28 28
      let a := bits X 0 28
      let b := bits Y 0 28
      let w := bits Y 41 5 * 2 ^ 23 + bits Y 28 13 * 8
      let p := mapDim s.k.dimmap d
      let up := s.k.lnode.getLsbD d
      let elem := if op = 1 then 8 else if op = 2 then 16 else 4
      let j := s.xch.at p s.k.jobtag
      let posts (i : Instr) (src send dst recv own : Nat) (first : Bool) : Prop := ∃ r : XchRec,
        exec i s = .next { s with
          xch := s.xch.put p ⟨s.k.jobtag, j.xseq + 1, [r], []⟩
          fab := updLink s.fab p (·.send 1 (s.postOf s.k.jobtag r))
          nextId := s.nextId + 1 }
        ∧ r.xseq = j.xseq ∧ r.phase = .posted ∧ r.partner = s.k.peer (2 ^ d) ∧ r.src = src ∧ r.sendLen = send ∧ r.dst = dst ∧ r.recvLen = recv
        ∧ r.own = own ∧ r.first = first ∧ r.fields.len = BitVec.ofNat 64 n ∧ r.sigAddr = w
        ∧ r.sigVal = BitVec.ofNat 64 (sighi % 256 * 2 ^ 18 + bits Y 46 18) ∧ r.sent = 0 ∧ r.landed = 0
      let combines : List Instr := [.exccFsum d x y sighi, .exccIsum d x y sighi, .exccLsum d x y sighi, .exccFmax d x y sighi, .exccFmin d x y sighi,
        .exccImax d x y sighi, .exccImin d x y sighi, .exccBand d x y sighi, .exccBor d x y sighi]
      s.regional → s.k.consistent = true → d < s.k.m → p < 14 → s.portsIdle → s.lost (s.k.peer (2 ^ d)) = false →
      bits X 56 8 = 0 → n % 4 = 0 → 0 < n → s.mayExchange w 8 .neither →
      (a % 4 = 0 → b % 4 = 0 → s.mayExchange a n .read → s.mayExchange b n .neither → posts (.exch d x y sighi) a n b n 0 false)
      ∧ (up = true → a % 4 = 0 → s.mayExchange a n .read → posts (.exsb d x y sighi) a n b 0 0 false)
      ∧ (up = false → b % 4 = 0 → s.mayExchange b n .neither → posts (.exsb d x y sighi) a 0 b n 0 false)
      ∧ (n % (2 * elem) = 0 → a % elem = 0 → b % elem = 0 → vaultOf a ≠ vaultOf b → s.mayExchange a n .read → s.mayExchange b (n / 2) .neither →
          ∀ i, combines[op]? = some i →
            (up = true → posts i a (n / 2) b (n / 2) (a + n / 2) false) ∧ (up = false → posts i (a + n / 2) (n / 2) b (n / 2) a true)))
  ∧ (∀ (s : State) (d sighi : Nat) (x y : SSrc), s.regional →
      let X := s.srcS x
      let Y := s.srcS y
      (¬ (s.k.consistent = true ∧ d < s.k.m) → exec (.exch d x y sighi) s = s.raises .dimension ∧ exec (.exsb d x y sighi) s = s.raises .dimension
        ∧ exec (.exccFsum d x y sighi) s = s.raises .dimension)
      ∧ (s.k.consistent = true → d < s.k.m → (bits X 56 8 ≠ 0 ∨ bits X 28 28 % 4 ≠ 0 ∨ bits X 0 28 % 4 ≠ 0 ∨ bits Y 0 28 % 4 ≠ 0) →
          exec (.exch d x y sighi) s = s.raises .exchangeDescriptor))

/-- R294, R315, R318: TRAV posts to its successor on the ring and expects its predecessor's data (one exchange where they are one node), and EXMD
posts on every dimension of its set, its descriptors moved by VSTRIDE vaults from one to the next; a resumable EXMD holds its data to its first
chunk. -/
def Obligations.RingsAndMultidimensionalExchangesPost : Prop :=
  ∀ (s : State) (set x y : SSrc) (dir : Dir) (kind : XKind) (res : Bool) (sighi : Nat),
    let D := s.srcS set
    let S := bits D 0 14
    let X := s.srcS x
    let Y := s.srcS y
    let n := bits X 28 28
    let stride := bits D 16 5
    let dims := KRegs.setDims S
    let named (ls : List Leg) : List Leg := ls.map fun l => { l with rcd := { l.rcd with group := s.nextId } }
    let ready (ls : List Leg) : Prop := (∀ l ∈ ls, s.legCheck l = .ok () ∧ l.port < 14 ∧ s.lost l.rcd.partner = false) ∧ (ls.map (·.port)).Nodup
    let posts (i : Instr) (s1 : State) (ls : List Leg) : Prop :=
      exec i s = .next { s1 with xch := (s.posting (named ls)).xch, fab := (s.posting (named ls)).fab, nextId := s.nextId + 1 }
    s.regional → s.portsIdle → s.k.consistent = true → S < 2 ^ s.k.m → S ≠ 0 → bits D 21 43 = 0 → bits D 14 2 = 0 →
    (stride = 0 → let legs := s.travLegs S dir X Y sighi
        ready legs → posts (.trav set x y dir sighi) s legs
        ∧ (let q := s.k.pos S
           let next := s.k.ring S ((q + 1) % 2 ^ dims.length)
           let prev := s.k.ring S ((q + 2 ^ dims.length - 1) % 2 ^ dims.length)
           let to_ := match dir with | .fwd => next | .bwd => prev
           let from_ := match dir with | .fwd => prev | .bwd => next
           (to_ = from_ → ∃ l, legs = [l] ∧ l.rcd.partner = to_ ∧ l.rcd.sendLen = n ∧ l.rcd.recvLen = n)
           ∧ (to_ ≠ from_ → ∃ l m, legs = [l, m] ∧ l.rcd.partner = to_ ∧ l.rcd.sendLen = n ∧ l.rcd.recvLen = 0
              ∧ m.rcd.partner = from_ ∧ m.rcd.sendLen = 0 ∧ m.rcd.recvLen = n)))
    ∧ ((stride ≠ 0 ∨ dims.length < 2) →
        (∀ j, j < dims.length → vaultOf (bits X 0 28) + j * stride < 32 ∧ vaultOf (bits Y 0 28) + j * stride < 32) →
        ∀ legs : List Leg, legs.length = dims.length →
        (∀ j l t, legs[j]? = some l → dims[j]? = some t →
          let r := s.legAcross (xkindOf kind) true S t (moved X j stride) (moved Y j stride) sighi res
          l = if res then { r with rcd := { r.rcd with limit := min r.rcd.sendLen (s.progress + 65536) } } else r) →
        ready legs → posts (.exmd set x y kind res sighi) (if res then s.resuming else s) legs)
    ∧ (∀ j, j < dims.length → vaultOf (bits X 0 28) + j * stride < 32 → moved X j stride = X + BitVec.ofNat 64 (j * stride * 2 ^ 23))

/-- R300, R306 to R308, R310, R316, R406: a post that comes before its exchange is held, and one that has been here does nothing; one that agrees with the
exchange that waits for it admits it, and the data leaves in packets of at most 1,024 bytes, each with its offset, and counts in OUTD; data lands at the
destination, combined where the kind says so, and is acknowledged by the number of bytes that have landed (the model's reading, log 22), and data that
has landed before is acknowledged again and lands no second time; the last data packet of an exchange that has sent all and had it acknowledged, and the
acknowledgement that completes it, write its signal word once. -/
def Obligations.ExchangePacketsArrive : Prop :=
  ∀ (s : State),
    let p := s.ev.packet
    let d := s.portFrom p
    let j := s.xch.at d p.job
    let others : Prop := ∀ q, q ≠ d → ∀ k ∈ (s.xch.ports[q]?).getD [], k.job = p.job → k.recs = []
    s.xch.ports.length = 14 → d < 14 → others →
    (j.recs = [] → j.known p.xseq = false → exec .exchangePostArrival s = .next { s with xch := s.xch.put d { j with posts := j.posts ++ [p] } })
    ∧ (j.known p.xseq = true → exec .exchangePostArrival s = .next s)
    ∧ (∀ r, j.recs = [r] → j.posts = [] → r.phase = .posted → r.xseq = p.xseq → p.fields = r.fields → s.legOwned p.job r = true → r.sent = 0 →
        r.acked = 0 → r.landed = 0 → (r.sendLen ≠ 0 ∨ r.recvLen ≠ 0) →
        let data : List Packet := (List.range ((r.limit + 1023) / 1024)).map fun i => exchangePacket 0 1 s.k.nodeId r.partner p.job (1024 * i) (p.xaddr + 1024 * i)
          (BitVec.ofNat 64 (xseqWord r.xseq)) 0 0 0 (Memory.bytes s.sp (r.src + 1024 * i) (min 1024 (r.limit - 1024 * i)))
        let left : State := if r.limit = 0 then s else s.dataLeaves p.job (if r.commits then none else r.region)
          (match (s.kOf p.job).logicalDim d with | some i => BitVec.twoPow 14 i | none => 0)
        exec .exchangePostArrival s = .next { left with
          xch := s.xch.put d { j with recs := [{ r with phase := .admitted, far := p.xaddr, sent := r.limit }] }
          fab := data.foldl (fun f q => updLink f d (·.send 1 q)) s.fab })
    ∧ (∀ r, j.recs = [r] → r.phase = .admitted → r.xseq = p.xseq → p.offset ≠ r.landed →
        exec .exchangeDataArrival s = .next { s with fab := updLink s.fab d (·.send 1 (s.xchAck p.job r)) })
    ∧ (∀ r, j.recs = [r] → r.phase = .admitted → r.xseq = p.xseq → p.offset = r.landed → Memory.wf s.sp = true →
        let bs := p.payload.take (r.recvLen - p.offset)
        let a := r.dst + p.offset
        let r1 := { r with landed := r.landed + bs.length }
        let over_ : Prop := r1.landed = r.recvLen ∧ r.sent = r.sendLen ∧ r.acked = r.sendLen
        (∃ v, s.vaults[vaultOf a]? = some v ∧ v.owner = p.job ∧ v.quarantined = false ∧ v.state = .owned) →
        (∀ op, r.kind = .excc op → bs.length % combElem op = 0) →
        ∃ (sp : List Host.Cell) (fl : Flags),
          let fab := updLink s.fab d (·.send 1 (s.xchAck p.job r1))
          let tags := tagWrite s.rtags (.spad a) bs.length none
          (¬ over_ → exec .exchangeDataArrival s = .next ({ s with sp := sp, rtags := tags, xch := s.xch.put d { j with recs := [r1] }, fab := fab }.setStatus fl))
          ∧ (over_ → exec .exchangeDataArrival s = .next ({ s with
              sp := Memory.write sp r.sigAddr (toBytes 8 r.sigVal.toNat), rtags := tagWrite tags (.spad r.sigAddr) 8 (some (s.k.nodeId, 0)), fab := fab
              xch := s.xch.put d { j with recs := if r.commits then [] else [{ r1 with phase := .done }] } }.setStatus fl))
          ∧ (∀ q, q < a ∨ a + bs.length ≤ q → Memory.read sp q = Memory.read s.sp q)
          ∧ ((∀ op, r.kind ≠ .excc op) → fl = 0 ∧ ∀ i, i < bs.length → Memory.read sp (a + i) = (bs[i]?).getD 0)
          ∧ (∀ op i, r.kind = .excc op → let e := combElem op; i < bs.length / e →
              let mine := Memory.word s.sp (r.own + p.offset + e * i) e
              let theirs := leNat ((bs.drop (e * i)).take e)
              Memory.word sp (a + e * i) e = (if r.first then comb op mine theirs else comb op theirs mine).1 % 256 ^ e))
    ∧ (∀ r, j.recs = [r] → r.phase = .admitted → r.xseq = p.xseq → r.sent = r.sendLen → r.landed = r.recvLen → p.offset = r.sendLen → r.acked ≤ r.sendLen →
        let r1 := { r with acked := r.sendLen, phase := .done }
        exec .exchangeAckArrival s = .next { s with
          xch := s.xch.put d { j with recs := if r.commits then [] else [r1] }
          sp := Memory.write s.sp r.sigAddr (toBytes 8 r.sigVal.toNat)
          rtags := tagWrite s.rtags (.spad r.sigAddr) 8 (some (s.k.nodeId, 0)) })

/-! ## The fabric, copies, synchronisation -/

/-- R336, R344, R345, R347, R348: MCAST and MCASTO read their source at once, send a check to every receiver for every page, and enter the
buffer; LSTAT lands the record of a link or of the router; PROBE answers at once where nothing is blocked, and otherwise sends a probe
along every edge. One check to a receiver for each page (log 53), and LSTAT and PROBE of the supervisor outside region mode (log 19), are the model's
readings. -/
def Obligations.MulticastsProbesAndLinkReports : Prop :=
  (∀ (s : State) (set x y : SSrc) (p : Nat) (ordered : Bool),
      let pol := s.srcY p
      let X := s.srcS x
      let n := bits X 28 28
      let a := bits X 0 28
      let va : VAddr := (s.srcS y).setWidth 48
      let dims := BitVec.ofNat 14 (bits (s.srcS set) 0 14)
      let peers := (spanned s.k.nodeId (s.physMask dims)).filter fun m => m != s.k.nodeId
      let addrs := checkAddrs va.toNat n
      let sent := s.checksSent peers addrs pol
      let inScope := (spanned s.k.nodeId (s.physMask dims)).all (s.k.inScope (polScope pol))
      s.k.priv = false → s.rgn.isSome = true → s.k.setOk (s.srcS set) false = true → bits X 56 8 = 0 → n % 4 = 0 → 4 ≤ n → n ≤ 65536 →
      bits (s.srcS y) 48 16 = 0 → va.getLsbD 47 = false → va.getLsbD 46 = true → va.toNat % 4 = 0 → s.mayUse a n .read → s.vaultOwned (vaultOf a) = true →
      (∀ m ∈ peers, s.lost m = false) → (ordered = true → s.lost (s.serialiser dims) = false) →
      (∀ b ∈ addrs, ∃ q, s.targetLoc s.k.jobtag 0 (BitVec.ofNat 48 b) 4 true = .ok q) → s.bufferHas ((n + 63) / 64) →
      (∀ m ∈ peers, let t := s.fab.flowTo s.k.jobtag m (polClass pol)
        t.retiring = false ∧ t.unacked.length + s.loadsFor s.k.jobtag m (polClass pol) + addrs.length ≤ 32) →
        exec (if ordered then .mcasto set x y p else .mcast set x y p) s = .next
          ((({ s with fab := sent.1 }.buffered ((n + 63) / 64) pol sent.2 (.mcast ordered dims va (Memory.bytes s.sp a n))).awaiting
            ⟨0, 0, 0, false, false, none, none, 0, none, 0, true, .no, .mcastRead⟩).flagged (if polRelease pol && !inScope then 0x100#32 else 0)))
  ∧ (∀ (s : State) (d : SDst) (x y : SSrc),
      let v := s.srcS x
      let lands (q : DWord → Prop) : Prop := ∃ r : DWord, exec (.lstat d x) s = .next (s.queued 2 0 (.scalar d r)) ∧ q r
      let a := bits v 0 28
      let tag := BitVec.ofNat 16 (bits (s.srcS y) 0 16)
      s.regional →
      (∀ l, bits v 4 60 = 0 → s.k.consistent = true → bits v 0 4 < s.k.m → s.fab.links[mapDim s.k.dimmap (bits v 0 4)]? = some l →
          lands fun r => bits r 0 16 = linkState s.k.linkstat (mapDim s.k.dimmap (bits v 0 4)) ∧ bits r 16 16 = min l.errors 65535
            ∧ bits r 32 16 = min l.tagFails 65535 ∧ bits r 48 16 = min l.replays 65535)
      ∧ (v = 0x10#64 → lands fun r => bits r 0 16 = min s.fab.resent 65535 ∧ bits r 16 16 = s.fab.token.lapsSeen.toNat
            ∧ bits r 32 32 = s.fab.token.drained % 2 ^ 32)
      ∧ (bits v 4 60 = 0 → ¬ (s.k.consistent = true ∧ bits v 0 4 < s.k.m) → exec (.lstat d x) s = s.raises .dimension)
      ∧ (bits (s.srcS y) 16 48 = 0 → bits v 28 36 = 0 → a % 8 = 0 → s.mayName a 8 .neither → (s.k.priv = true ∨ s.vaultOwned (vaultOf a) = true) →
          (s.blocked s.k.jobtag = false → exec (.probe x y) s = .next { s with
            sp := Memory.write s.sp a (toBytes 8 tag.toNat), rtags := tagWrite s.rtags (.spad a) 8 (some (s.k.nodeId, 0)) })
          ∧ (s.blocked s.k.jobtag = true →
            let f := (s.sendProbes s.k.nodeId s.k.jobtag tag 0).fab
            exec (.probe x y) s = .next { s with
              fab := { f with probes := f.probes ++ [⟨s.nextId, tag, a, s.clock + 1800000, s.k.jobtag⟩] }, nextId := s.nextId + 1 })))

/-- R207, R214, R215, R217 to R221, R224 to R226: a copy reads its descriptor at issue and becomes a command; a linear copy between vaults
that the job owns, outside the region's destinations, is admitted, moves every byte, writes its signal word last, and is gone; an engine
error stops it. -/
def Obligations.CopiesIssueAndRun : Prop :=
  (∀ (s : State) (r : Region) (kind : CopyKind) (x y : SSrc) (res : Bool),
      let a := bits (s.srcS x) 0 28
      let desc := Memory.dwords s.sp a 8
      let mapAt := bits (dwAt desc 4) 0 28
      let set := if kind = .lattice then bits (s.srcS y) 0 14 else 0
      let node := if kind = .lattice then s.k.peer set else s.k.nodeId
      let pol (i lo : Nat) : BitVec 32 := s.srcY (bits (dwAt desc i) lo 3)
      let c0 : CopyCmd :=
        { id := s.nextId, slot := s.seq.bun.slot, seq := s.seq.count, since := r.seq, job := s.k.jobtag, kind := kind, desc := desc,
          map := if kind = .walk then Memory.dwords s.sp mapAt 8 else [], spol := pol 0 49, dpol := pol 1 49, sigpol := pol 2 28,
          set := BitVec.ofNat 14 set, res := res, prog := 0, rmask := r.rmask, wmask := r.wmask, region := some r.id, sup := false, cube := s.k.cube,
          leaves := [], data := [], admitted := false, waitsVault := false, out := [], sent := false, invals := [] }
      let c := { c0 with prog := if res then skipPieces c0 4 s.progress else 0 }
      let s1 := if res then (s.readsOf (polReads desc)).resuming else s.readsOf (polReads desc)
      s.k.priv = false → s.rgn = some r → bits (s.srcS x) 28 36 = 0 → a % 64 = 0 → s.mayUse a 64 .read →
      (kind = .lattice → s.k.setOk (s.srcS y) false = true) → s.lost node = false →
      copyCommonOk desc = true → copyKindOk kind desc = true →
      (kind = .walk → mapAt % 64 = 0 ∧ s.mayUse mapAt 64 .read ∧ mapOk c0 = true) →
      (kind = .lattice → (c0.pull = true → c0.srcGlobal = true → isSymmetric (BitVec.ofNat 48 c0.src) = true)
        ∧ (c0.pull = false → c0.dstGlobal = true → isSymmetric (BitVec.ofNat 48 c0.dst) = true)) →
      (c0.dstGlobal = false → s.copiesOut < 32 →
          exec (copyInstr kind x y res) s = .next { s1 with eng := { s.eng with copies := s.eng.copies ++ [c] }, nextId := s.nextId + 1 })
      ∧ (c0.dstGlobal = true → s.copiesOut < 32 → s.bufferHas 1 → exec (copyInstr kind x y res) s = .next (s1.buffered 1 c0.dpol [] (.copy c)))
      ∧ (32 ≤ s.copiesOut → exec (copyInstr kind x y res) s = .next (s.stalls 0x0A)))
  ∧ (∀ (s : State) (c : CopyCmd),
      let n := bits (dwAt c.desc 4) 0 40
      let gone : State := { s with eng := { s.eng with copies := s.eng.copies.filter fun x => x.id != c.id } }
      c ∈ s.eng.copies → (∀ x ∈ s.eng.copies, x.id = c.id → x = c) → (∀ e ∈ s.buf, ∀ x, e.op = .copy x → x.id ≠ c.id) → s.ev.id = c.id →
      (c.kind = .linear → c.srcGlobal = false → c.dstGlobal = false → c.sup = false → c.admitted = false →
        spExtent c.src n = true → spExtent c.dst n = true → s.ownedBy c.job (vaultOf c.src) = true → s.ownedBy c.job (vaultOf c.dst) = true →
        c.rmask.getLsbD (vaultOf c.src) = true → (c.rmask ||| c.wmask).getLsbD (vaultOf c.dst) = false →
        (c.sigOn = true → spExtent c.sigAddr 8 = true ∧ s.ownedBy c.job (vaultOf c.sigAddr) = true
          ∧ (c.rmask ||| c.wmask).getLsbD (vaultOf c.sigAddr) = false) →
        exec .copyAdmission s = .next (s.setCopy { c with leaves := [], admitted := true, waitsVault := false }))
      ∧ (c.kind = .linear → c.srcGlobal = false → c.dstGlobal = false → c.res = false → c.sent = false → c.prog = 0 → c.out = [] → c.data = [] → s.copyReady c = true →
        (c.src + n ≤ c.dst ∨ c.dst + n ≤ c.src) → Memory.wf s.sp = true →
        ∃ (sp : List Host.Cell) (rt : List RelTag), exec .copyComplete s = .next { gone with sp := sp, rtags := rt }
          ∧ ∀ q, Memory.read sp q = if c.sigOn = true ∧ c.sigAddr ≤ q ∧ q < c.sigAddr + 8 then BitVec.ofNat 8 (c.sigVal.toNat / 256 ^ (q - c.sigAddr))
              else if c.dst ≤ q ∧ q < c.dst + n then Memory.read s.sp (c.src + (q - c.dst)) else Memory.read s.sp q)
      ∧ (c.admitted = true → exec .engineError s = .next (gone.engineFault c.job 5 0)))

/-- R227 to R231: WAITA goes on when its condition holds of the word, and stalls until then; SIGW, BACQ and BREL enter the buffer; WAITE goes on
when the engines of its mask have no work of the job. -/
def Obligations.SynchronisationInstructions : Prop :=
  ∀ (s : State) (set x y : SSrc) (p : Nat) (c : WCond),
    let X := s.srcS x
    let a := bits X 0 28
    let word := Memory.word s.sp a 8
    let holds := match c with | .eq => word = (s.srcS y).toNat | .ne => word ≠ (s.srcS y).toNat | .ge => (s.srcS y).toNat ≤ word
    let m : BitVec 32 := X.setWidth 32
    let pol := s.srcY p
    let node := s.k.peer (bits (s.srcS set) 0 14)
    let missed : Flags := if polRelease pol && !s.k.inScope (polScope pol) node then 0x100#32 else 0
    s.regional →
    (a % 8 = 0 → spExtent a 8 = true → (s.k.priv = true ∨ s.vaultOwned (vaultOf a) = true) →
        (holds → exec (.waita c x y) s = .next (s.trace 2 c.code (BitVec.ofNat 64 s.seq.waited)))
        ∧ (¬ holds → exec (.waita c x y) s = .next (s.stalls 0)))
    ∧ (s.k.priv = false → s.k.setOk (s.srcS set) false = true → a % 8 = 0 → spExtent a 8 = true → s.bufferHas 1 →
        (node = s.k.nodeId → s.discipline (vaultOf a) .neither = true → s.vaultOwned (vaultOf a) = true →
            exec (.sigw set x y p) s = .next ((s.buffered 1 pol [] (.sigw node a (s.srcS y))).flagged missed))
        ∧ (node ≠ s.k.nodeId → s.lost node = false → s.flowRoom s.k.jobtag node (polClass pol) = true →
            let q := s.fab.request s.clock s.k.nodeId (.bufCheck s.nextId) 6 node s.k.jobtag (s.sigInfo node a pol true) []
            exec (.sigw set x y p) s = .next (({ s with fab := q.1 }.buffered 1 pol [q.2] (.sigw node a (s.srcS y))).flagged missed)))
    ∧ (s.k.priv = false → bits X 32 32 = 0 → s.bufferHas 1 →
        ((∀ v, v < 32 → m.getLsbD v = true → ∃ w, s.vaults[v]? = some w ∧ w.quarantined = false) → exec (.bacq x) s = .next (s.buffered 1 0 [] (.acquire m)))
        ∧ ((∀ r, s.rgn = some r → (r.rmask ||| r.wmask) &&& m = 0) → exec (.brel x) s = .next (s.buffered 1 0 [] (.release m))))
    ∧ (bits X 4 60 = 0 →
        ((∀ i, i < 4 → X.getLsbD i = true → s.engineBusy s.k.jobtag i = false) → exec (.waite x) s = .next s)
        ∧ (∀ i, i < 4 → X.getLsbD i = true → s.engineBusy s.k.jobtag i = true → exec (.waite x) s = .next (s.stalls 0x06)))
    ∧ (bits X 4 60 ≠ 0 → exec (.waite x) s = s.raises .engineMask)
    ∧ (bits X 32 32 ≠ 0 → exec (.bacq x) s = s.raises .vaultOwnership ∧ exec (.brel x) s = s.raises .vaultOwnership)

/-! ## The grammar engine and sampling -/

/-- R357, R359 to R363, R365, R369, R370: GBIND binds, GSTAT lands the record, GMASK and SAMPLE send a command to the engine, GSTEP
performs as a boundary instruction; RAND and RANDS land random bits; operands with reserved bits fault. That the
supervisor may issue them outside region mode is the model's reading (log 19), as are the lines of the image that are touched (log 122). -/
def Obligations.GrammarAndSampling : Prop :=
  (∀ (s : State) (d : SDst) (x y : SSrc) (p : Nat),
      let X := s.srcS x
      let Y := s.srcS y
      let b := s.eng.bind
      let a := bits X 0 28
      s.regional →
      (bits X 51 13 = 0 → bits X 0 6 = 0 → bits Y 28 36 = 0 → bits Y 0 6 = 0 →
          exec (.gbind x y) s = .next { s with eng := { s.eng with
            bind := ⟨true, X.setWidth 48, bits X 48 3, bits Y 0 28, BitVec.ofNat 64 (15 * 2 ^ 52)⟩ } })
      ∧ ((bits X 51 13 ≠ 0 ∨ bits X 0 6 ≠ 0 ∨ bits Y 28 36 ≠ 0 ∨ bits Y 0 6 ≠ 0) → exec (.gbind x y) s = s.raises .grammarOperand)
      ∧ (∃ v : DWord, exec (.gstat d) s = .next (s.queued 2 0 (.scalar d v)) ∧ v.getLsbD 63 = b.bound ∧ bits v 0 63 = bits b.gstat 0 63)
      ∧ (b.bound = false → exec (.gmask p x) s = s.raises .grammarBinding)
      ∧ (∀ h, b.bound = true → bits X 28 36 = 0 → a % 64 = 0 → s.mayName b.context 8256 .neither → s.ownsOrComes b.context → s.mayUse a 64 .write →
          s.imageHead b = .ok h → s.mayUse a (64 * ((h.v + 511) / 512)) .write → s.eng.gram.length < 8 → s.noClash (predUnits p) →
          let t := (s.writesOf (predUnits p)).readsOf [.y b.policy]
          let g : GramCmd := ⟨s.nextId, s.seq.count, s.k.jobtag, b, s.srcY b.policy, .mask p a (64 * ((h.v + 511) / 512))⟩
          let u := s.imageTouched b [(0, 64)]
          exec (.gmask p x) s = .next ({ t with tlb := u.tlb, l2 := u.l2, eng := { t.eng with gram := t.eng.gram ++ [g] } }.awaiting
            ⟨0, 0, 0, false, false, none, none, 0, some p, 48, true, .no, .gmask⟩))
      ∧ (∀ r, b.bound = true → (X.getLsbD 63 = true → X = BitVec.twoPow 64 63) → s.mayName b.context 8256 .neither →
          (s.k.priv = true ∨ s.vaultOwned (vaultOf b.context) = true) → s.boundaryReady → s.gstepResult X = .ok r → s.performing.gstepResult X = .ok r →
          let c := r.ctx
          let softly := if 1 ≤ r.code ∧ r.code ≤ 4 then 1 else 0
          let v : DWord := BitVec.ofNat 64 (c.state * 2 ^ 32 + c.depth * 2 ^ 16 + (if c.acc then 2 ^ 8 else 0) + r.code)
          let u := s.performing.imageTouched b (s.performing.gstepReads X r)
          exec (.gstep d x) s = .next (s.bounded ([.setTlb u.tlb, .setL2 u.l2, .sp b.context (toBytes 8 (c.state + c.depth * 2 ^ 16 + r.code * 2 ^ 32 + if c.acc then 2 ^ 36 else 0) ++ toBytes 8 (c.refused * 2 ^ 32 + c.steps)),
              .sp (b.context + 64 + 2 * r.pos) (r.syms.flatMap (toBytes 2)),
              .setEng { s.performing.eng with bind := { b with
                gstat := BitVec.ofNat 64 (r.code % 16 * 2 ^ 52 + c.state * 2 ^ 32 + c.depth * 2 ^ 16 + min 65535 (bits b.gstat 0 16 + softly)) } },
              .setFab (s.performing.fab.clearPeeks 2),
              .land 0 0 (.scalar d v)] ++ s.performing.traceValue v))))
  ∧ (∀ (s : State) (e : VDst) (d : SDst) (x : SSrc) (n p : Nat),
      let X := s.srcS x
      let p0 := s.srcS (.reg n)
      let p1 := s.srcS (.reg (n + 1))
      let len := bits p1 0 18 + 1
      let ctr := s.k.rngCtr + BitVec.ofNat 64 s.fin.draws
      let us := sDstUnits d ++ predUnits p
      s.regional →
      (sampleOk p0 p1 = true → s.mayUse (bits p0 0 28) (4 * len) .read → (p0.getLsbD 63 = false → s.mayUse (bits p0 28 28) ((len + 7) / 8) .read) →
          s.eng.gram.length < 8 → s.noClash us →
          let t := (s.writesOf us).drawing
          let g : GramCmd := ⟨s.nextId, s.seq.count, s.k.jobtag, s.eng.bind, 0, .sample p0 p1 p s.regs.fmt s.k.rngKey ctr⟩
          exec (.sample d n p) s = .next ({ t with eng := { t.eng with gram := t.eng.gram ++ [g] } }.awaiting
            ⟨0, 0, 0, false, false, some d, none, 0, some p, 96, false, .no, .sample⟩))
      ∧ (sampleOk p0 p1 = false → exec (.sample d n p) s = s.raises .grammarOperand)
      ∧ (bits X 16 48 = 0 → Lanewise s.drawing (exec (.rand e x) s) 6 4 e (laneActive s.top 4)
          fun i => ((mix s.k.rngKey ctr (bits X 0 16) (i / 2)).toNat / 2 ^ (32 * (i % 2)), 0))
      ∧ (bits X 32 32 = 0 → exec (.rands d x) s = .next (s.drawing.queued 2 0 (.scalar d (mix s.k.rngKey ctr (bits X 0 16) (bits X 16 16)))))
      ∧ (bits X 16 48 ≠ 0 → exec (.rand e x) s = s.raises .grammarOperand)
      ∧ (bits X 32 32 ≠ 0 → exec (.rands d x) s = s.raises .grammarOperand))

/-- R360, R361, R363, R367: what a step of the grammar finds, refusals changing nothing but the count; the command at the head of the
engine's queue runs: a GMASK writes its bitmap, a SAMPLE gives one of the legal tokens, or all ones with NOLEGAL where there is none. -/
def Obligations.GrammarEngineSteps : Prop :=
  (∀ (s : State) (h : GHead) (g : GSit) (tok : DWord),
      let b := s.eng.bind
      let c := readCtx s.sp b.context
      let refused (code : Nat) : Except Issue GResult := .ok ⟨code, { c with refused := min (c.refused + 1) (2 ^ 32 - 1) }, 0, []⟩
      s.imageHead b = .ok h →
      (tok = BitVec.twoPow 64 63 → ctxReserved s.sp b.context = true → s.situation b h h.start 0 = .ok g →
          s.gstepResult tok = .ok ⟨5, ⟨h.start, 1, 0, 0, g.acc⟩, 0, [0]⟩)
      ∧ (tok.getLsbD 63 = false → ctxOk s.sp b.context h = false → s.gstepResult tok = .error (.cause .grammarContext))
      ∧ (tok.getLsbD 63 = false → ctxOk s.sp b.context h = true →
          (h.v ≤ tok.toNat → s.gstepResult tok = refused 4)
          ∧ ∀ cls ts, tok.toNat < h.v → s.situation b h c.state (ctxTop s.sp b.context c) = .ok g → s.tokenClass b h tok.toNat = .ok cls →
            s.transitions b h (h.trans + 16 * g.toff) none g.tcount = .ok ts →
            ((∀ t ∈ ts, t.cls ≠ cls) → s.gstepResult tok = refused 1)
            ∧ ∀ t, ts.find? (fun t => t.cls == cls) = some t →
              let n := c.depth - t.npop + t.push.length
              (c.depth - 1 < t.npop → s.gstepResult tok = refused 3)
              ∧ (t.npop ≤ c.depth - 1 → 4096 < n → s.gstepResult tok = refused 2)
              ∧ (∀ now, t.npop ≤ c.depth - 1 → n ≤ 4096 →
                  s.situation b h t.next (t.push.getLast?.getD (ctxSym s.sp b.context (n - 1))) = .ok now →
                  s.gstepResult tok = .ok ⟨0, ⟨t.next, n, (c.steps + 1) % 2 ^ 32, c.refused, now.acc⟩, c.depth - t.npop, t.push⟩)))
  ∧ (∀ (s : State) (g : GramCmd) (w : Wait),
      s.eng.gram.head? = some g → s.ev.id = g.id → s.pipe.waits.find? (fun w => w.id == g.id && w.outstanding) = some w →
      let rest : State := { s with eng := { s.eng with gram := s.eng.gram.filter fun x => x.id != g.id }, fab := s.fab.clearPeeks 2 }
      (∀ p a n m, g.op = .mask p a n → s.writesBefore g.seq = true → (s.k.priv = true ∨ s.vaultOwned (vaultOf g.bind.context) = true) →
          (s.underPolicy g).gmaskValue g.bind = .ok m →
          let u := (s.underPolicy g).imageTouched g.bind ((s.underPolicy g).gmaskReads g.bind)
          exec .gmaskExecute s = .next ((({ rest with sp := Memory.write s.sp a (toBytes n m), tlb := u.tlb, l2 := u.l2 }.arrivePred w (m != 0)).arrive w.id .nothing 0).traceArrival w (.scalar (if m = 0 then 0 else 1))))
      ∧ (∀ p0 p1 p fmt key ctr, g.op = .sample p0 p1 p fmt key ctr →
          let l := s.legalLogits p0 p1
          (l = [] → exec .sampleExecute s = .next ((rest.arrivePred w false).arriveTraced w (.scalar 0xFFFFFFFF#64) 0x200#32))
          ∧ (l ≠ [] → ∃ t, t ∈ l.map (·.1) ∧ t = drawToken (mix key ctr (bits fmt 32 16) 0) (bits p1 32 32) l
              ∧ exec .sampleExecute s = .next ((rest.arrivePred w true).arriveTraced w (.scalar (BitVec.ofNat 64 t)) 0))))

/-! ## Regions -/

/-- R113 to R115, R117, R124, R128, R132, R137, R182: RGN, CMT, REND and RABT by mode and region, RGN once more when it has
waited at its boundary for its vaults; RSTAT's record; the 4,096th bundle outside region mode; the chunks of a resumable operation. -/
def Obligations.RegionInstructions : Prop :=
  (∀ (s : State) (d : SDst) (x y : SSrc),
      let masks := s.srcS x
      let desc := s.srcS y
      let t := s.performing
      let opening (o : Opening) (u : State) : State := u.setFin { u.fin with opens := some o }
      (s.k.priv = false → s.seq.perform = none → s.descriptorOk masks desc = true → s.boundaryReady → t.allArrived = true →
          t.ownsAll (masks.setWidth 32 ||| (masks >>> 32).setWidth 32) = true →
          exec (.rgn x y) s = .next (opening ⟨masks.setWidth 32, (masks >>> 32).setWidth 32, desc, false, true, 0⟩ t))
      ∧ (s.k.priv = false → s.seq.perform = none → s.descriptorOk masks desc = true → s.boundaryReady → t.allArrived = true →
          t.ownsAll (masks.setWidth 32 ||| (masks >>> 32).setWidth 32) = false →
          exec (.rgn x y) s = .next { t with seq := { t.seq with
            perform := some ⟨masks.setWidth 32, (masks >>> 32).setWidth 32, desc, false, true, 0⟩
            bun := { t.seq.bun with stalled := some 0x0F, kept := true } } })
      ∧ (∀ o, s.seq.perform = some o → s.allArrived = true → s.ownsAll (o.rmask ||| o.wmask) = true →
          exec (.rgn x y) s = .next (opening o { s with seq := { s.seq with perform := none } }))
      ∧ (s.k.priv = true → s.seq.perform = none → exec (.rgn x y) s = s.raises .regionContext)
      ∧ (s.k.priv = false → s.seq.perform = none → s.descriptorOk masks desc = false → exec (.rgn x y) s = s.raises .descriptor)
      ∧ (∀ r, s.k.priv = false → s.rgn = some r → s.commitReady r = .ok () →
          let u := (s.signed r).commitRegion
          exec .cmt s = .next (opening ⟨r.rmask, r.wmask, r.desc, false, false, 0⟩ u) ∧ exec .rend s = .next (u.setFin { u.fin with rend := true }))
      ∧ ((s.k.priv = true ∨ s.rgn = none) →
          exec .cmt s = s.raises .regionContext ∧ exec .rend s = s.raises .regionContext ∧ exec .rabt s = s.raises .regionContext)
      ∧ (∃ v : DWord, exec (.rstat d) s = .next (s.queued 2 0 (.scalar d v))
          ∧ (s.rgn = none → v = 0)
          ∧ ∀ r, s.rgn = some r → bits v 0 8 = s.k.rtag.toNat ∧ bits v 8 8 = s.k.rcount.toNat ∧ bits v 16 3 = 1 ∧ v.getLsbD 19 = r.desc.getLsbD 15
              ∧ v.getLsbD 20 = r.desc.getLsbD 16 ∧ bits v 21 11 = r.used % 2 ^ 11
              ∧ bits v 32 32 = if r.desc.getLsbD 16 then r.prog % 2 ^ 32 else 0))
  ∧ (∀ (s : State),
      (s.k.priv = false → s.rgn = none → 4095 ≤ s.seq.outside →
          exec .outsideRegionLimit s = .next (s.takeTrap { cause := .regionContext, slotless := true }))
      ∧ (∀ r w d b idx m ew vs, s.rgn = some r → r.desc.getLsbD 16 = true → r.resIssued = true → s.mat.queue = [] →
          s.pipe.waits.find? (fun w => w.outstanding && w.inRgn) = some w → w.op = .gather b idx m ew true → w.vd = some (.reg d) → r.prog < 2048 →
          s.gatherLanes (ewBytes ew) (gatherAddrs b (ewBytes ew) r.prog (r.prog + 256) idx m) = .ok vs →
          ∃ t, exec .chunkCommit s = .next t ∧ t.rgn = some { r with prog := r.prog + 256, pushed := 0 } ∧ t.mat.comm = s.mat.work ∧ t.sp = s.sp ∧ t.hbm = s.hbm
            ∧ t.pipe = s.pipe ∧ t.k = s.k ∧ t.seq = s.seq
            ∧ (∀ e, e ≠ d → t.regs.v[e]? = s.regs.v[e]?)
            ∧ (∀ old v, s.regs.v[d]? = some old → t.regs.v[d]? = some v → ∀ i, i < 2048 →
                laneVal 4 v i = if r.prog ≤ i ∧ i < r.prog + 256 ∧ m.getLsbD i = true then ((vs[i]?).getD 0) % 2 ^ 32 else laneVal 4 old i))
      ∧ (∀ r e mul t a av b k, s.rgn = some r → r.desc.getLsbD 16 = true → r.resIssued = true → s.mat.queue.head? = some e →
          e.op = .mac mul t a av b k true → k.toNat ≤ r.prog →
          exec .chunkCommit s = .next { s with mat := { s.mat with
            work := if mul = true ∧ k = 0 ∧ r.prog = 0 then s.mat.work.set t ⟨s.startAnchor e, []⟩ else s.mat.work, queue := s.restOfQueue } }))

/-- R122, R128, R130, R131: a region that may commit does: tiles committed, entries draining, RCOUNT 0, a trap request due, and no
register and no byte of memory changed; RABT while RCOUNT stays within RETRACE discards it, and the program goes on at its entry with the
snapshot's stacks, formats, counter and binding. Only the translation and the line of a signature that the commit has read move in the TLB and the L2. -/
def Obligations.RegionsEnd : Prop :=
  (∀ (s : State) (r : Region), s.rgn = some r → s.commitReady r = .ok () →
      ∃ t, exec .regionCommit s = .next t ∧ t = (s.signed r).commitRegion
        ∧ t.rgn = none ∧ t.mat = { s.mat with comm := s.mat.work } ∧ t.k = { s.k with rcount := 0 } ∧ t.regs = s.regs ∧ t.sp = s.sp ∧ t.hbm = s.hbm
        ∧ t.seq = { s.seq with trapReq := none, dueTrap := s.seq.trapReq }
        ∧ (∀ e ∈ t.buf, e.state ≠ .opened)
        ∧ (∀ e ∈ s.buf, let e1 := if e.state = .opened then { e with state := .draining } else e
            (∀ c, e.op = .copy c → ∃ l, { e1 with op := .copy { c with invals := c.invals ++ l } } ∈ t.buf)
            ∧ ((∀ c, e.op ≠ .copy c) → (e.state = .opened → ∀ m, e.op ≠ .acquire m ∧ e.op ≠ .release m) → e1 ∈ t.buf))
        ∧ (∀ m e, e ∈ s.buf → e.state = .opened → e.op = .release m → (∀ e' ∈ s.buf, e'.state = .opened → e' ≠ e → ∀ n, e'.op ≠ .acquire n ∧ e'.op ≠ .release n) →
            ∀ v w, v < 32 → m.getLsbD v = true → s.vaults[v]? = some w → w.state = .owned → w.owner = e.job → t.vaults[v]? = some { w with state := .releasing }))
  ∧ (∀ (s : State) (r : Region), s.k.priv = false → s.rgn = some r → s.k.rcount < s.k.retrace →
      ∃ t, exec .rabt s = .next t
        ∧ t.seq.pc = r.snap.entry ∧ t.seq.loops = r.snap.loops ∧ t.seq.redirects = [] ∧ t.seq.trapReq = none ∧ t.seq.delay = 0
        ∧ t.regs = { s.regs with q := List.replicate 16 .empty, qv := List.replicate 16 .empty, masks := r.snap.masks, fmt := r.snap.fmt }
        ∧ t.k = { s.k with rngCtr := r.snap.rngCtr, rcount := s.k.rcount + 1 }
        ∧ t.pipe.inflight = [] ∧ (∀ w ∈ t.pipe.waits, w.inRgn = false) ∧ (∀ e ∈ t.buf, e.state ≠ .opened)
        ∧ t.mat = { s.mat with work := s.mat.comm, queue := [], aanch := 0 } ∧ t.eng.bind = r.snap.bind ∧ t.eng.gram = [] ∧ t.sp = s.sp
        ∧ t.rgn = some { r with
            again := !r.byBoundary, committing := false, reads := [], writes := [], counted := 0, crc := 0xFFFFFFFF#32, used := 0, resIssued := false })

/-! ## Launches, groups and the supervisor -/

/-- R375, R376, R384: LAUNCH hands a record of the job's subcube to a queue and lands the outcome; EXIT ends the running record; YIELD
gives way to an equal; a record that the host writes to a slot is taken where the queue has room and the record is good, and counted as
refused otherwise. -/
def Obligations.LaunchesAndRecords : Prop :=
  (∀ (s : State) (d : SDst) (x : SSrc),
      let v := s.srcS x
      let a := bits v 0 28
      let r : Record := ofDws (Memory.dwords s.sp a 8)
      let c := recSubcube r
      let t := s.performing
      s.boundaryReady →
      (s.seq.perform = none → bits v 28 4 = 0 → bits v 38 26 = 0 → a % 64 = 0 → spExtent a 64 = true →
          (s.k.priv = true ∨ (if s.rgn.isSome then s.discipline (vaultOf a) .read = true else s.vaultOwned (vaultOf a) = true)) →
          recJob r = s.k.jobtag → recPrio r ≤ s.curPrio → c.submask &&& ~~~s.k.submask = 0 → (c.subbase ^^^ s.k.subbase) &&& ~~~s.k.submask = 0 →
          let q := t.takeRecord (bits v 32 6) r
          exec (.launch d x) s = .next (s.bounded
            [.setSch q.1.sch, .setAcqs q.1.acqs, .ids (q.1.nextId - t.nextId), .land 0 0 (.scalar d (BitVec.ofNat 64 q.2))])
          ∧ (q.2 = 0 ↔ (t.queue (bits v 32 6)).recs.length < 4 ∧ t.recOk r = true)
          ∧ (q.2 = 1 ↔ 4 ≤ (t.queue (bits v 32 6)).recs.length))
      ∧ (s.seq.perform = none → (bits v 28 4 ≠ 0 ∨ bits v 38 26 ≠ 0 ∨ a % 64 ≠ 0) → exec (.launch d x) s = s.raises .launch)
      ∧ (∀ q, s.seq.perform = none → s.sch.running = some q → q < s.sch.queues.length → (s.rgn.isSome = true → t.seq.dueTrap = none) →
          ∃ u, exec (.exit x) s = .next u ∧ u.sch.running = none ∧ u.regs = t.regs ∧ u.k = t.k ∧ u.sp = t.sp ∧ u.hbm = t.hbm ∧ u.buf = t.buf
            ∧ (u.queue q).recs = (s.queue q).recs.tail ∧ (u.queue q).done = (s.queue q).done + 1 ∧ (u.queue q).exit = v.setWidth 32
            ∧ (u.queue q).state = (if (s.queue q).recs.tail = [] then .idle else .acquiring)
            ∧ (∀ p, p ≠ q → u.queue p = s.queue p)
            ∧ u.vaults = mapVaults t.vaults (((s.queue q).recs.head?.map recVaults).getD 0) (releaseOne t.k.jobtag))
      ∧ exec .yield s = .next (s.bounded (if t.yieldsTo then [.yields] else [])))
  ∧ (∀ (s : State),
      let q := s.ev.num
      let l := s.queue q
      let r := s.ev.record
      let shut : Prop := s.ev.flag = true ∨ s.hst.featSet = false ∨ s.hst.brstat ≠ 0x70 ∨ 2 ≤ s.hst.pstate.toNat
      let put (f : LQueue → LQueue) : Sched := updQueue s.sch q f
      q < 64 → s.sch.queues.length = 64 → s.ev.bytes = [] →
      (¬ shut → l.recs.length < 4 → s.recOk r = true →
          (l.recs ≠ [] → exec .slotWrite s = .next { s with sch := put fun l => { l with recs := l.recs ++ [r] } })
          ∧ (l.recs = [] → exec .slotWrite s = .next { s with
              sch := put fun l => { l with recs := [r], state := .acquiring, hold := .none, region := none, started := false, serviced := false }
              acqs := s.acqs ++ [⟨s.nextId, recJob r, recPrio r, true, recVaults r, q⟩], nextId := s.nextId + 1 }))
      ∧ ((shut ∨ 4 ≤ l.recs.length ∨ s.recOk r = false) →
          exec .slotWrite s = .next { s with sch := put fun l => { l with refused := min 65535 (l.refused + 1) } }))

/-- R385, R388 to R392: GSIG makes the arrival of its slot; BAR commits its region if one is open, makes the arrival and waits until it is finished,
GWAIT until none is outstanding; a slot that is not armed raises the group fault; presence and reset notices, of which one that goes across a detour only
purges (its mark is log 125), and the steps of a barrier. -/
def Obligations.GroupsAndBarriers : Prop :=
  (∀ (s : State) (x : SSrc) (k g : Nat),
      let v := s.srcS x
      let t := s.performing
      let made (bar : Bool) : Effect := .setSch { t.sch with
        barriers := t.sch.barriers ++ [⟨k, g, (t.group g).gen + 1, t.seq.count, 0, false, t.k.jobtag, bar⟩] }
      (s.boundaryReady → v = BitVec.ofNat 64 k → k < 4 → s.slotGroup k = some g →
        ((∀ b, s.barrierOf k = some b → b.bar = true) → exec (.gsig x) s = .next (s.bounded [made false]))
        ∧ (t.barrierOf k = none → exec (.gwait x) s = .next (s.bounded []))
        ∧ (t.barrierOf k = none → s.barrierOf k = none → s.regional → s.seq.perform.isSome = true ∨ s.rgn = none →
            exec (.bar x) s = .next { (made true).apply s with
              seq := { s.seq with bun := { s.seq.bun with stalled := some 0x0C, kept := true } } })
        ∧ (∀ r, t.barrierOf k = none → s.barrierOf k = none → s.seq.perform = none → s.rgn = some r →
            exec (.bar x) s = .next { (made true).apply t with
              seq := { t.seq with perform := some (r.next true), bun := { t.seq.bun with stalled := some 0x0C, kept := true } } })
        ∧ (∀ b, s.barrierOf k = some b → t.barrierOf k = some b → b.bar = true → b.finished = true →
            exec (.bar x) s = .next (s.bounded [.setSch { t.sch with barriers := t.sch.barriers.filter fun y => !y.same b }])))
      ∧ (s.seq.perform = none → (bits v 2 62 ≠ 0 ∨ s.slotGroup (bits v 0 2) = none) →
          exec (.gsig x) s = s.raises .group ∧ exec (.gwait x) s = s.raises .group ∧ exec (.bar x) s = s.raises .group))
  ∧ (∀ (s : State),
      let p := s.ev.packet
      let d2 := p.dw 2
      let seen : State := { s with sch := { s.sch with
        presence := (s.sch.presence.filter fun x => !(x.1 == p.job && x.2.1 == bits d2 16 14)) ++ [(p.job, bits d2 16 14, presenceOf (bits d2 8 8))] } }
      (d2.getLsbD 30 = false → bits d2 8 8 ≠ 3 → exec .presenceNoticeArrival s = .next (seen.forwardNotice p))
      ∧ (d2.getLsbD 30 = true → (s.jobCube p.job).isSome = true → exec .presenceNoticeArrival s = .next s)
      ∧ (d2.getLsbD 30 = true → s.jobCube p.job = none →
          exec .presenceNoticeArrival s = .next ({ s with fab := s.fab.purge p.job }.purgeLanes p.job))
      ∧ (d2.getLsbD 30 = false → bits d2 8 8 = 3 → exec .presenceNoticeArrival s = .next ((seen.forwardNotice p).resetJob p.job 0))
      ∧ (∀ b, s.sch.barriers.find? (fun b => b.slot == s.ev.num && b.job == s.ev.job && b.sent == 0 && !b.finished) = some b → s.arrivalWaits b = false →
          (∀ d r, groupDims (s.group b.group) = d :: r → s.sch.early.contains (b.job, b.group, b.gen, 0) = false →
            exec .barrierArrival s = .next
              ({ s with sch := { s.sch with barriers := s.sch.barriers.map fun (x : Barrier) => if x.same b then { b with sent := 1 } else x } }.control d b.job
                (BitVec.ofNat 64 (0x01 + b.group * 2 ^ 8 + b.gen.toNat * 2 ^ 20))))
          ∧ (groupDims (s.group b.group) = [] →
            let g := s.group b.group
            exec .barrierArrival s = .next { s with
              k := { s.k with gtable := s.k.gtable.set b.group (putBits ((s.k.gtable[b.group]?).getD 0) 0 16 b.gen.toNat) }
              sp := Memory.write s.sp g.sig (toBytes 8 b.gen.toNat), rtags := tagWrite s.rtags (.spad g.sig) 8 (some (s.k.nodeId, 0))
              sch := { s.sch with barriers :=
                s.sch.barriers.filterMap fun (x : Barrier) => if x.same b then (if x.bar then some { x with finished := true } else none) else some x } }))
      ∧ (let g := bits d2 8 8
        let gen := BitVec.ofNat 16 (bits d2 20 16)
        (∀ b ∈ s.sch.barriers, b.job = p.job → b.group = g → b.gen = gen → 0 < b.sent → b.finished = true) →
          exec .barrierStepArrival s = .next { s with sch := { s.sch with early := s.sch.early ++ [(p.job, g, gen, bits d2 16 4)] } }))

/-- R399: RFT goes on with the held program at EPC, in program mode: in the region that it re-enters, with the snapshot's loops, masks, formats and
random counter, or outside region mode; with none held it lets the node select; a program that may not go on is an illegal return. The count of bundles
outside region mode starts again (log 97), the issue count too (log 65), and a boundary instruction whose region had committed goes on (log 80). While a
unit is under test it stalls (log 89). -/
def Obligations.ReturnFromTrap : Prop :=
  ∀ (s : State) (q : Nat) (l : LQueue), s.k.priv = true →
    (s.err.selft.isSome = true → exec .rft s = .next (s.stalls 0x0A)) ∧ (s.err.selft = none →
    (s.heldQueue = some (q, l) → (l.hold = .region ∨ l.hold = .boundary ∨ l.hold = .outside ∨ l.hold = .none ∨ l.hold = .released) →
        ∃ t, exec .rft s = .next t ∧ t.k.priv = false ∧ t.sch.running = some q ∧ t.sch.serving = none
          ∧ (t.queue q).state = .running ∧ (t.queue q).hold = .none ∧ (t.queue q).region = none
          ∧ t.regs.s = s.regs.s ∧ t.regs.p = s.regs.p ∧ t.regs.v = s.regs.v ∧ t.regs.y = s.regs.y ∧ t.regs.sup = s.regs.sup ∧ t.sp = s.sp
          ∧ t.seq.redirects = [] ∧ t.seq.issued = 0 ∧ t.seq.outside = 0
          ∧ (l.region = none → t.seq.pc = s.k.epc &&& ~~~0xF#48 ∧ t.rgn = s.rgn ∧ t.seq.loops = s.seq.loops ∧ t.regs.masks = s.regs.masks ∧ t.k = { s.k with priv := false })
          ∧ (∀ r, l.region = some r → t.regs.masks = r.snap.masks ∧ t.regs.fmt = r.snap.fmt
              ∧ t.k = { s.k with priv := false, rngCtr := r.snap.rngCtr } ∧ t.mat.work = s.mat.comm ∧ t.eng.bind = r.snap.bind
              ∧ (∀ w, s.goesOn r = some w → t.rgn = none ∧ t.seq.perform = some (r.next true) ∧ t.seq.pc = w.pc ∧ t.seq.words = w.words
                  ∧ t.seq.loops = w.loops)
              ∧ (s.goesOn r = none → t.seq.pc = s.k.epc &&& ~~~0xF#48 ∧ t.seq.perform = none ∧ t.seq.loops = r.snap.loops ∧ t.rgn = some { r with
                  waiting := none, snap := { r.snap with entry := s.k.epc &&& ~~~0xF#48 }, again := !r.byBoundary, reads := [], writes := [], counted := 0,
                  crc := 0xFFFFFFFF#32, used := 0, resIssued := false, seq := s.seq.count + 1 })))
    ∧ (s.heldQueue = none → ∃ t, exec .rft s = .next t ∧ t.k = { s.k with priv := false } ∧ t.seq.pc = s.k.epc &&& ~~~0xF#48 ∧ t.seq.loops = []
          ∧ t.sch = { s.sch with serving := none, opened := true } ∧ t.sp = s.sp ∧ t.hbm = s.hbm ∧ t.regs = s.regs)
    ∧ (s.heldQueue = some (q, l) → (l.hold = .fatal ∨ l.hold = .fenced ∨ l.hold = .loss) → exec .rft s = s.raises .illegalReturn))

/-- R261, R262, R264, R265, R267, R412: SHOOT sends its notice to every other live node of its set and waits until each has acknowledged; TLBP gives what a
walk finds, and stops where the walk meets a hole of the memory (log 18); TLBI drops translations, with POISON the poison bits that are cached, and with
DROP the lines of the range, and counts the pinned ones; without DROP it ends the migration of a page whose leaf has changed (log 30). -/
def Obligations.TranslationInstructions : Prop :=
  ∀ (s : State) (d : SDst) (n x y : SSrc),
    let X := s.srcS x
    let Y := s.srcS y
    let va : VAddr := X.setWidth 48
    let walked := walk s.hbm s.hst.jtbase (Y.setWidth 16) va
    let probe (v : DWord) : Prop := exec (.tlbp d x y) s = .next (s.awaiting ⟨0, 0, 0, false, false, some d, none, 0, none, 64, false, .no, .tlbp v⟩)
    let job : Option (BitVec 16) := if Y.getLsbD 16 then none else some (Y.setWidth 16)
    let range : Option DWord := if Y.getLsbD 17 then none else some X
    s.k.priv = true →
    (bits X 0 16 = 0 → s.k.setOk Y false = true →
        let to_ := ((spanned s.k.nodeId (s.physMask (BitVec.ofNat 14 (bits Y 0 14)))).filter fun m => m != s.k.nodeId).filter fun m => !s.lost m
        let sent := (to_.foldl (fun u m => u.sendControl (shootPacket s.k.nodeId m s.k.jobtag X (s.srcS n))) s).fab
        ((∀ h ∈ s.fab.shoots, h.mine = false) → to_ = [] → exec (.shoot n x y) s = .next s)
        ∧ ((∀ h ∈ s.fab.shoots, h.mine = false) → to_ ≠ [] → exec (.shoot n x y) s = .next { s with
            fab := { sent with shoots := sent.shoots ++ [⟨s.nextId, s.k.jobtag, s.k.nodeId, X, s.srcS n, to_, true⟩] }, nextId := s.nextId + 1
            seq := { s.seq with bun := { s.seq.bun with stalled := some 0x0B, kept := true } } })
        ∧ (∀ h, s.fab.shoots.find? (fun h => h.mine) = some h → (∀ m ∈ h.left, s.lost m = true) →
            exec (.shoot n x y) s = .next { s with fab := { s.fab with shoots := s.fab.shoots.filter fun h => !h.mine } })
        ∧ (∀ h, s.fab.shoots.find? (fun h => h.mine) = some h → (∃ m ∈ h.left, s.lost m = false) → exec (.shoot n x y) s = .next (s.stalls 0x0B)))
    ∧ (walked = .error .notPresent → probe 0)
    ∧ (walked = .error .malformed → probe 0x6000000000000000#64)
    ∧ (∀ pa, walked = .error (.hole pa) → exec (.tlbp d x y) s = .fault (.hbmHole pa))
    ∧ (∀ en lvl, walked = .ok (en, lvl) → ∃ v : DWord, probe v ∧ bits v 0 54 = bits en 0 54 ∧ bits v 54 7 = 0 ∧ bits v 61 2 = if lvl = 3 then 1 else 2)
    ∧ (bits Y 20 44 = 0 → bits X 0 16 = 0 → (Y.getLsbD 19 = true → Y.getLsbD 16 = false ∧ Y.getLsbD 17 = false) →
        let q := if Y.getLsbD 19 then s.dropLines (Y.setWidth 16) X else (s.l2, 0, [])
        let f := if Y.getLsbD 19 then s.fab.without (Y.setWidth 16) false q.2.2 else s.fab.unmapped job range
        let t : State := { s with
          l2 := q.1, fab := f, k := { s.k with pinorph := BitVec.ofNat 32 (min (2 ^ 32 - 1) (s.k.pinorph.toNat + q.2.1)) }
          tlb := ⟨s.tlb.entries.filter fun t => !((match job with | some j => t.job == j | none => true) && (match range with | some v => t.meets v | none => true)),
            if Y.getLsbD 18 then [] else s.tlb.bitmap⟩
          hst := match s.hst.migrq with
            | none => s.hst
            | some (m, old) =>
              let page := bits m 16 32
              let mine := jobOr job (BitVec.ofNat 16 (bits m 48 16)) && rangeOr range (page * 65536) 1
                && (s.leafAt (BitVec.ofNat 16 (bits m 48 16)) page).all fun x => x.2.1 != old
              if Y.getLsbD 19 = false ∧ mine = true then { s.hst with migrs := 1, migrq := none } else s.hst }
        (s.holding job range = false → exec (.tlbi x y) s = .next t)
        ∧ (s.holding job range = true →
            exec (.tlbi x y) s = .next { t with seq := { s.seq with bun := { s.seq.bun with stalled := some 0x0B, kept := true } } }))
    ∧ (bits X 0 16 ≠ 0 → exec (.shoot n x y) s = s.raises .descriptor)
    ∧ (bits X 6 58 ≠ 0 → exec (.qrst x) s = s.raises .descriptor)

/-- R382, R383, R388, R403: SELFT starts a test of a unit and its result is to come; QRST of a queue that is not idle sends the notice of the reset and
stalls, and then the partition of its job is reset; CTXS of a pre-empted queue saves the context, and of a saved one brings it back. A SELFT while another
test runs stalls (log 89). -/
def Obligations.MachineManagementInstructions : Prop :=
  ∀ (s : State) (d : SDst) (x y : SSrc),
    let v := s.srcS x
    let a := (s.srcS y).toNat
    let q := bits v 0 6
    let l := s.queue q
    s.k.priv = true →
    (selftOk v = true → s.err.selft = none →
        exec (.selft d x) s = .next ({ s with
          sch := s.announceService.sch, fab := s.announceService.fab, err := { s.err with selft := some ⟨bits v 0 4, bits v 8 8, s.nextId, s.clock⟩ } }.awaiting
            ⟨0, 0, 0, false, false, some d, none, 0, none, selftClocks (bits v 0 4), false, .no, .selft (bits v 0 16)⟩))
    ∧ (selftOk v = false → exec (.selft d x) s = s.raises .descriptor)
    ∧ (selftOk v = true → s.err.selft.isSome = true → exec (.selft d x) s = .next (s.stalls 0x0A))
    ∧ (bits v 6 58 = 0 → (l.state = .idle → exec (.qrst x) s = .next s)
        ∧ (∀ j, l.state ≠ .idle → l.state ≠ .resetting → l.job = some j → ∃ t, exec (.qrst x) s = .next t ∧ t.seq.bun.stalled = some 0x0A
          ∧ (t.queue q).state = .resetting ∧ (t.queue q).recs = l.recs ∧ t.regs = s.regs ∧ t.k = s.k ∧ t.sp = s.sp ∧ t.hbm = s.hbm ∧ t.buf = s.buf ∧ t.eng = s.eng)
        ∧ ∀ j, l.state = .resetting → l.job = some j → ∃ t, exec (.qrst x) s = .next t
          ∧ (∀ e ∈ t.buf, e.job ≠ j) ∧ (∀ c ∈ t.eng.copies, c.job ≠ j) ∧ (∀ g ∈ t.eng.gram, g.job ≠ j) ∧ (∀ b ∈ t.sch.barriers, b.job ≠ j)
          ∧ (∀ w ∈ t.vaults, w.owner = j → w.state ≠ .owned ∧ w.state ≠ .scrubbing) ∧ j ∉ t.err.fenced ∧ (∀ u ∈ t.err.untested, u.job ≠ j)
          ∧ (t.queue q).done = l.done + 1 ∧ (t.queue q).recs = l.recs.tail ∧ t.regs = s.regs ∧ t.sp = s.sp)
    ∧ (bits v 6 2 = 0 → bits v 9 55 = 0 → a % 65536 = 0 → a + 0x342000 ≤ 0x1800000000 →
        (v.getLsbD 8 = false → l.state = .held → bits l.cause 0 12 = 0x060 → (∀ e ∈ s.buf, some e.job = l.job → e.state = .opened) →
          ∃ t, exec (.ctxs x y) s = .next t ∧ (t.queue q).state = .saved ∧ (t.queue q).epc = s.k.epc ∧ t.sch.running = none ∧ t.regs = s.regs ∧ t.k = s.k
            ∧ (∀ i, i < 64 → s.regs.s.length = 64 → Memory.wf s.hbm = true →
                Memory.dword t.hbm (a + 8 * i) = (s.regs.s[i]?).getD 0))
        ∧ (v.getLsbD 8 = true → l.state = .saved →
          ∃ t, exec (.ctxs x y) s = .next t ∧ (t.queue q).state = .held ∧ t.sch.running = some q ∧ t.sch.serving = some q ∧ t.hbm = s.hbm ∧ t.sp = s.sp
            ∧ t.k.epc = (Memory.dword s.hbm (a + 0x208)).setWidth 48 ∧ t.k.rngKey = Memory.dword s.hbm (a + 0x228)
            ∧ t.k.jobtag = (Memory.dword s.hbm (a + 0x280)).setWidth 16 ∧ t.k.wdleft = (Memory.dword s.hbm (a + 0x2A8)).setWidth 48
            ∧ (∀ i, 1 ≤ i → i < 64 → t.regs.s[i]? = some (Memory.dword s.hbm (a + 8 * i)))
            ∧ (∀ i, i < 80 → t.regs.v[i]? = some (vregOf (Memory.bytes s.hbm (a + 0x2000 + 8192 * i) 8192)))))
    ∧ ((bits v 6 2 ≠ 0 ∨ bits v 9 55 ≠ 0) → exec (.ctxs x y) s = s.raises .descriptor)

/-! ## Landings, arrivals and drains -/

/-- R36, R37, R54, R55, R64, R68, R119, R165: a landing writes its destination: S0 discards, the supervisor has its own S48 to S63, a vector result
writes its lanes alone; a scalar or vector result takes the next queue position; nothing else changes. At the end of a bundle what is due lands, sets its
STATUS bits and joins the write set, or raises the antidependence fault where its unit was read first; what is not due comes one bundle nearer. -/
def Obligations.ResultsLand : Prop :=
  ∀ (s : State) (f : InFlight),
    let t := s.land f
    let us := landingUnits f.what
    let later := s.pipe.waits.map fun (w : Wait) => if !w.placed && w.left != 0 then { w with left := w.left - 1 } else w
    let waiting : Prop := ∀ w ∈ s.pipe.waits, w.placed = true ∨ w.left ≠ 0
    (∀ n v, f.what = .scalar (.reg n) v → f.sup = s.k.priv → n < 64 → s.regs.s.length = 64 → s.regs.sup.length = 16 →
        t = { s with regs := t.regs } ∧ (∀ m, m < 64 → m ≠ n → t.srcS (.reg m) = s.srcS (.reg m)) ∧ t.srcS (.reg n) = (if n = 0 then s.srcS (.reg 0) else v)
        ∧ t.srcS (.q 0) = v ∧ (∀ i, i < 15 → t.srcS (.q (i + 1)) = s.srcS (.q i)))
    ∧ (∀ v, f.what = .scalar .queue v → t = { s with regs := { s.regs with q := pushQ s.regs.q (.full v) } })
    ∧ (∀ n v m, f.what = .vector (.reg n) v m → n < s.regs.v.length →
        t = { s with regs := t.regs } ∧ (∀ e, e ≠ n → t.srcV (.reg e) = s.srcV (.reg e))
        ∧ (∀ j, j < 65536 → (t.srcV (.reg n)).getLsbD j = if m.getLsbD j then v.getLsbD j else (s.srcV (.reg n)).getLsbD j)
        ∧ t.srcV (.q 0) = t.srcV (.reg n))
    ∧ (∀ p b, f.what = .pred p b → p < 16 → ∀ q, q < 16 → t.srcP q = if q = p ∧ p ≠ 0 then b else s.srcP q)
    ∧ (∀ a v, f.what = .store a v → t = { s with sp := Memory.write s.sp a (vregBytes v) })
    ∧ (waiting → (∀ x ∈ s.pipe.inflight, x.left ≠ 0) → exec .resultLanding s = .next
        ({ s with pipe := ⟨s.pipe.inflight.map fun (x : InFlight) => { x with left := x.left - 1 }, later, s.pipe.banks⟩ }.setStatus 0))
    ∧ (waiting → s.pipe.inflight = [f] → f.left = 0 →
        (s.noClash us → exec .resultLanding s = .next ((({ s with pipe := ⟨[], later, s.pipe.banks⟩ }.writesOf us).land f).setStatus f.flags))
        ∧ (∀ r, s.rgn = some r → r.clash us = true → exec .resultLanding s = .next (s.takeTrap { cause := .antidependence, slotless := true })))

/-- R88, R89, R98, R12: the next address: the bundle after, the start of a loop with counts left, or the target of the redirect that is due; among
those due the one issued first stands, and the branch records of the others no longer say taken. An illegal encoding takes its cause at its slot. -/
def Obligations.NextAddress : Prop :=
  ∀ (s : State) (ls : List LoopLevel) (next : VAddr),
    let pc := s.seq.pc
    let due := s.seq.redirects.filter fun r => r.left == 0
    let goes (a : VAddr) (won : Option Redirect) : State := { s with seq := { s.seq with
      loops := ls, pc := a &&& ~~~0xF#48, redirects := s.seq.redirects.filter (fun r => r.left != 0)
      held := s.seq.held.map fun b => b.lost (due.filter fun r => some r != won) } }
    let after : Prop :=
      (s.seq.loops = [] ∧ ls = [] ∧ next = pc + 16)
      ∨ (∃ l r, s.seq.loops = l :: r ∧ l.fin ≠ pc ∧ ls = l :: r ∧ next = pc + 16)
      ∨ (∃ l r, s.seq.loops = l :: r ∧ l.fin = pc ∧ 1 < l.count.toNat ∧ ls = { l with index := l.index + 1, count := l.count - 1 } :: r ∧ next = l.start)
      ∨ (∃ l r, s.seq.loops = l :: r ∧ l.fin = pc ∧ l.count.toNat ≤ 1 ∧ (∀ m, r.head? = some m → m.fin ≠ pc) ∧ ls = r ∧ next = pc + 16)
    (s.seq.bun.fin.pushed = none → s.seq.bun.fin.skip = none → s.seq.bun.fin.leaves = 0 → after →
      (due = [] → exec .branchRedirectDue s = .next (goes next none))
      ∧ ∀ r ∈ due, (∀ x ∈ due, x = r ∨ r.seq < x.seq ∨ (r.seq = x.seq ∧ r.slot < x.slot)) → exec .branchRedirectDue s = .next (goes r.target (some r)))
    ∧ exec .illegalEncoding s = .next ({ s with seq := { s.seq with bun := { s.seq.bun with slot := s.ev.num } } }.takeTrap { cause := .illegalEncoding })

/-- R37, R180, R181, R236, R241, R246, R251, R252: a variable-latency result arrives: a supervisor load's value, a load performed at its home here with
the bytes of older stores over it, a gather; a scatter writes its elements; a walk leaves its leaf in the TLB, or raises what it finds for a fetch or
a memory instruction. -/
def Obligations.ResultsArrive : Prop :=
  ∀ (s : State) (w : Wait),
    (s.pipe.waits.find? (fun w => w.id == s.ev.id && w.outstanding) = some w →
      (∀ v, w.op = .direct v ∨ w.op = .tlbp v → exec .resultArrival s = .next (s.arriveTraced w (.scalar v) 0))
      ∧ (∀ a t, w.op = .window a t →
          exec .resultArrival s = .next (s.arriveTraced w (.scalar (loadValue t (Memory.word s.sp a (tyBytes t)))) 0))
      ∧ (∀ va pa attr t pol tag, w.op = .load va (.here pa) attr t pol tag → s.loadWaits w (polClass pol) s.k.nodeId = false →
          (s.poisoned pa = false → ∃ fl : Flags, exec .resultArrival s = .next ({ s with l2 := l2Touch s.l2 (pa / 128) attr false }.arriveTraced w
              (.scalar (loadValue t (leNat (overlay (Memory.bytes s.hbm pa (tyBytes t)) (s.forwardTo w (.here pa) va (tyBytes t)))))) fl) ∧ ((polAcquire pol = false ∨ w.sup = true) → fl = 0))
          ∧ (s.poisoned pa = true → exec .resultArrival s = .next (s.faultOf w.slot w.seq { cause := .poison, eva := va, uclass := 6 })))
      ∧ (∀ b idx m ew vs, w.op = .gather b idx m ew false → s.gatherLanes (ewBytes ew) (gatherAddrs b (ewBytes ew) 0 2048 idx m) = .ok vs →
          ∃ u : State, exec .resultArrival s = .next (u.arriveTraced w (.vector (ofLanes 4 vs)) 0) ∧ u.regs = s.regs ∧ u.sp = s.sp ∧ u.k = s.k)
      ∧ (∀ b data idx m ew sp, w.op = .scatter b data idx m ew false → s.storesBefore w.seq = true →
          s.scatterLanes (ewBytes ew) s.sp (scatterWrites b (ewBytes ew) 0 2048 data idx m) = (sp, none) →
          exec .scatterComplete s = .next ({ s with sp := sp }.arrive w.id .nothing 0)))
    ∧ (let r := s.ev.walk
      (∀ x, s.page r.requester r.job r.va r.access 0 = .ok x → exec .translationWalkComplete s = .next { s with tlb := x.tlb })
      ∧ (∀ t, s.page r.requester r.job r.va r.access 0 = .error (.trap t) → (r.requester = .fetch ∨ r.requester = .ls) →
          exec .translationWalkComplete s = .next (s.takeTrap t))
      ∧ (∀ t, s.page r.requester r.job r.va r.access 0 = .error (.trap t) → (r.requester = .copy ∨ r.requester = .grammar ∨ r.requester = .remote) →
          exec .translationWalkComplete s = .next s))

/-- R122, R249, R269, R274, R276: an entry whose turn has come: a store performs at its home here, writing its bytes and no others, or is dropped where
its block is poisoned; a signal word for another node is sent as a request that holds it, and the dimensions that it crosses count (R406), one for a
vault here that the job has given up is dropped with an engine error (log 116); a fence is done; a copy joins the engine. -/
def Obligations.EntriesDrain : Prop :=
  ∀ (s : State) (e : BufEntry),
    let rest := s.buf.filter fun x => x.id != e.id
    let rel := (s.entryRel e).map fun sc => (s.k.nodeId, sc)
    s.buf.find? (fun x => x.id == s.ev.id) = some e → s.entryTurn e = true →
    (∀ pa attr va w v, e.op = .store (.here pa) attr va w v → s.poisoned pa = false →
        ∃ hbm, exec .bufferEntryDrain s = .next { s with
            hbm := hbm, l2 := l2Span s.l2 pa w attr true, rtags := tagWrite s.rtags (.here pa) w rel, buf := rest }
          ∧ (Memory.wf s.hbm = true → ∀ a, Memory.read hbm a =
              if pa ≤ a ∧ a < pa + w ∧ a < hbmEnd then BitVec.ofNat 8 (v.toNat / 256 ^ (a - pa)) else Memory.read s.hbm a))
    ∧ (∀ pa attr va w v, e.op = .store (.here pa) attr va w v → s.poisoned pa = true →
        exec .bufferEntryDrain s = .next ({ s with buf := rest }.droppedEntry e.job .poison va 6))
    ∧ (∀ pa attr va op w64 v v2, e.op = .reduce (.here pa) attr va op w64 v v2 → s.poisoned pa = false →
        exec .bufferEntryDrain s = .next { (s.atomicHome (.here pa) attr op w64 v.toNat v2.toNat rel).1 with buf := rest })
    ∧ (∀ node a v, e.op = .sigw node a v → node ≠ s.k.nodeId → e.prog = 0 → s.lost node = false → s.maySend e.job node (polClass e.pol) = true →
        s.midStream e = false →
        let q := s.fab.request s.clock s.k.nodeId (.bufDrain e.id) 6 node e.job { sigFor (s.entryK e) node a e.pol false with d3 := v } []
        let k := s.entryK e
        exec .bufferEntryDrain s = .next { { s with fab := q.1 }.dataLeaves e.job none (k.lnode ^^^ BitVec.ofNat 14 (k.logical node)) with
          buf := s.buf.map fun x => if x.id = e.id then { e with prog := 1, out := e.out ++ [q.2], state := .sent } else x })
    ∧ (∀ a v, e.op = .sigw s.k.nodeId a v → s.ownedBy e.job (vaultOf a) = false →
        exec .bufferEntryDrain s = .next ({ s with buf := rest }.engineFault e.job 15 0))
    ∧ (∀ a v, e.op = .sigw s.k.nodeId a v → s.ownedBy e.job (vaultOf a) = true → exec .bufferEntryDrain s = .next { s with
        sp := Memory.write s.sp a (toBytes 8 v.toNat), rtags := tagWrite s.rtags (.spad a) 8 rel, buf := rest })
    ∧ (∀ m sc, e.op = .fence m sc → exec .bufferEntryDrain s = .next { s with buf := rest })
    ∧ (∀ c, e.op = .copy c →
        exec .bufferEntryDrain s = .next { s with buf := rest, eng := { s.eng with copies := s.eng.copies ++ [c] } })

/-! ## Vaults, queues, groups -/

/-- R211 to R213, R377: a releasing vault that no engine work names is free; a grant gives a vault at once, or through 12,288 clocks of scrubbing where
another job owned it last, after which every byte of it reads zero; a launch whose vaults have been granted, none of them being scrubbed (log 124), is
ready if its groups are good. -/
def Obligations.VaultsChangeHands : Prop :=
  ∀ (s : State),
    (∀ v, s.vaults[s.ev.num]? = some v → v.state = .releasing → s.vaultInUse v.owner s.ev.num = false →
        exec .vaultReleaseComplete s = .next { s with vaults := s.vaults.set s.ev.num { v with state := .free, last := some v.owner } })
    ∧ (∀ v, s.vaults[s.ev.num]? = some v → v.state = .scrubbing → v.scrubEnd ≤ s.clock →
        ∃ sp, let u : State := { s with vaults := s.vaults.set s.ev.num { v with state := .owned, last := some v.owner }, sp := sp }
          exec .scrubComplete s = .next (((List.range 64).foldl (fun u q => if u.vaultsReady q then u.granted q else u) u).admitAllOf v.owner)
          ∧ (Memory.wf s.sp = true → ∀ a, Memory.read sp a =
              if 0x800000 * s.ev.num ≤ a ∧ a < 0x800000 * s.ev.num + 0x600000 then 0 else Memory.read s.sp a))
    ∧ (∀ a, s.nextGrant = some a →
        let new (v : Vault) : Vault :=
          if v.state = .owned ∧ v.owner = a.job then v
          else if v.last = none ∨ v.last = some a.job then { v with state := .owned, owner := a.job, last := some a.job }
          else { v with state := .scrubbing, owner := a.job, scrubEnd := s.clock + 12288 }
        let t : State := { s with vaults := s.vaults.zipIdx.map fun x => if a.vaults.getLsbD x.2 then new x.1 else x.1, acqs := s.acqs.erase a }
        (t.vaultsReady a.queue = true ↔ (t.queue a.queue).state = .acquiring ∧ (∀ b ∈ t.acqs, b.whole = true → b.queue ≠ a.queue)
            ∧ ∃ r, (t.queue a.queue).recs.head? = some r ∧ ∀ n y, (recVaults r).getLsbD n = true → t.vaults[n]? = some y → y.state ≠ .scrubbing)
        ∧ (t.vaultsReady a.queue = false → exec .vaultAcquisitionGrant s = .next (t.admitAllOf a.job))
        ∧ (∀ r, t.vaultsReady a.queue = true → (s.queue a.queue).recs.head? = some r → t.groupsOk r = true →
            ∃ u : State, exec .vaultAcquisitionGrant s = .next (u.admitAllOf a.job) ∧ (u.queue a.queue).state = .ready ∧ u.vaults = t.vaults ∧ u.acqs = t.acqs
              ∧ u.regs = s.regs ∧ u.k = s.k ∧ u.seq = s.seq ∧ ∀ p, p ≠ a.queue → u.queue p = s.queue p))

/-- R377, R378, R381, R135, R379, R385, R387: SELECT starts a ready program in program mode at its entry, with its record's registers, or has the
supervisor bring a saved one back; the end of a grace period or of a watchdog discards the open region, unless it commits, and enters the supervisor; a program held for
4,096 clocks is announced. A program starts with nothing in flight (log 51). -/
def Obligations.QueuesStartAndStop : Prop :=
  ∀ (s : State),
    (∀ q r, s.selects = some q → s.ev.num = q → (s.queue q).state = .ready → (s.queue q).recs.head? = some r →
        ∃ t, exec .queueStart s = .next t ∧ t.k.priv = false ∧ t.seq.pc = recEntry r ∧ t.seq.loops = [] ∧ t.seq.redirects = [] ∧ t.seq.issued = 0
          ∧ t.rgn = none ∧ t.pipe = ⟨[], [], []⟩ ∧ t.regs = { s.regs.emptyQueues with s := s.regs.s.set 2 ((recArgs r).setWidth 64), masks := [] }
          ∧ t.k.jobtag = recJob r ∧ t.k.rngKey = recKey r ∧ t.k.rngCtr = 0 ∧ t.k.retrace = recRetrace r ∧ t.k.wdleft = recBudget r ∧ t.k.rcount = 0
          ∧ t.k.subbase = (recSubcube r).subbase ∧ t.k.submask = (recSubcube r).submask ∧ t.k.dimmap = (recSubcube r).dimmap ∧ t.k.rtag = 0
          ∧ t.k.groups = recGroups r ∧ t.eng.bind.bound = false ∧ t.sch.running = some q ∧ (t.queue q).state = .running ∧ t.sp = s.sp
          ∧ t.k.status = s.k.status ∧ t.k.cause = s.k.cause)
    ∧ (∀ q, s.selects = some q → s.ev.num = q → (s.queue q).state = .saved →
        ∃ t, exec .queueStart s = .next t ∧ t.k = { s.k with priv := true, cause := 0xC061#16, epc := (s.queue q).epc, eva := 0, einfo := 0 }
          ∧ t.seq.pc = s.k.tvec &&& ~~~0xF#48 ∧ t.sch.serving = some q ∧ t.rgn = none)
    ∧ (∀ r, s.rgn = some r → s.graceOver = true → s.seq.stall = none →
        exec .graceExpiry s = .next ({ s with sch := { s.sch with preempt := none } }.discardFor r .preemption 0 0))
    ∧ (s.watchdogDue = true →
        (s.rgn = none → exec .watchdogExpiry s = .next { s with
          sch := { s.sch with notices := s.sch.notices ++ [⟨.watchdogExpiry, 0, 0, true, s.sch.running⟩] } })
        ∧ (∀ r, s.rgn = some r → r.committing = true → exec .watchdogExpiry s = .next { s with
          sch := { s.sch with notices := s.sch.notices ++ [⟨.watchdogExpiry, 0, 0, true, s.sch.running⟩] } })
        ∧ (∀ r, s.rgn = some r → r.committing = false → s.seq.stall = none → exec .watchdogExpiry s = .next (s.discardFor r .watchdogExpiry 0 0)))
    ∧ (∀ r (c : Cause) t, t = s.discardFor r c 0 0 →
        t.k.priv = true ∧ t.k.cause = BitVec.ofNat 16 (0xC000 + c.code) ∧ t.k.epc = r.snap.entry ∧ t.k.eva = 0 ∧ t.k.einfo = 0 ∧ t.rgn = none
          ∧ t.seq.pc = s.k.tvec &&& ~~~0xF#48 ∧ t.k.rcount = (if s.k.rcount = 255 then 255 else s.k.rcount + 1) ∧ t.regs.s = s.regs.s ∧ t.sp = s.sp)
    ∧ (∀ j, s.serviceDue s.ev.num = true → (s.queue s.ev.num).job = some j →
        exec .serviceHoldTimeout s = .next ({ s with sch := updQueue s.sch s.ev.num fun l => { l with serviced := true, overdue := true } }.announce j .service))

/-! ## Links and the routed fabric -/

/-- R297, R298, R300: a packet whose tag checks and whose number is expected is taken and acknowledged: a routed one joins the router's
buffers, one for this node on lane 1 is delivered; one that has come before is acknowledged again; one out of order is discarded and a replay asked for,
once; a bad tag is counted and a replay asked for; where a replay had begun it has failed, and after the eighth the link is down. A link that goes down
keeps its unacknowledged packets first at its port, for the detour, and one that is repaired is up and, with a live neighbour, usable. R324, R325, R329,
R338, R342: the packet at the head of a buffer goes on, the injection rule first: one that has come to its goal is delivered; any other goes to its least
occupied productive output, the lowest among equals, if that has a free buffer; with no usable output it takes the detour or waits; a link takes a waiting
control packet first; one that cannot advance and has waited for the time-out is suspect, in its buffer or at the link's port; a token of a lower
generation goes no further. The messages of the link protocol are the model's (log 88); so are USABLE, which follows the link (log 50), and the repair that
takes effect at once while what waits for the detour's acknowledgements is held back (log 24). -/
def Obligations.LinksAndRouting : Prop :=
  (∀ (s : State) (l : Link),
      let d := s.ev.dim
      let p := s.ev.packet
      let counted (f : Link → Link) : Fab := updLink s.fab d f
      let got : State := { s with
        fab := counted fun l => { l with expect := l.expect + 1, failed := 0, asking := false, replaying := false } }.tellLink d 9 p.lseq.toNat
      let failed := if l.replaying then l.failed + 1 else l.failed
      let asks (u : State) : State := { u with
        fab := updLink u.fab d fun l => { l with asking := true, replaying := false, failed := failed, replays := l.replays + 1 } }.tellLink
          d 10 l.expect.toNat
      let bad : State := { s with fab := counted fun l => { l with tagFails := l.tagFails + 1 } }
      d < 14 → s.fab.links[d]? = some l →
      (p.intact = true → p.told = none → p.lseq = l.expect →
          (p.kind = 11 → bits (p.dw 3) 0 32 < s.fab.token.maxGen.toNat → exec .linkPacketArrival s = .next (got.release (some (p.lane, d))))
          ∧ (p.lane = 0 → p.kind ≠ 11 → p.kind ≠ 3 → exec .linkPacketArrival s = .next { got with fab := { got.fab with bufs := s.fab.bufs ++ [⟨0, d, s.clock, p, false⟩] } })
          ∧ (∀ row, p.lane = 1 → p.kind < 4 → p.dst = s.k.nodeId → p.row = some row →
              let taken : State := { got with inbox := ⟨row, { dim := d, packet := p }⟩ :: s.inbox }
              exec .linkPacketArrival s = .next (if linkState s.k.linkstat d = 1 then taken.tellLink d 11 1 else taken)))
      ∧ (p.intact = true → p.told = none → p.lseq ≠ l.expect → (l.expect - p.lseq).toNat ≤ 64 →
          exec .linkPacketArrival s = .next (s.tellLink d 9 (l.expect - 1).toNat))
      ∧ (p.intact = true → p.told = none → 64 < (l.expect - p.lseq).toNat →
          (l.asking = true → exec .linkPacketArrival s = .next s)
          ∧ (l.asking = false → exec .linkPacketArrival s = .next (if 8 ≤ failed then (asks s).dropLink d 0 else asks s)))
      ∧ (p.intact = false → linkState s.k.linkstat d ≠ 3 →
          (l.asking = true → exec .linkPacketArrival s = .next (if p.told.isSome then bad.tellLink d 10 l.expect.toNat else bad))
          ∧ (l.asking = false → exec .linkPacketArrival s = .next (if 8 ≤ failed then (asks bad).dropLink d 0 else asks bad)))
      ∧ (linkState s.k.linkstat d = 1 → exec .linkDown s = .next { s with
          k := s.k.setLink d 2
          fab := { (counted (fun l => { l with
            replay := [], failed := 0, asked := 0, asking := false, replaying := false, lseq := 0, expect := 0
            ready := (((l.replay.drop s.ev.count).filter fun p => !p.isFiller).map fun p => ⟨p.lane, p, none, 0, false⟩) ++ l.ready })).undetour d with
            rtcfg := putBits s.fab.rtcfg d 1 0 } })
      ∧ (s.err.links.getLsbD d = true → exec .linkRepair s = .next s)
      ∧ (s.err.links.getLsbD d = false →
        let live := !s.lost (s.k.nodeId ^^^ BitVec.twoPow 14 d)
        let up : State := { s with
          k := s.k.setLink d 1
          fab := { counted (fun l => { l with
            lseq := 0, expect := 0, failed := 0, asked := 0, asking := false, replaying := false, replay := []
            used := [l.ready.countP fun o => o.lane == 0, 0, 0, 0, 0] }) with
            rtcfg := putBits s.fab.rtcfg d 1 (if live then 1 else 0) } }
        exec .linkRepair s = .next ((List.range 5).foldl (fun u lane =>
          if s.occupied d lane = 0 then u else u.tellLink d 14 (lane + 8 * s.occupied d lane)) up))
      ∧ (∀ o, s.ev.flag = true → l.ready[s.ev.id]? = some o → o.adaptive = true → o.suspect = false → s.leaving d ≠ some o →
          o.since + suspectTime s.fab ≤ s.clock →
          exec .suspectTimeout s = .next { s with fab := counted fun l => { l with ready := l.ready.modify s.ev.id fun o => { o with suspect := true } } })
      ∧ (∀ o, s.ev.flag = true → linkState s.k.linkstat d = 1 → l.detoured ≠ 0 → l.replay.length < 64 → s.err.selft = none → o.lane ≠ 4 →
          l.ready.find? (fun o => o.packet.detourAck) = some o →
          exec .route s = .next ({ s with fab := counted (·.put o) }.release o.held))
      ∧ (∀ o, s.ev.flag = true → linkState s.k.linkstat d = 1 → l.detoured = 0 → l.replay.length < 64 → s.err.selft = none →
          l.ctlLast = false → l.inUse 3 < 16 → (l.ready.find? fun x => x.lane == 3) = some o →
          exec .route s = .next ({ s with fab := counted (·.put o) }.release o.held)))
  ∧ (∀ (s : State) (b : Buffered),
      let i := s.ev.id
      let held : Option (Nat × Nat) := some (b.lane, b.input)
      let p0 := if b.input = 14 then s.injected (Config.freeRouterRandom s.freeCount) b.packet else b.packet
      let p := if p0.nonmin = true ∧ p0.inter = s.k.nodeId then p0.setNonmin false p0.inter else p0
      let goal := if p.nonmin then p.inter else p.dst
      let outs := (differ s.k.nodeId goal).filter (usable s.fab)
      let occ := occOf s.fab
      let s1 : State := { s with freeCount := s.freeCount + 1 }
      let t : State := { s1 with fab := s.fab.unbuffer s.clock i }
      s.ev.flag = false → s.fab.bufs[i]? = some b → s.fab.atHead i = true →
      (goal = s.k.nodeId → exec .route s = .next ((t.deliver (if b.input < 14 then b.input else 0) p).release held))
      ∧ (∀ e ∈ outs, goal ≠ s.k.nodeId → (∀ j ∈ outs, occ e < occ j ∨ (occ e = occ j ∧ e ≤ j)) →
          (occ e < 4 → exec .route s = .next { t with fab := updLink t.fab e fun l => l.send 0 p held (b.since, b.suspect) })
          ∧ (4 ≤ occ e → exec .route s = .next s1))
      ∧ (goal ≠ s.k.nodeId → outs = [] → exec .route s = .next ((t.detourSend ((differ s.k.nodeId goal).headD 0) p held (b.since, b.suspect)).getD s1))
      ∧ (b.suspect = false → s.canRoute i = false → b.since + suspectTime s.fab ≤ s.clock →
          exec .suspectTimeout s = .next { s with fab := { s.fab with bufs := s.fab.bufs.modify i fun x => { x with suspect := true } } }))

/-- R331 to R333: the receiver's side of a flow: the write with the expected number performs at its home here and the number moves on; one
with a reserved value is discarded and counted; the acknowledgement is sent while it is due. The sender's: an acknowledgement takes the
packets that it covers; after 115,200 clocks the rest are sent again, at most eight times; a flow that is quiet is forgotten. R240, R331,
R336, R337: a response ends its request: the check of an entry, the load that waits for it, or what an atomic is stalled for; a status
that refuses a waiting load raises its cause in the region. R339 to R342, R346, R347: a token of a lower generation is discarded; a node
that takes one and has no suspect packet passes it on; a report lets it go on; the lowest live node makes a new one of the next
generation; a probe that comes back writes its signal word and gives notice, one for a node that does not wait dies, and a time-out writes
the tag alone. The model's own: where a drained packet's drain and a probe's sender stand (INTER, log 25), the SYNC bits of an answer (log 37), the
caching of a write as its issuer has it (log 84), and the notices of a retirement, CTYPE 7 and 8 (log 88). -/
def Obligations.FlowsAndResponses : Prop :=
  (∀ (s : State),
      let p := s.ev.packet
      let r := s.fab.flowFrom p.job p.src p.flow
      let mine := s.fab.flowFrom s.ev.job s.ev.peer s.ev.flow
      let t := s.fab.flowTo s.ev.job s.ev.peer s.ev.flow
      let last := BitVec.ofNat 12 (bits (p.dw 3) 0 12)
      let map := bits (p.dw 4) 0 32
      let fl := bits (p.dw 3) 12 5
      let u := s.fab.flowTo p.job p.src fl
      (∀ pa attr tlb, p.reserved = false → p.flow ≠ 31 → p.kind = 6 → p.check = false → p.nflit ≠ 0 → p.eseq = r.expect → r.marked = [] → r.pool = [] →
          (∀ x ∈ s.fab.serial, x.started = false ∧ x.last = false) → p.space ≠ 2 → p.payload ≠ [] → p.addr.toNat % 128 + p.payload.length ≤ 128 →
          s.targetLoc p.job p.space p.addr p.payload.length true = .ok (.here pa, attr, tlb) →
          exec .flowPacketArrival s = .next { s with
            hbm := Memory.write s.hbm pa (p.payload.take (hbmEnd - pa))
            l2 := l2Span s.l2 pa p.payload.length (issuerView p.space (Config.issuerAttr s.pickCount) attr) true
            rtags := tagWrite s.rtags (.here pa) p.payload.length p.release, tlb := tlb, pickCount := s.pickCount + 1
            fab := s.fab.putRx { r with expect := r.expect + 1, ackDue := some (r.ackDue.getD (s.clock + 64)) } })
      ∧ ((p.reserved = true ∨ p.flow = 31) → (∀ x ∈ s.fab.serial, x.started = false) → exec .flowPacketArrival s = .next { s with
          fab := updLink s.fab s.ev.dim fun l => { l with errors := l.errors + 1 } })
      ∧ (mine.ackDue.isSome = true → exec .sequenceAckSend s = .next ({ s with fab := s.fab.putRx { mine with ackDue := none } }.sendControl (s.ackPacket mine)))
      ∧ (p.status = 0 → (∀ x ∈ u.unacked, acked fl last map x = false) → exec .sequenceAckArrival s = .next s)
      ∧ (∀ n q id e, p.status = 0 → u.unacked = [(n, q)] → acked fl last map (n, q) = true → q.check = false → q.kind = 6 →
          s.fab.reqs.find? (fun x => x.rtag == q.rtag) = some e → e.who = .bufDrain id →
          ∀ b, s.buf.find? (fun x => x.id == id) = some b → b.state = .sent → b.out = [q.rtag] →
          exec .sequenceAckArrival s = .next { s with
            fab := (s.fab.putTx { u with unacked := [], since := s.clock, tries := 0, dead := false }).dropReq q.rtag, buf := s.buf.filter fun x => x.id != id })
      ∧ (∀ n x, last = n → acked fl last map (n, x) = true)
      ∧ (t.unacked ≠ [] → t.since + 115200 ≤ s.clock → t.tries < 8 →
          let f := s.fab.putTx { t with since := s.clock, tries := t.tries + 1 }
          exec .retransmitTimeout s = .next { s with fab := { f with
            bufs := s.fab.bufs ++ t.unacked.map fun x => ⟨0, 14, s.clock, x.2, false⟩, resent := min 65535 (s.fab.resent + t.unacked.length) } })
      ∧ (t.unacked ≠ [] → t.since + 115200 ≤ s.clock → 8 ≤ t.tries → exec .retransmitTimeout s = .next (s.unreachable t))
      ∧ (s.ev.flag = false → t ∈ s.fab.tx → t.unacked = [] → t.retiring = false → t.since + 1800000 ≤ s.clock → exec .flowRetire s = .next
          ({ s with fab := s.fab.putTx { t with retiring := true } }.sendControl (retirePacket s.k.nodeId t.dst t.job 7 t.flow)))
      ∧ (s.ev.flag = true → s.ev.num = 0 → exec .flowRetire s = .next ({ s with
          fab := { s.fab with rx := s.fab.rx.filter fun x => !(x.is s.ev.job s.ev.peer s.ev.flow && x.pool.isEmpty) } }.sendControl
            (retirePacket s.k.nodeId s.ev.peer s.ev.job 8 s.ev.flow)))
      ∧ (s.ev.flag = true → s.ev.num ≠ 0 → exec .flowRetire s = .next { s with fab := { s.fab with
          tx := s.fab.tx.filter fun x => !(x.is s.ev.job s.ev.peer s.ev.flow && x.retiring) } })
      ∧ (∀ j n fl, (s.fab.flowTo j n fl).retiring = true → s.fab.hasRoom j n fl = false))
  ∧ (∀ (s : State) (q : Req),
      let p := s.ev.packet
      let done : State := { s with fab := { s.fab with reqs := s.fab.reqs.filter fun x => x.rtag != p.rtag } }
      s.fab.reqs.find? (fun x => x.rtag == p.rtag) = some q →
      (((∃ n, q.who = .atomic n) ∨ (∃ n, q.who = .direct n) ∨ q.who = .atomicCheck) → exec .remoteResponseArrival s = .next { done with
          fab := { done.fab with answers := done.fab.answers ++ [⟨q.job, q.who, p.src, q.va, p.status, p.dw 3, p.sync % 2 == 1⟩] } })
      ∧ (∀ u pa, q.who = .peek u pa → p.payload = [] →
          exec .remoteResponseArrival s = .next { done with fab := { done.fab with peeks := done.fab.peeks ++ [⟨u, p.src, pa, p.status, p.dw 3⟩] } })
      ∧ (∀ id e, q.who = .bufCheck id → p.status = 0 → s.buf.find? (fun x => x.id == id) = some e → exec .remoteResponseArrival s = .next { done with
          buf := s.buf.map fun x => if x.id = e.id then { e with out := e.out.erase p.rtag } else x })
      ∧ (∀ id w, q.who = .wait id → s.pipe.waits.find? (fun w => w.id == id && w.outstanding) = some w →
          (∀ va l attr t pol tag, w.op = .load va l attr t pol tag → p.status = 0 →
            ∃ fl : Flags, exec .remoteResponseArrival s = .next (done.arriveTraced w
                (.scalar (loadValue t (leNat (overlay (toBytes (tyBytes t) (p.dw 3).toNat) (s.forwardTo w l va (tyBytes t)))))) fl)
              ∧ (fl = 0x100#32 ↔ w.sup = false ∧ polAcquire pol = true ∧ p.sync % 2 = 0) ∧ (fl = 0 ∨ fl = 0x100#32))
          ∧ (1 ≤ p.status → p.status ≤ 3 → exec .remoteResponseArrival s = .next (done.faultOf w.slot w.seq
              { cause := .remoteTranslation, eva := s.requestVa q, unit := p.status, detail := p.src.setWidth 16 }))
          ∧ (p.status = 4 → exec .remoteResponseArrival s = .next (done.faultOf w.slot w.seq { cause := .poison, eva := s.requestVa q, uclass := 6 }))
          ∧ (p.status = 5 → exec .remoteResponseArrival s = .next (done.faultOf w.slot w.seq { cause := .vaultOwnership, eva := s.requestVa q }))))
  ∧ (∀ (s : State),
      let p := s.ev.packet
      let t := s.fab.token
      let gen := BitVec.ofNat 32 (bits (p.dw 3) 0 32)
      let laps := BitVec.ofNat 32 (bits (p.dw 4) 0 32) + (if ringPos s.k.nodeId s.k.lattice = 0 then 1 else 0)
      let calm : Prop := (∀ b ∈ s.fab.bufs, b.suspect = false) ∧ ∀ l ∈ s.fab.links, ∀ o ∈ l.ready, o.suspect = false
      let withToken (k : Token) : State := { s with fab := { s.fab with token := k } }
      let tag := BitVec.ofNat 16 (bits (p.dw 3) 0 16)
      let signals (u : State) (q : Probe) (v : Nat) : State := { u with
        sp := Memory.write s.sp q.addr (toBytes 8 v), rtags := tagWrite s.rtags (.spad q.addr) 8 (some (s.k.nodeId, 0)) }
      let gone (q : Probe) : State := { s with fab := { s.fab with probes := s.fab.probes.filter fun x => x.id != q.id } }
      (gen < t.maxGen → exec .pilotTokenArrival s = .next s)
      ∧ (t.maxGen ≤ gen → calm → exec .pilotTokenArrival s = .next (withToken
          { t with held := true, gen := gen, laps := laps, seen := s.clock, maxGen := gen, lapsSeen := laps.setWidth 16, waiting := false }).passToken)
      ∧ (t.waiting = true → exec .ejectionReportArrival s = .next s.passToken)
      ∧ (s.tokenLost = true → s.lowestLive = true → calm → exec .tokenLossTimeout s = .next (withToken
          { t with held := true, gen := t.maxGen + 1, laps := 0, seen := s.clock, maxGen := t.maxGen + 1, waiting := false }).passToken)
      ∧ (∀ q, p.src = s.k.nodeId → s.fab.probes.find? (fun q => q.tag == tag && q.job == p.job) = some q → s.ownedBy q.job (vaultOf q.addr) = true →
          let v := 2 ^ 63 + p.inter.toNat * 2 ^ 16 + tag.toNat
          exec .waitProbeArrival s = .next { signals (gone q) q v with sch := { s.sch with
            notices := s.sch.notices ++ [⟨.waitCycle, 0, BitVec.ofNat 64 v, false, s.queueOf p.job⟩] } })
      ∧ (p.src ≠ s.k.nodeId → s.blocked p.job = false → exec .waitProbeArrival s = .next s)
      ∧ (∀ q, s.fab.probes.find? (fun q => q.id == s.ev.id) = some q → q.due ≤ s.clock →
          (s.ownedBy q.job (vaultOf q.addr) = true → exec .probeTimeout s = .next (signals (gone q) q q.tag.toNat))
          ∧ (s.ownedBy q.job (vaultOf q.addr) = false → exec .probeTimeout s = .next (gone q))))

/-! ## Errors, shoot-downs, fences -/

/-- R262, R263: a shoot-down drops the lines of its range, clears V in its leaves and drops its translations; when nothing holds one it is
acknowledged and the supervisor is told; the sender strikes out who has acknowledged. R301, R405, R407: a fence holds its job here and
goes on to the other nodes; a release, by a peer or by the host, lets it run again; a neighbour's quarantine makes its link unusable and
fails the exchanges that wait for it. -/
def Obligations.NoticesBetweenNodes : Prop :=
  (∀ (s : State),
      let p := s.ev.packet
      (∃ t, exec .shootDownArrival s = .next t ∧ t.tlb = s.tlbWithout (some p.job) (some (p.dw 4)) ∧ t.l2 = (s.dropLines p.job (p.dw 4)).1
          ∧ t.fab = { s.fab.without p.job true (s.dropLines p.job (p.dw 4)).2.2 with
              shoots := s.fab.shoots ++ [⟨s.nextId, p.job, p.src, p.dw 4, p.dw 3, [], false⟩] }
          ∧ t.nextId = s.nextId + 1
          ∧ t.regs = s.regs ∧ t.sp = s.sp ∧ t.seq = s.seq ∧ t.sch = s.sch
          ∧ (s.rangeLeaves p.job (p.dw 4) = [] → t.hbm = s.hbm)
          ∧ (∀ a e lvl page, s.rangeLeaves p.job (p.dw 4) = [(a, e, lvl, page)] → Memory.wf s.hbm = true → a + 8 ≤ hbmEnd →
              Memory.dword t.hbm a = e &&& ~~~1#64))
      ∧ (∀ h, s.fab.shoots.find? (fun h => h.id == s.ev.id) = some h → h.mine = false → s.holding (some h.job) (some h.range) = false →
          exec .shootDownAcknowledge s = .next
            ((({ s with fab := { s.fab with shoots := s.fab.shoots.filter fun x => x.id != h.id } }).sendControl
              (routedPacket 14 3 s.k.nodeId h.src h.job {} [])).notice
              ⟨.shootDownNotice, BitVec.ofNat 48 (bits h.range 16 32 * 65536), h.notice, false, s.queueOf h.job⟩))
      ∧ exec .shootDownAckArrival s = .next { s with fab := { s.fab with shoots := s.fab.shoots.map fun h =>
          if h.mine = true ∧ h.job = p.job then { h with left := h.left.filter fun n => n != p.src } else h } })
  ∧ (∀ (s : State),
      let p := s.ev.packet
      (s.fencedJob p.job = true → exec .fenceNoticeArrival s = .next (s.forwardNotice p))
      ∧ (s.fencedJob p.job = false → ∃ t : State, exec .fenceNoticeArrival s = .next (t.forwardNotice p) ∧ t.err = { s.err with fenced := s.err.fenced ++ [p.job] }
          ∧ t.regs = s.regs ∧ t.k = s.k ∧ t.seq = s.seq ∧ t.sp = s.sp
          ∧ (∀ q, (s.queue q).job = some p.job → (s.queue q).state = .held → (s.queue q).hold ≠ .fatal → (t.queue q).hold = .fenced)
          ∧ (∀ q, (s.queue q).job ≠ some p.job → t.queue q = s.queue q)
          ∧ (∀ q, (s.queue q).job = some p.job → (s.queue q).state = .running →
              (∀ i, i < q → (s.queue i).job = some p.job → (s.queue i).state ≠ .running) →
              t.sch.notices = s.sch.notices ++ [⟨.jobFenced, 0, 0, false, some q⟩]))
      ∧ (s.fencedJob p.job = false → exec .releaseNoticeArrival s = .next (s.forwardNotice p))
      ∧ (s.fencedJob p.job = true → ∃ t : State, exec .releaseNoticeArrival s = .next (t.forwardNotice p) ∧ t = s.releaseHere p.job)
      ∧ exec .fencerel s = .next ((s.releaseHere s.ev.job).spread s.ev.job 5)
      ∧ (∀ j t, t = s.releaseHere j → s.fencedJob j = true → t.err = { s.err with fenced := s.err.fenced.filter fun x => x != j } ∧ t.sp = s.sp ∧ t.hbm = s.hbm
          ∧ ∀ q, (s.queue q).job = some j → (s.queue q).state = .held → ((s.queue q).hold = .fenced ∨ (s.queue q).hold = .loss) →
              (t.queue q).hold = .released ∧ (t.queue q).state = .held)
      ∧ (p.src ∈ s.fab.dead → exec .quarantineNoticeArrival s = .next s)
      ∧ (p.src ∉ s.fab.dead → exec .quarantineNoticeArrival s = .next { s with
          fab := { s.fab with dead := s.fab.dead ++ [p.src], rtcfg := putBits s.fab.rtcfg (s.portFrom p) 1 0 } }.partnersLost))

/-- R394, R396, R402 to R407: an uncorrectable error of memory poisons its block, one that re-entry restores raises a soft error and any other state
loss; one that comes while a region closes waits for the boundary; one in work of an engine stops that work; a correctable one is only counted; a passed
test ends and its result arrives, and a failed one quarantines its unit; a host interrupt is a notice, or discards the region at once when it is urgent.
The unit classes that the table of R404 leaves open, and a lost word that reads zero at once, are the model's (log 28), and so is the flag that says how a
test comes out (log 75). -/
def Obligations.ErrorsAreTaken : Prop :=
  ∀ (s : State),
    let trap (c : Cause) (u n : Nat) : Trap := { cause := c, uclass := u, unit := n, detail := Config.freeSyndrome s.freeCount, slotless := true }
    let s1 : State := { s with freeCount := s.freeCount + 1 }
    let runs : Prop := s.k.priv = false ∧ s.sch.running.isSome = true ∧ s.err.selft = none ∧ s.seq.stall = none ∧ s.closing = false
    (∀ pa, s.ev.errAt = .line pa → pa / 4096 ∉ s.poison → exec .uncorrectableError s = .next { s with poison := s.poison ++ [pa / 4096] })
    ∧ (∀ pa, s.ev.errAt = .line pa → pa / 4096 ∈ s.poison → exec .uncorrectableError s = .next s)
    ∧ (∀ pa, s.ev.errAt = .cached pa → (∀ x ∈ s.l2, x.line = pa / 128 → x.dirty = false) → exec .uncorrectableError s = .next s)
    ∧ (∀ pa x, s.ev.errAt = .cached pa → x ∈ s.l2 → x.line = pa / 128 → x.dirty = true → pa / 4096 ∉ s.poison →
        exec .uncorrectableError s = .next { s with poison := s.poison ++ [pa / 4096] })
    ∧ (runs → (s.ev.errAt = .inflight ∨ s.ev.errAt = .resultQueue) → exec .uncorrectableError s = .next (s1.takeTrap (trap .softError 1 0)))
    ∧ (s.closing = true → s.sch.running.isSome = true → (s.ev.errAt = .inflight ∨ s.ev.errAt = .resultQueue) →
        exec .uncorrectableError s = .next (s1.pended (trap .softError 1 0) (s1.einfoOf (trap .softError 1 0))))
    ∧ (∀ c, s.ev.errAt = .engine s.ev.id → s.eng.copies.find? (fun c => c.id == s.ev.id && c.admitted) = some c →
        exec .uncorrectableError s = .next ((s.copyGone s.ev.id).engineFault c.job 5 0)
        ∧ exec .engineError s = .next ((s.copyGone s.ev.id).engineFault c.job 5 0))
    ∧ (∀ n, runs → s.ev.errAt = .pred n →
        (∀ r, s.rgn = some r → .p n ∈ r.writes → exec .uncorrectableError s = .next (s1.takeTrap (trap .softError 1 0)))
        ∧ ((∀ r, s.rgn = some r → .p n ∉ r.writes) →
          exec .uncorrectableError s = .next ({ s1 with regs := s.regs.writeP n false }.takeTrap (trap .stateLoss 1 0))))
    ∧ (runs → s.ev.errAt = .status → exec .uncorrectableError s = .next ({ s1 with k := { s.k with status := 0 } }.takeTrap (trap .stateLoss 0 0)))
    ∧ (∀ n, runs → s.ev.errAt = .scalar n →
        (∀ r, s.rgn = some r → .s n ∈ r.writes → exec .uncorrectableError s = .next (s1.takeTrap (trap .softError 1 0)))
        ∧ ((∀ r, s.rgn = some r → .s n ∉ r.writes) →
          exec .uncorrectableError s = .next ({ s1 with regs := { s.regs with s := s.regs.s.set n 0 } }.takeTrap (trap .stateLoss 1 0))))
    ∧ (∀ n, runs → s.ev.errAt = .tile n true → exec .uncorrectableError s = .next
        ({ s1 with mat := { s.mat with comm := s.mat.comm.modify n fun t => { t with cells := [] } } }.takeTrap (trap .stateLoss 2 0)))
    ∧ exec .correctableError s = .next { s with err := { s.err with corrected := s.err.corrected.modify s.ev.num (· + 1) } }
    ∧ (∀ t, s.err.selft = some t → s.isQuarantined t.uclass t.unit_ = false → s.err.untested = [] → s.err.engine = [] → s.ev.flag = false →
        exec .selftComplete s = .next ({ s1 with err := { s.err.passed t.uclass with selft := none } }.arriveById t.wait
          (.scalar (BitVec.ofNat 64 (Config.freeSelftClocks s.freeCount).toNat))))
    ∧ (∀ t, s.err.selft = some t → s.isQuarantined t.uclass t.unit_ = false → s.err.untested = [] → s.err.engine = [] → s.heldQueue = none → s.ev.flag = true →
        exec .selftComplete s = .next (({ s1 with err := { s.err with selft := none } }.quarantine t.uclass t.unit_).arriveById t.wait
          (.scalar (BitVec.ofNat 64 (2 ^ 62 + (Config.freeSelftSub s.freeCount).toNat * 2 ^ 32 + (Config.freeSelftClocks s.freeCount).toNat)))))
    ∧ (s.ev.flag = false → exec .hostInterrupt s = .next { s with sch := { s.sch with notices := s.sch.notices ++ [⟨.hostInterrupt, 0, 0, false, none⟩] } })
    ∧ (s.ev.flag = true → (s.rgn = none ∨ s.k.priv = true ∨ ∃ r, s.rgn = some r ∧ r.committing = true) → exec .hostInterrupt s = .next { s with
        sch := { s.sch with notices := s.sch.notices ++ [⟨.hostInterrupt, 0, 0, true, s.sch.running⟩] } })
    ∧ (∀ r, s.ev.flag = true → s.rgn = some r → r.committing = false → s.k.priv = false → s.seq.stall = none → exec .hostInterrupt s = .next (s.discardFor r .hostInterrupt 0 0))

/-! ## The host and the package -/

/-- R109, R233, R328, R410 to R413, R416, R423, R424: the host's writes and reads of this node's aperture of the memory window, and its reads of and
writes to the control window, each with its one effect; a window address past the HBM reads all ones, discards a write, and sets HINT bit 6; PWRCAP takes
500 to 3200. That a migration request stands until its leaf has changed is log 30, that a PWRCAP out of range is ignored log 62, the flag of MSIX_UNMASK log
64, that another window size is ignored log 130. -/
def Obligations.HostWindows : Prop :=
  (∀ (s : State),
      let h := s.hst
      let v := s.ev.value
      let n := 2 ^ h.window / 4
      let mine : Prop := s.ev.off / n = s.k.nodeId.toNat % 4
      let a := h.mwbase.toNat / n * n + s.ev.off % n
      let put (g : Hst) : Host.Outcome State Fault Refusal := .next { s with hst := g }
      (mine → a + s.ev.bytes.length ≤ hbmEnd → exec .hostMemoryWrite s = .next { s with
          hbm := Memory.write s.hbm a s.ev.bytes, l2 := l2Span s.l2 a s.ev.bytes.length physAttr true
          rtags := tagWrite s.rtags (.here a) s.ev.bytes.length none })
      ∧ (mine → hbmEnd < a + s.ev.bytes.length → exec .hostMemoryWrite s = put (h.setHint s.k.vector 6))
      ∧ (¬ mine → exec .hostMemoryWrite s = .next s)
      ∧ (¬ mine → s.ev.flag = false → s.ev.num ≠ 2 → exec .hostMemoryRead s = .next s)
      ∧ (∀ o, s.ev.flag = false → s.ev.num = 2 → s.ev.off = s.k.nodeId.toNat % 4 * 0x10000 + o → s.ev.count = 8 →
          let reads (v : DWord) : Prop := exec .hostMemoryRead s = put { h with readData := toBytes 8 v.toNat }
          (o = 0x000 → reads h.nctl) ∧ (o = 0x018 → reads h.trrd) ∧ (o = 0x020 → reads h.trwr) ∧ (o = 0x040 → reads h.elwr) ∧ (o = 0x050 → reads h.jtbase)
          ∧ (o = 0x060 → reads s.fab.rtcfg) ∧ (o = 0x078 → reads (h.migrs.setWidth 64)) ∧ (o = 0x080 → reads (h.hint.setWidth 64))
          ∧ (o = 0x090 → reads s.k.feat0) ∧ (o = 0x0B0 → reads (h.brstat.setWidth 64)) ∧ (o = 0x0B8 → reads (h.pstate.setWidth 64))
          ∧ (o = 0x0C0 → reads h.mwbase) ∧ (o = 0x0C8 → reads (h.hinten.setWidth 64)) ∧ (o = 0x0D0 → reads h.qdoneen)
          ∧ (∀ i w, i < 32 → o = 0x100 + 8 * i → s.vaults[i]? = some w → ∃ v : DWord, reads v ∧ (v.getLsbD 2 = w.quarantined)
              ∧ (w.state ≠ .free → bits v 48 16 = w.owner.toNat)
              ∧ bits v 0 2 = match w.state with | .free => 0 | .owned => 1 | .releasing => 2 | .scrubbing => 3)
          ∧ (o % 8 = 0 → (o = 0x068 ∨ o = 0x070 ∨ o = 0x088 ∨ (0x0D8 ≤ o ∧ o < 0x100) ∨ (0x300 ≤ o ∧ o < 0x10000)) → reads 0))
      ∧ (∀ q o, s.ev.flag = true → s.ev.off = s.k.nodeId.toNat % 4 * 0x40000 + q * 0x1000 + o → q < 64 → s.ev.count = 8 →
          let reads (v : DWord) : Prop := exec .hostMemoryRead s = put { h with readData := toBytes 8 v.toNat }
          (o = 0x040 → reads (s.queue q).qstat) ∧ (o = 0x048 → (s.queue q).state = .running → reads s.waitr)
          ∧ (o = 0x048 → (s.queue q).state ≠ .running → reads 0) ∧ (o = 0x050 → reads ((s.queue q).exit.setWidth 64))
          ∧ (o < 0x1000 → o % 8 = 0 → o ≠ 0x040 → o ≠ 0x048 → o ≠ 0x050 → reads 0))
      ∧ (mine → s.ev.flag = false → s.ev.num ≠ 2 → a + s.ev.count ≤ hbmEnd →
          exec .hostMemoryRead s = put { h with readData := Memory.bytes s.hbm a s.ev.count })
      ∧ (mine → s.ev.flag = false → s.ev.num ≠ 2 → hbmEnd < a + s.ev.count →
          exec .hostMemoryRead s = put ({ h with readData := List.replicate s.ev.count 0xFF#8 }.setHint s.k.vector 6))
      ∧ (∃ n : DWord, exec .traceOn s = put { h with nctl := n } ∧ ∀ i, i < 64 → n.getLsbD i = if i = 1 then s.ev.flag else h.nctl.getLsbD i)
      ∧ (∃ n : DWord, exec .dataMode s = put { h with nctl := n } ∧ ∀ i, i < 64 → n.getLsbD i = if i = 2 then s.ev.flag && s.feature 3 else h.nctl.getLsbD i)
      ∧ (∃ n : DWord, exec .breakpointHaltsEnabled s = put { h with nctl := n } ∧ ∀ i, i < 64 → n.getLsbD i = if i = 3 then s.ev.flag else h.nctl.getLsbD i)
      ∧ exec .releaseHalt s = .next { s with seq := { s.seq with halted := false } }
      ∧ (h.traceQ = [] → exec .trrdWrite s = put { h with trrd := v &&& 0xFFFFFFFFFFFFFFF0#64 })
      ∧ exec .elrdWrite s = put { h with elrd := v &&& 0xFFFFFFFFFFFFFFC0#64 }
      ∧ exec .hintClear s = put { h with hint := h.hint &&& ~~~(v.setWidth 9) }
      ∧ (h.hint = 0 → exec .hintenWrite s = put { h with hinten := v.setWidth 9 })
      ∧ (h.featSet = false → exec .featack s = .next { s with k := { s.k with featack := v &&& s.k.feat0 }, hst := { h with featSet := true } })
      ∧ (h.featSet = true → exec .featack s = .next s)
      ∧ (let e := s.leafAt (BitVec.ofNat 16 (bits v 48 16)) (bits v 16 32)
        (e = none → exec .migrq s = put { h with migrs := 3, migrq := none })
        ∧ ∀ x w lvl, e = some (x, w, lvl) →
          let pages := if lvl = 3 then (List.range 32).map fun i => bits v 16 32 / 32 * 32 + i else [bits v 16 32]
          ((∀ p ∈ pages, ∀ l ∈ pageLines s.l2 w lvl p, l.pins = 0) → exec .migrq s = put { h with migrs := 0, migrq := some (v, w) })
          ∧ ((∃ p ∈ pages, ∃ l ∈ pageLines s.l2 w lvl p, 0 < l.pins) → exec .migrq s = put { h with migrs := 2, migrq := none }))
      ∧ (let base := 8 * (s.k.nodeId.toNat % 4)
        (∀ j, j < 8 → s.ev.num = base + j → h.msixMask.length = 8 → h.msixPend.length = 8 → (∀ i, i < 8 → i ≠ j → h.msixPend[i]? = some false) →
          (s.ev.flag = false → h.msixFun = false → h.msixPend[j]? = some true → exec .msixUnmask s =
              put { h with msixMask := h.msixMask.set j false, msixPend := h.msixPend.set j false, msixSent := h.msixSent ++ [base + j] })
          ∧ (s.ev.flag = false → (h.msixFun = true ∨ h.msixPend[j]? = some false) → exec .msixUnmask s = put { h with msixMask := h.msixMask.set j false })
          ∧ (s.ev.flag = true → exec .msixUnmask s = put { h with msixMask := h.msixMask.set j true }))
        ∧ (s.ev.num = 32 → s.ev.flag = true → exec .msixUnmask s = put { h with msixFun := true })
        ∧ (s.ev.num = 32 → s.ev.flag = false → (∀ i, i < 8 → h.msixPend[i]? = some false) → exec .msixUnmask s = put { h with msixFun := false })
        ∧ ((s.ev.num < base ∨ base + 8 ≤ s.ev.num) → s.ev.num ≠ 32 → exec .msixUnmask s = .next s)))
  ∧ (∀ (s : State),
      let h := s.hst
      let v := s.ev.value
      let r := s.ev.reg
      let put (g : Hst) : Prop := exec .hostRegisterWrite s = .next { s with hst := g }
      let n := 2 ^ h.window / 4
      s.ev.flag = false →
      (r = .trbase → put { h with trbase := v })
      ∧ (r = .trlen → put { h with trlen := v &&& 0xFFFFFFFFFFFFFFF0#64 })
      ∧ (r = .elbase → put { h with elbase := v })
      ∧ (r = .ellen → put { h with ellen := v &&& 0xFFFFFFFFFFFFFFC0#64 })
      ∧ (r = .jtbase → put { h with jtbase := v })
      ∧ (r = .grace → put { h with grace := v })
      ∧ (r = .mwbase → put { h with mwbase := BitVec.ofNat 64 (v.toNat / n * n) })
      ∧ (∀ i, r = .bar4 → 30 ≤ i → i < 40 → v.toNat = 2 ^ i → put { h with window := i })
      ∧ (r = .bar4 → (∀ i, 30 ≤ i → i < 40 → v.toNat ≠ 2 ^ i) → put h)
      ∧ (r = .qdoneen → put { h with qdoneen := v })
      ∧ (r = .pwrcap → 500 ≤ v.toNat → v.toNat ≤ 3200 → put { h with pwrcap := v })
      ∧ (r = .pwrcap → (v.toNat < 500 ∨ 3200 < v.toNat) → put h)
      ∧ (r = .rtcfg → ∃ n : DWord, exec .hostRegisterWrite s = .next { s with fab := { s.fab with rtcfg := n } }
          ∧ ∀ i, i < 64 → n.getLsbD i = if i = 46 then v.getLsbD 46 && s.feature 2 else v.getLsbD i))
  ∧ (∀ (s : State) (v : DWord) (o : Nat),
      let h := s.hst
      let put (g : Hst) : Prop := exec .hostRegisterWrite s = .next { s with hst := g }
      s.ev.flag = true → s.ev.bytes = toBytes 8 v.toNat →
      (s.ev.off = s.k.nodeId.toNat % 4 * 0x10000 + o →
        (o = 0x008 → put { h with trbase := v }) ∧ (o = 0x050 → put { h with jtbase := v }) ∧ (o = 0x058 → put { h with grace := v })
        ∧ (o = 0x080 → put { h with hint := h.hint &&& ~~~(v.setWidth 9) }) ∧ (o = 0x0D0 → put { h with qdoneen := v })
        ∧ ((o = 0x020 ∨ o = 0x078 ∨ o = 0x090 ∨ o = 0x0B0 ∨ (0x0D8 ≤ o ∧ o < 0x10000)) → exec .hostRegisterWrite s = .next s))
      ∧ (s.ev.off < 0x40000 → s.ev.off / 0x10000 ≠ s.k.nodeId.toNat % 4 → exec .hostRegisterWrite s = .next s)
      ∧ (s.ev.off = 0x40040 → 500 ≤ v.toNat → v.toNat ≤ 3200 → put { h with pwrcap := v }))

/-- R414, R417 to R424: the package: a reset and a power-on begin bring-up, which goes on a step at a time and starts the image that is genuine, or fails at
0x2F, or at the step that fails, with HINT bit 7; power states wait for their queues; the flash takes a block while the node is off; an attestation request
takes the next index of the counter, and a finished one has its quote of the nonce, the running firmware and the node; throttling counts; a thermal trip
stops the node. What a node reset keeps is log 59, the record of a thermal trip log 61, the status and block number of the flash log 63, the bytes that are
signed log 128, one clock a step log 129. -/
def Obligations.PackageActs : Prop :=
  ∀ (s : State),
    let h := s.hst
    let v := s.ev.value
    let w : BitVec 2 := v.setWidth 2
    let put (g : Hst) : Host.Outcome State Fault Refusal := .next { s with hst := g }
    let comesUp (t : State) (step : BitVec 8) : Prop := t.hst.brstat = step ∧ t.hst.off = true ∧ t.hst.counter = h.counter ∧ t.hst.slots = h.slots
      ∧ t.k.priv = true ∧ t.seq.pc = 0x8017FE000040#48 ∧ t.sch.running = none ∧ t.rgn = none
    (2 ≤ w.toNat → h.pstate ≠ 3 → exec .pstateWrite s = put { h with pwant := some w })
    ∧ (w = 3 → h.pstate = 3 → exec .pstateWrite s = .next s)
    ∧ (w ≠ 3 → h.pstate = 3 → ∃ t, exec .pstateWrite s = .next t ∧ comesUp t 0 ∧ t.hst.bring = some s.ev.bring ∧ t.hst.pstate = w ∧ t.k.nodeId = s.k.nodeId)
    ∧ (w.toNat < 2 → h.pstate ≠ 3 → exec .pstateWrite s = put { h with pstate := w, pwant := none })
    ∧ (∀ n, h.pwant = some n → (∀ l ∈ s.sch.queues, l.state ≠ .running ∧ l.state ≠ .saved ∧ l.state ≠ .held) →
        (n ≠ 3 → exec .powerStateChange s = put { h with pstate := n, pwant := none })
        ∧ (n = 3 → ∃ t, exec .powerStateChange s = .next t ∧ t.hst.off = true ∧ t.hst.pstate = 3 ∧ t.hbm = [] ∧ t.sp = [] ∧ t.k.nodeId = s.k.nodeId))
    ∧ exec .flashBlockWrite s = put { h with
        flashBuf := s.ev.bytes.take 4096, flashReq := some (s.ev.num % 2, s.ev.off % 256, s.ev.bytes.take 4096), flash := 1 }
    ∧ (∀ sl b bs, h.flashReq = some (sl, b, bs) →
        (h.off = true → s.ev.flag = false → exec .flashWriteDone s = put { h with
          slots := h.slots.modify sl (fun l => (l.filter fun x => x.1 != b) ++ [(b, bs)]), flash := 2, flashReq := none })
        ∧ ((h.off = false ∨ s.ev.flag = true) → exec .flashWriteDone s = put { h with flash := 3, flashReq := none }))
    ∧ (v.toNat ≤ 1 → exec .flashSlotSelect s = put { h with slot := v.toNat })
    ∧ (1 < v.toNat → exec .flashSlotSelect s = .next s)
    ∧ (h.attest ≠ 1 → h.counter < 2 ^ 20 → exec .attestationRequest s =
        put { h with nonce := s.ev.nonce, asked := s.ev.nonce, attest := 1, index := some h.counter, counter := h.counter + 1 })
    ∧ (h.attest ≠ 1 → 2 ^ 20 ≤ h.counter → exec .attestationRequest s =
        put { h with nonce := s.ev.nonce, asked := s.ev.nonce, attest := 1, index := none })
    ∧ (h.attest = 1 → exec .attestationRequest s = .next s)
    ∧ (∀ q, h.attest = 1 → h.index = some q →
        let img := h.image h.running
        let msg := toBytes 32 h.asked.toNat ++ sha256 img ++ toBytes 4 (Config.imageVersion img).toNat
          ++ ((List.range 4).flatMap fun n => toBytes 2 (s.k.nodeId.toNat / 4 * 4 + n)) ++ toBytes 8 s.k.feat0.toNat ++ toBytes 4 q
        let quote := (toBytes 4 q).reverse ++ [0, 0, 0, 3] ++ (List.range 2176).map (Config.freeQuoteByte msg) ++ [0, 0, 0, 8]
          ++ (List.range 640).map fun i => Config.freeQuoteByte msg (2176 + i)
        exec .attestationComplete s = put { h with attest := 2, index := none, quote := quote } ∧ quote.length = 2828)
    ∧ (h.attest = 1 → h.index = none → exec .attestationComplete s = put ({ h with attest := 3 }.setHint s.k.vector 5))
    ∧ exec .throttle s = put { h with swallowed := h.swallowed + s.ev.count }
    ∧ (s.jobsHere = [] →
        let u := s.errorRecord 5 s.k.jobtag 0 (s.sch.serving.getD 0) 15 0 s.seq.pc 0 0 false
        exec .thermalTrip s = .next ({ u with err := { u.err with stopped := true } }.setHint 4))
    ∧ (∃ t, exec .telemetryRefresh s = .next t ∧ t.hst.telem[4]? = some (BitVec.ofNat 64 h.swallowed) ∧ t.hst.telem[5]? = some (BitVec.ofNat 64 h.pinFails)
        ∧ t.hst.telem.length = 7 ∧ t.k = s.k ∧ t.regs = s.regs ∧ t.sp = s.sp)
    ∧ (∃ t, exec .powerLoss s = .next t ∧ t.hst.off = true ∧ t.hst.index = none ∧ t.hst.counter = h.counter ∧ t.hbm = [] ∧ t.sp = [] ∧ t.hst.slots = h.slots)
    ∧ (∃ t, exec .powerOn s = .next t ∧ comesUp t 0 ∧ t.sp = [] ∧ t.hbm = [] ∧ t.hst.pwrcap = 3200 ∧ t.k.nodeId = s.ev.straps ∧ t.hst.bring = some s.ev.bring)
    ∧ (∃ t, exec .nodeReset s = .next t ∧ comesUp t 0x10 ∧ t.hst.pwrcap = h.pwrcap ∧ t.k.nodeId = s.k.nodeId ∧ t.err.links = s.err.links
        ∧ t.hst.bring = some { s.ev.bring with trained := s.ev.trained &&& ~~~s.err.links })
    ∧ (∀ b, h.bring = some b →
        let n := h.brstat.toNat / 16 + 1
        let t := s.bringUp
        (b.fail = n → n ≤ 6 → t.hst.brstat = BitVec.ofNat 8 (16 * n + 15) ∧ t.hst.bring = none ∧ t.hst.hint.getLsbD 7 = true ∧ t.hst.off = h.off
          ∧ t.hbm = s.hbm ∧ t.sp = s.sp ∧ t.k = s.k)
        ∧ (b.fail ≠ n → (n = 1 ∨ n = 4) → t = { s with hst := { h with brstat := BitVec.ofNat 8 (16 * n) } })
        ∧ (b.fail ≠ 2 → n = 2 → h.genuine (h.slot % 2) = true → t.hst.brstat = 0x20 ∧ t.hst.off = false ∧ t.hst.running = h.slot % 2 ∧ t.sp = s.sp)
        ∧ (b.fail ≠ 2 → n = 2 → h.genuine (h.slot % 2) = false → h.genuine ((h.slot + 1) % 2) = true →
            t.hst.brstat = 0x20 ∧ t.hst.off = false ∧ t.hst.running = (h.slot + 1) % 2 ∧ t.sp = s.sp)
        ∧ (b.fail ≠ 2 → n = 2 → h.genuine (h.slot % 2) = false → h.genuine ((h.slot + 1) % 2) = false →
            t.hst.brstat = 0x2F ∧ t.hst.off = h.off ∧ t.hst.bring = none ∧ t.hst.hint.getLsbD 7 = true)
        ∧ (b.fail ≠ 3 → n = 3 → t.hst.brstat = 0x30 ∧ ∀ d, d < 14 → linkState t.k.linkstat d = if b.trained.getLsbD d && !b.wrong.getLsbD d then 1 else 0)
        ∧ (n = 7 → b.ready ≤ s.clock → t = { s with hst := { h with brstat := 0x70, bring := none } })
        ∧ (n = 7 → s.clock < b.ready → s.tokenLost = false → t = s))

/-! ## Entering the supervisor -/

/-- R398: an entry to the supervisor writes CAUSE, EPC, EVA and EINFO, sets PRIV, switches S48 to S63, and goes on at TVEC outside region mode
with no redirect and empty queues; EPC is the entry of the region to be re-entered or about to open, and EVA is zero where the cause has no
address. -/
def Obligations.SupervisorEntry : Prop :=
  (∀ (s : State) (cause : BitVec 16) (epc eva : VAddr) (einfo : DWord) (h : Hold) (r : Option Region),
    let t := s.enter cause epc eva einfo h r
    t.k = { s.k with cause := cause &&& 0xCFFF#16, epc := epc, eva := eva, einfo := einfo, priv := true } ∧ t.sch.entered = cause &&& 0xCFFF#16
    ∧ (∀ n, n < 16 → t.srcS (.reg (48 + n)) = (s.regs.sup[n]?).getD 0) ∧ (∀ n, n < 48 → t.srcS (.reg n) = s.srcS (.reg n))
    ∧ t.regs.s = s.regs.s ∧ t.regs.sup = s.regs.sup
    ∧ t.seq.pc = s.k.tvec &&& ~~~0xF#48 ∧ t.rgn = none ∧ t.seq.redirects = [] ∧ (∀ n, t.srcS (.q n) = 0 ∧ t.srcV (.q n) = 0))
  ∧ (∀ (s : State) (t : Trap) (r : Region), s.k.priv = false → s.rgn = some r → t.cause.class_ ≠ 3 → (s.takeTrap t).k.epc = r.snap.entry)
  ∧ (∀ (s : State) (o : Opening) (n : Notice) (ns : List Notice), s.k.priv = false → s.seq.dueTrap = none → s.seq.pend = none → s.sch.preempt = none →
      s.sch.notices = n :: ns → (∀ m ∈ n :: ns, m.urgent = false) → ((s.openRegion o s.seq.pc).boundary s.seq.pc false).k.epc = s.seq.pc)
  ∧ (∀ (s : State) (c : Cause), s.k.priv = false → c.class_ ≠ 3 → (s.takeTrap { cause := c }).k.eva = 0)

/-- R113, R130, R131, R138, R394, R397, R401: a cause that is no event, raised in an open region, discards the region, counts a retrace and enters the
supervisor, with no progress (0x064) once the count of a retrace passes RETRACE; outside region mode it is fatal, but for a fetch fault; in the supervisor it stops
the node. -/
def Obligations.TrapsAreTaken : Prop :=
  ∀ (s : State) (c : Trap), c.cause.class_ ≠ 3 →
    let t := s.takeTrap c
    let word (cls : Nat) : BitVec 16 := BitVec.ofNat 16 (cls * 2 ^ 14 + c.cause.code)
    (∀ r, s.k.priv = false → s.rgn = some r →
      let n : BitVec 8 := if s.k.rcount = 255 then 255 else s.k.rcount + 1
      let stuck : Bool := decide (c.cause.class_ ≠ 2 ∧ c.cause ≠ .stateLoss ∧ s.k.retrace < n)
      t.k = { s.k with
        rngCtr := r.snap.rngCtr, rcount := n, priv := true, epc := r.snap.entry, cause := if stuck then 0xC064#16 else word c.cause.class_
        eva := if stuck then 0 else c.eva, einfo := if stuck then 0 else s.einfoOf c }
      ∧ t.regs.s = s.regs.s ∧ t.regs.v = s.regs.v ∧ t.regs.p = s.regs.p ∧ t.regs.masks = r.snap.masks ∧ t.regs.fmt = r.snap.fmt ∧ t.sp = s.sp
      ∧ t.mat.work = s.mat.comm ∧ t.mat.queue = [] ∧ (∀ e ∈ t.buf, e.state ≠ .opened) ∧ t.pipe.inflight = []
      ∧ (∀ q, s.sch.running = some q → q < s.sch.queues.length → (t.queue q).state = .held
          ∧ (t.queue q).hold = (if c.cause.class_ = 2 then .fatal else if c.cause = .stateLoss then .loss else .region)))
    ∧ (s.k.priv = false → s.rgn = none →
        let fetch : Bool := decide (c.eva = s.seq.pc ∧ (c.cause = .pageNotPresent ∨ c.cause = .malformedEntry ∨ c.cause = .executeProtection))
        t.k = { s.k with priv := true, epc := s.seq.pc, eva := c.eva, einfo := s.einfoOf c, cause := word (if fetch then 0 else 2) }
        ∧ t.regs = s.regs.emptyQueues ∧ t.sp = s.sp ∧ t.seq.loops = s.seq.loops
        ∧ (∀ q, s.sch.running = some q → q < s.sch.queues.length → (t.queue q).state = .held ∧ (t.queue q).hold = (if fetch then .outside else .fatal)))
    ∧ (s.k.priv = true → t.err.stopped = true ∧ t.hst.hint.getLsbD 0 = true ∧ t.k = s.k ∧ t.regs = s.regs ∧ t.seq.pc = s.seq.pc ∧ t.sp = s.sp)

/-- R56: a result that enters a queue makes every entry one older and drops the sixteenth; k results make the earlier entries k older; a
pending position ages with the others, and its value fills the position that it then holds. The vector queue does the same. -/
def Obligations.QueuesAge : Prop :=
  (∀ (s : State) (f : InFlight) (d : SDst) (v : DWord), f.what = .scalar d v →
    (s.land f).regs.q = (.full v :: s.regs.q).take 16 ∧ (s.land f).regs.qv = s.regs.qv)
  ∧ (∀ (s : State) (fs : List InFlight), (∀ f ∈ fs, ∃ d v, f.what = .scalar d v) → s.regs.q.length = 16 →
    ∀ n, n + fs.length < 16 → (fs.foldl State.land s).regs.q[n + fs.length]? = s.regs.q[n]?)
  ∧ (∀ (s : State) (f : InFlight) (d : VDst) (v m : VReg), f.what = .vector d v m →
    ∃ x, (s.land f).regs.qv = (.full x :: s.regs.qv).take 16 ∧ (s.land f).regs.q = s.regs.q)
  ∧ (∀ (s : State) (f : InFlight) (d : SDst) (v : DWord) (n i : Nat), f.what = .scalar d v → n < 15 →
    s.regs.q[n]? = some (.pending i) → (s.land f).regs.q[n + 1]? = some (.pending i))
  ∧ (∀ (s : State) (w : Wait) (v : DWord) (n : Nat), w.sd ≠ none → s.pipe.waits.find? (fun x => x.id == w.id && x.outstanding) = some w →
    (s.regs.q[n]? = some (.pending w.id) → (s.arrive w.id (.scalar v) 0).srcS (.q n) = v)
    ∧ (s.regs.q[n]? ≠ some (.pending w.id) → (s.arrive w.id (.scalar v) 0).regs.q[n]? = s.regs.q[n]?))
  ∧ (∀ (s : State) (fs : List InFlight), (∀ f ∈ fs, ∃ d v m, f.what = .vector d v m) → s.regs.qv.length = 16 →
    ∀ n, n + fs.length < 16 → (fs.foldl State.land s).regs.qv[n + fs.length]? = s.regs.qv[n]?)
  ∧ (∀ (s : State) (w : Wait) (v : VReg) (n : Nat), s.pipe.waits.find? (fun x => x.id == w.id && x.outstanding) = some w →
    let x : VReg := match w.vd with
      | some (.reg r) => mergeV ((s.regs.v[r]?).getD 0) v w.lanes
      | _ => v &&& w.lanes
    (s.regs.qv[n]? = some (.pending w.id) → (s.arrive w.id (.vector v) 0).srcV (.q n) = x)
    ∧ (s.regs.qv[n]? ≠ some (.pending w.id) → (s.arrive w.id (.vector v) 0).regs.qv[n]? = s.regs.qv[n]?))

/-! ## The whole machine -/

/-- R50, R58, R66, R362, R373, R412, R415, R422, R424: what reset leaves: every register of R49 reads zero but P0, RETRACE, PRIV, FEAT0, DETOUR and TVEC; nothing
is queued, held or in flight; both memories are zero; the control window has its reset values. The NODEID that the straps give and the
image that bring-up has loaded are the model's choice (logs 1, 2), and so are the transposer blocks and the sticky bits of the array, which start at zero
(log 12). -/
def Obligations.ResetValues : Prop :=
  let s := State.reset
  (∀ n, s.srcS (.reg n) = 0 ∧ s.srcS (.q n) = 0 ∧ s.srcV (.reg n) = 0 ∧ s.srcV (.q n) = 0 ∧ s.srcP n = decide (n = 0) ∧ s.srcY n = 0)
  ∧ (∀ k, kAssigned k = true → s.getK k = if k = 0x005 then 1 else if k = 0x020 then 4 else if k = 0x034 then 0x8017FE000040#64 else if k = 0x035 then 1
      else if k = 0x060 then 0x1F#64 else 0)
  ∧ s.regs.fmt = 0 ∧ s.regs.masks = [] ∧ s.seq.loops = [] ∧ s.regs.tp0 = 0 ∧ s.regs.tp1 = 0
  ∧ (∀ i, i < 8 → s.mat.tile i = ⟨0, []⟩ ∧ s.mat.comm[i]? = some ⟨0, []⟩) ∧ s.mat.queue = [] ∧ s.mat.sticky = 0
  ∧ s.seq.pc = 0x8017FE000040#48 ∧ s.rgn = none ∧ s.buf = [] ∧ s.pipe = ⟨[], [], []⟩ ∧ s.eng.copies = [] ∧ s.eng.gram = [] ∧ s.eng.bind.bound = false
  ∧ bits s.eng.bind.gstat 52 4 = 15 ∧ (∀ a, Memory.read s.hbm a = 0 ∧ Memory.read s.sp a = 0)
  ∧ (∀ v, v < 32 → s.vaults[v]? = some ⟨.free, 0, none, false, 0⟩) ∧ s.sch.running = none
  ∧ (∀ q, q < 64 → (s.queue q).state = .idle ∧ (s.queue q).recs = [] ∧ (s.queue q).done = 0 ∧ (s.queue q).refused = 0 ∧ (s.queue q).exit = 0)
  ∧ s.hst.nctl = 0 ∧ s.hst.grace = 36000 ∧ s.hst.jtbase = 0 ∧ s.hst.migrs = 0 ∧ s.hst.hint = 0 ∧ s.hst.brstat = 0x70 ∧ s.hst.pwrcap = 3200
  ∧ bits s.fab.rtcfg 50 14 = 0 ∧ bits s.fab.rtcfg 47 3 = 4 ∧ s.fab.rtcfg.getLsbD 46 = false ∧ bits s.fab.rtcfg 30 16 = 450 ∧ bits s.fab.rtcfg 14 16 = 1373

/-- The invariant of the next statement holds of the state after reset. -/
def Obligations.InvariantAtReset : Prop := State.reset.Inv

/-- R54, R63, R68, R395: whatever a step does, from any state that meets the invariant, S0 reads zero and P0 true, the reserved bits of the policy registers,
of STATUS, of CAUSE and of MRING stay zero, and both memories keep their canonical form. -/
def Obligations.StepKeepsInvariant : Prop := ∀ s t : State, s.Inv → step s = .next t → t.Inv

/-- R13, R35, R90: when nothing else acts, a step runs the bundle at the program counter, once nothing of it is being written: its slots in order on the state that the bundle begins with, or the
cause or the stall that its checks find; a bundle of one instruction and NOPs runs that instruction. An act that waits, or a step that is due, comes first:
that the oldest act does is log 3, that the sequencer's clock comes when no other step is chosen log 4, that a fetch stalls with 0x08 meanwhile log 105. -/
def Obligations.StepRunsBundle : Prop :=
  (∀ (s : State) (pa : Nat) (attr : Attr) (tlb : Tlb),
    let s0 : State := { s with tlb := tlb, l2 := s.touch (.here pa) attr false, seq := { s.seq with bun := .start } }
    let ws := s.wordsNow pa
    s.fetches → s.fetchAt s.seq.pc = .ok ⟨.here pa, attr, tlb⟩ →
    (s.storePending (.here pa) s.seq.pc 16 = false → ws = s.wordsAt pa)
    ∧ (s.codeMoves s.seq.pc.toNat = true → step s = .next (s0.stallClock 0x08 (s0.frozen 0x08)))
    ∧ (s.codeMoves s.seq.pc.toNat = false →
    (∀ slots, s0.gate ws = .go slots →
        (∀ u, runSlots slots (s0.begun ws slots) = .next u → u.runs → step s = .next (u.ended s.seq.pc))
        ∧ (∀ u c, runSlots slots (s0.begun ws slots) = .next u → u.seq.bun.trapped = some c → step s = .next (s0.rejected u.seq.bun.slot c))
        ∧ (∀ f, runSlots slots (s0.begun ws slots) = .fault f → step s = .fault f))
    ∧ (∀ n c, s0.gate ws = .trap n c → step s = .next (s0.rejected n c))
    ∧ (∀ c, s0.gate ws = .stall c → step s = .next (s0.stallClock c (s0.frozen c)))
    ∧ (∀ (w : BitVec 32) (i : Instr) slots, ws = [w, 0, 0, 0] → fMaj w.toNat ≠ 0x3F → decodeSlot w.toNat .none = .ok ⟨0, false, i⟩ → s0.gate ws = .go slots →
        slots = [(0, ⟨0, false, i⟩), (1, ⟨0, false, .nop⟩), (2, ⟨0, false, .nop⟩), (3, ⟨0, false, .nop⟩)]
        ∧ (∀ u, exec i (s0.begun ws slots) = .next u → u.runs →
            step s = .next ({ u with seq := { u.seq with bun := { u.seq.bun with slot := 3 } } }.ended s.seq.pc))
        ∧ (∀ f, exec i (s0.begun ws slots) = .fault f → step s = .fault f))))
  ∧ (∀ (s : State) (e : Event) (l : List Event), s.inbox = e :: l → s.mustWait e = false →
      let s1 : State := { s with inbox := l, ev := e.args }
      step s = if s1.hears e then exec e.row s1 else .next s1)
  ∧ (∀ (s : State) (e : Event), s.nextAct = none → s.forced = some e → step s = exec e.row { s with ev := e.args })

/-- R16 to R32, R95, R168, R172, R175, R399: words written out from the spec's encodings decode to the instructions that they stand for. -/
def Obligations.WordsDecode : Prop :=
  let reads (w : Nat) (i : Instr) : Prop := decodeSlot w .none = .ok ⟨0, false, i⟩
  reads 0x00000000 .nop ∧ reads 0x04213102 (.add (.reg 2) (.reg 4) (.q 1) .i64) ∧ reads 0x2410A80A (.cmpiGe .set 1 (.reg 2) 10 .i64)
  ∧ reads 0x2CC2CA10 (.sel (.reg 12) 1 false (.reg 11) (.reg 10)) ∧ reads 0x35410308 (.setk 0x103 (.reg 20))
  ∧ reads 0x38500000 (.lidx (.reg 5) 0) ∧ reads 0x48014000 (.bri (.reg 5)) ∧ reads 0x94100020 (.mget (.reg 1))
  ∧ reads 0x8408C33C (.vsel (.reg 0) (.reg 35) (.reg 3) .f32) ∧ reads 0x8C044004 (.vxsum (.reg 0) (.reg 17) .f32)
  ∧ reads 0xA5C0C010 (.mdrain (.tile 7) (.reg 3)) ∧ reads 0xA8A90008 (.txpo (.reg 10) true 1) ∧ reads 0xB0C10900 (.exch 3 (.reg 4) (.reg 9) 0)
  ∧ reads 0xC4014020 (.waite (.reg 5)) ∧ reads 0xC840C010 (.gstep (.reg 4) (.reg 3)) ∧ reads 0xD0100020 (.rstat (.reg 1))
  ∧ reads 0xDC000000 .rft

/-- R15 to R32, R51, R52: every slot that some bundle can hold, with each operand at any value that its encoding admits, is encoded in a word of 32 bits and the
extension that a header lends it, and decodes to itself. -/
def Obligations.DecodeOfEncode : Prop :=
  ∀ s : Slot, s.wf = true → ∃ w e, encodeSlot s = some (w, e) ∧ w < 2 ^ 32 ∧ decodeSlot w e = .ok s
end

