-- ==== Sys2Proof/Laws/Memory.lean ====
section
/-! SUPPORT. Byte memories: what a write, a clearing and a read do to one another, and that every operation keeps the canonical form. -/

namespace Sys2Proof.Machine

/-! ## The canonical form -/

theorem Memory.okFrom_mono {m : Memory} {lo hi : Nat} (h : lo ≤ hi) (ok : Memory.okFrom hi m = true) : Memory.okFrom lo m = true := by
  cases m with
  | nil => rfl
  | cons c m => simp only [okFrom, Bool.and_eq_true, decide_eq_true_eq] at ok ⊢; exact ⟨⟨by omega, ok.1.2⟩, ok.2⟩

theorem Memory.okFrom_below {m : Memory} {lo : Nat} (a : Nat) (ok : Memory.okFrom lo m = true) : Memory.okFrom lo (Memory.below m a) = true := by
  induction m generalizing lo with
  | nil => rfl
  | cons c m ih =>
    simp only [okFrom, Bool.and_eq_true, decide_eq_true_eq] at ok
    simp only [below]
    split
    · simp only [okFrom, Bool.and_eq_true, decide_eq_true_eq]; exact ⟨ok.1, ih ok.2⟩
    · rfl

theorem Memory.okFrom_above {m : Memory} {lo : Nat} (a : Nat) (ok : Memory.okFrom lo m = true) :
    Memory.okFrom (max lo a) (Memory.above m a) = true := by
  induction m generalizing lo with
  | nil => rfl
  | cons c m ih =>
    simp only [okFrom, Bool.and_eq_true, decide_eq_true_eq] at ok
    simp only [above]
    split
    · exact Memory.okFrom_mono (by omega) (ih ok.2)
    · simp only [okFrom, Bool.and_eq_true, decide_eq_true_eq]; exact ⟨⟨by omega, ok.1.2⟩, ok.2⟩

/-- Cells below `hi` followed by cells from `hi` on. -/
theorem Memory.okFrom_append {m m' : Memory} {lo hi : Nat} (ok : Memory.okFrom lo m = true) (top : ∀ c ∈ m, c.1 < hi) (le : lo ≤ hi)
    (ok' : Memory.okFrom hi m' = true) : Memory.okFrom lo (m ++ m') = true := by
  induction m generalizing lo with
  | nil => exact Memory.okFrom_mono le ok'
  | cons c m ih =>
    simp only [okFrom, Bool.and_eq_true, decide_eq_true_eq] at ok
    simp only [List.cons_append, okFrom, Bool.and_eq_true, decide_eq_true_eq]
    have := top c (by simp)
    exact ⟨ok.1, ih ok.2 (fun d hd => top d (by simp [hd])) (by omega)⟩

theorem Memory.below_lt {m : Memory} {a : Nat} : ∀ c ∈ Memory.below m a, c.1 < a := by
  induction m with
  | nil => simp [below]
  | cons c m ih =>
    simp only [below]
    split
    · intro d hd
      rcases List.mem_cons.mp hd with rfl | hd
      · assumption
      · exact ih d hd
    · simp

theorem okFrom_cellsOf (a : Nat) (bs : List Byte) : Memory.okFrom a (cellsOf a bs) = true := by
  induction bs generalizing a with
  | nil => rfl
  | cons b bs ih =>
    simp only [cellsOf]
    split
    · exact Memory.okFrom_mono (by omega) (ih (a + 1))
    · simp only [Memory.okFrom, Bool.and_eq_true, decide_eq_true_eq]; exact ⟨⟨Nat.le_refl a, by assumption⟩, ih (a + 1)⟩

theorem cellsOf_lt (a : Nat) (bs : List Byte) : ∀ c ∈ cellsOf a bs, c.1 < a + bs.length := by
  induction bs generalizing a with
  | nil => simp [cellsOf]
  | cons b bs ih =>
    simp only [cellsOf]
    have h := ih (a + 1)
    split
    · intro c hc; have := h c hc; simp; omega
    · intro c hc
      simp only [List.mem_cons] at hc
      rcases hc with rfl | hc
      · simp
      · have := h c hc; simp; omega

@[simp] theorem Memory.wf_nil : Memory.wf [] = true := rfl

theorem Memory.wf_below {m : Memory} (a : Nat) (h : Memory.wf m = true) : Memory.wf (Memory.below m a) = true := Memory.okFrom_below a h

theorem Memory.wf_above {m : Memory} (a : Nat) (h : Memory.wf m = true) : Memory.wf (Memory.above m a) = true :=
  Memory.okFrom_mono (Nat.zero_le _) (Memory.okFrom_above a h)

/-- A write keeps the canonical form. -/
theorem Memory.wf_write {m : Memory} (a : Nat) (bs : List Byte) (h : Memory.wf m = true) : Memory.wf (Memory.write m a bs) = true := by
  unfold Memory.wf Memory.write at *
  refine Memory.okFrom_append (hi := a) (Memory.okFrom_below a h) Memory.below_lt (Nat.zero_le _) ?_
  refine Memory.okFrom_append (hi := a + bs.length) (okFrom_cellsOf a bs) (cellsOf_lt a bs) (by omega) ?_
  exact Memory.okFrom_mono (by omega) (Memory.okFrom_above (a + bs.length) h)

/-- A clearing keeps the canonical form. -/
theorem Memory.wf_clear {m : Memory} (a n : Nat) (h : Memory.wf m = true) : Memory.wf (Memory.clear m a n) = true := by
  unfold Memory.wf Memory.clear at *
  refine Memory.okFrom_append (hi := a) (Memory.okFrom_below a h) Memory.below_lt (Nat.zero_le _) ?_
  exact Memory.okFrom_mono (by omega) (Memory.okFrom_above (a + n) h)

theorem Memory.wf_writeLE {m : Memory} (a n v : Nat) (h : Memory.wf m = true) : Memory.wf (Memory.writeLE m a n v) = true :=
  Memory.wf_write a _ h

/-! ## Reading -/

theorem Memory.read_of_lt {m : Memory} {lo x : Nat} (ok : Memory.okFrom lo m = true) (h : x < lo) : Memory.read m x = 0 := by
  cases m with
  | nil => rfl
  | cons c m =>
    simp only [okFrom, Bool.and_eq_true, decide_eq_true_eq] at ok
    simp only [read]
    rw [if_neg (by omega), if_pos (by omega)]

theorem Memory.read_append {m m' : Memory} {lo hi x : Nat} (ok : Memory.okFrom lo m = true) (top : ∀ c ∈ m, c.1 < hi) (ok' : Memory.okFrom hi m' = true) :
    Memory.read (m ++ m') x = if x < hi then Memory.read m x else Memory.read m' x := by
  induction m generalizing lo with
  | nil =>
    simp only [List.nil_append]
    split
    · rw [Memory.read_of_lt ok' ‹_›]; rfl
    · rfl
  | cons c m ih =>
    simp only [okFrom, Bool.and_eq_true, decide_eq_true_eq] at ok
    have hc := top c (by simp)
    simp only [List.cons_append, read]
    by_cases h1 : c.1 = x
    · rw [if_pos h1, if_pos (by omega), if_pos h1]
    · rw [if_neg h1, if_neg h1]
      by_cases h2 : x < c.1
      · rw [if_pos h2, if_pos (by omega), if_pos h2]
      · rw [if_neg h2, if_neg h2]; exact ih ok.2 (fun d hd => top d (by simp [hd]))

theorem Memory.read_below {m : Memory} {lo a x : Nat} (ok : Memory.okFrom lo m = true) (h : x < a) : Memory.read (Memory.below m a) x = Memory.read m x := by
  induction m generalizing lo with
  | nil => rfl
  | cons c m ih =>
    simp only [okFrom, Bool.and_eq_true, decide_eq_true_eq] at ok
    simp only [below]
    split
    · simp only [read]
      split
      · rfl
      · split
        · rfl
        · exact ih ok.2
    · simp only [read]; rw [if_neg (by omega), if_pos (by omega)]

theorem Memory.read_above {m : Memory} {lo a x : Nat} (ok : Memory.okFrom lo m = true) (h : a ≤ x) : Memory.read (Memory.above m a) x = Memory.read m x := by
  induction m generalizing lo with
  | nil => rfl
  | cons c m ih =>
    simp only [okFrom, Bool.and_eq_true, decide_eq_true_eq] at ok
    simp only [above]
    split
    · rw [ih ok.2]; simp only [read]; rw [if_neg (by omega), if_neg (by omega)]
    · rfl

theorem read_cellsOf (a x : Nat) (bs : List Byte) (h : a ≤ x) : Memory.read (cellsOf a bs) x = (bs[x - a]?).getD 0 := by
  induction bs generalizing a with
  | nil => simp [cellsOf, Memory.read]
  | cons b bs ih =>
    simp only [cellsOf]
    by_cases hx : x = a
    · subst hx
      split
      · rw [Memory.read_of_lt (okFrom_cellsOf (x + 1) bs) (by omega)]; simp_all
      · simp [Memory.read]
    · have e : x - a = x - (a + 1) + 1 := by omega
      split
      · rw [ih (a + 1) (by omega), e]; simp
      · simp only [Memory.read]
        rw [if_neg (by omega), if_neg (by omega), ih (a + 1) (by omega), e]; simp

/-- Read after write: the written bytes, and every other byte as before. -/
theorem Memory.read_write {m : Memory} (a x : Nat) (bs : List Byte) (ok : Memory.wf m = true) :
    Memory.read (Memory.write m a bs) x = if a ≤ x ∧ x < a + bs.length then (bs[x - a]?).getD 0 else Memory.read m x := by
  have hb := Memory.okFrom_below a ok
  have hc := okFrom_cellsOf a bs
  have ha : Memory.okFrom (a + bs.length) (Memory.above m (a + bs.length)) = true :=
    Memory.okFrom_mono (by omega) (Memory.okFrom_above (a + bs.length) ok)
  have hca : Memory.okFrom a (cellsOf a bs ++ Memory.above m (a + bs.length)) = true :=
    Memory.okFrom_append (hi := a + bs.length) hc (cellsOf_lt a bs) (by omega) ha
  unfold Memory.write
  rw [Memory.read_append hb Memory.below_lt hca]
  by_cases h1 : x < a
  · rw [if_pos h1, if_neg (by omega), Memory.read_below ok h1]
  · rw [if_neg h1, Memory.read_append hc (cellsOf_lt a bs) ha]
    by_cases h2 : x < a + bs.length
    · rw [if_pos h2, if_pos ⟨by omega, h2⟩, read_cellsOf a x bs (by omega)]
    · rw [if_neg h2, if_neg (by omega), Memory.read_above ok (by omega)]

theorem Memory.read_write_other {m : Memory} {a x : Nat} {bs : List Byte} (ok : Memory.wf m = true) (h : x < a ∨ a + bs.length ≤ x) :
    Memory.read (Memory.write m a bs) x = Memory.read m x := by
  rw [Memory.read_write a x bs ok, if_neg (by omega)]

/-- Read after clearing. -/
theorem Memory.read_clear {m : Memory} (a n x : Nat) (ok : Memory.wf m = true) :
    Memory.read (Memory.clear m a n) x = if a ≤ x ∧ x < a + n then 0 else Memory.read m x := by
  have ha : Memory.okFrom (a + n) (Memory.above m (a + n)) = true := Memory.okFrom_mono (by omega) (Memory.okFrom_above (a + n) ok)
  unfold Memory.clear
  rw [Memory.read_append (Memory.okFrom_below a ok) Memory.below_lt (Memory.okFrom_mono (Nat.le_add_right a n) ha)]
  by_cases h1 : x < a
  · rw [if_pos h1, if_neg (by omega), Memory.read_below ok h1]
  · rw [if_neg h1]
    by_cases h2 : x < a + n
    · rw [if_pos ⟨by omega, h2⟩, Memory.read_of_lt ha h2]
    · rw [if_neg (by omega), Memory.read_above ok (by omega)]

/-! ## Runs of bytes -/

theorem Memory.slice_eq (m : Memory) (a n lo : Nat) (ok : Memory.okFrom lo m = true) (h : a ≤ lo) :
    Memory.slice m a n = (List.range n).map fun i => Memory.read m (a + i) := by
  induction n generalizing m a lo with
  | zero => rfl
  | succ n ih =>
    rw [List.range_succ_eq_map, List.map_cons, List.map_map]
    cases m with
    | nil => simp only [slice, ih [] (a + 1) (a + 1) rfl (Nat.le_refl _), read]; rfl
    | cons c m =>
      simp only [okFrom, Bool.and_eq_true, decide_eq_true_eq] at ok
      simp only [slice]
      split
      · rename_i e
        rw [ih m (a + 1) (c.1 + 1) ok.2 (by omega)]
        simp only [read, Nat.add_zero, if_pos e, List.cons.injEq, true_and]
        apply List.map_congr_left
        intro i _
        simp only [Function.comp]
        rw [if_neg (by omega), if_neg (by omega)]; congr 1; omega
      · rename_i e
        have ok' : Memory.okFrom (a + 1) (c :: m) = true := by
          simp only [okFrom, Bool.and_eq_true, decide_eq_true_eq]; exact ⟨⟨by omega, ok.1.2⟩, ok.2⟩
        rw [ih (c :: m) (a + 1) (a + 1) ok' (Nat.le_refl _)]
        rw [Memory.read_of_lt ok' (by omega : a + 0 < a + 1)]
        simp only [List.cons.injEq, true_and]
        apply List.map_congr_left
        intro i _
        simp only [Function.comp]; congr 1; omega

/-- Many bytes are the bytes one by one. -/
theorem Memory.bytes_eq {m : Memory} (a n : Nat) (ok : Memory.wf m = true) :
    Memory.bytes m a n = (List.range n).map fun i => Memory.read m (a + i) := by
  unfold Memory.bytes
  rw [Memory.slice_eq (Memory.above m a) a n (max 0 a) (Memory.okFrom_above a ok) (by omega)]
  apply List.map_congr_left
  intro i _
  exact Memory.read_above ok (by omega)

theorem Memory.slice_length (m : Memory) (a n : Nat) : (Memory.slice m a n).length = n := by
  induction n generalizing m a with
  | zero => rfl
  | succ n ih =>
    cases m with
    | nil => simp [slice, ih]
    | cons c m => simp only [slice]; split <;> simp [ih]

@[simp] theorem Memory.bytes_length (m : Memory) (a n : Nat) : (Memory.bytes m a n).length = n := Memory.slice_length _ a n

/-! ## Little-endian words (R7) -/

@[simp] theorem toBytes_length (n v : Nat) : (toBytes n v).length = n := by
  induction n generalizing v with
  | zero => rfl
  | succ n ih => simp [toBytes, ih]

theorem toBytes_getElem? (n v i : Nat) (h : i < n) : (toBytes n v)[i]? = some (BitVec.ofNat 8 (v / 256 ^ i)) := by
  induction n generalizing v i with
  | zero => omega
  | succ n ih =>
    cases i with
    | zero => simp [toBytes]
    | succ i => simp [toBytes, ih (v / 256) i (by omega), Nat.div_div_eq_div_mul, Nat.pow_succ, Nat.mul_comm]

/-- The bytes of a number give it back, as far as they reach. -/
theorem leNat_toBytes (n v : Nat) : leNat (toBytes n v) = v % 256 ^ n := by
  induction n generalizing v with
  | zero => simp [toBytes, leNat, Nat.mod_one]
  | succ n ih =>
    have h : (BitVec.ofNat 8 v).toNat = v % 256 := by simp
    rw [toBytes, leNat, ih, h, Nat.pow_succ', Nat.mod_mul]

theorem leNat_lt (bs : List Byte) : leNat bs < 256 ^ bs.length := by
  induction bs with
  | nil => simp [leNat]
  | cons b bs ih => simp only [leNat, List.length_cons, Nat.pow_succ']; have := b.isLt; omega

/-- And the number of some bytes gives them back. -/
theorem toBytes_leNat (bs : List Byte) : toBytes bs.length (leNat bs) = bs := by
  induction bs with
  | nil => rfl
  | cons b bs ih =>
    have hb := b.isLt
    simp only [leNat, List.length_cons, toBytes]
    have h1 : (b.toNat + 256 * leNat bs) / 256 = leNat bs := by omega
    rw [h1, ih]
    congr 1
    apply BitVec.eq_of_toNat_eq
    simp only [BitVec.toNat_ofNat]
    omega

/-- A word written little-endian reads back. -/
theorem Memory.word_write {m : Memory} (a n v : Nat) (ok : Memory.wf m = true) (h : v < 256 ^ n) :
    Memory.word (Memory.write m a (toBytes n v)) a n = v := by
  unfold Memory.word
  rw [Memory.bytes_eq a n (Memory.wf_write a _ ok)]
  have e : (List.range n).map (fun i => Memory.read (Memory.write m a (toBytes n v)) (a + i)) = toBytes n v := by
    apply List.ext_getElem?
    intro i
    by_cases hi : i < n
    · rw [List.getElem?_map, List.getElem?_range hi, Option.map_some]
      rw [Memory.read_write a (a + i) _ ok, if_pos ⟨by omega, by simp [hi]⟩, Nat.add_sub_cancel_left, toBytes_getElem? n v i hi]; rfl
    · rw [List.getElem?_eq_none (by simp; omega), List.getElem?_eq_none (by simp; omega)]
  rw [e, leNat_toBytes, Nat.mod_eq_of_lt h]

end Sys2Proof.Machine
end

