-- ==== Sys2Proof/Laws/State.lean ====
section
/-! SUPPORT. What each named update of the state leaves in each field, one lemma for each field. -/

namespace Sys2Proof.Machine

@[simp] theorem State.setFin_regs (s : State) (f : BundleEnd) : (s.setFin f).regs = s.regs := rfl
@[simp] theorem State.setFin_k (s : State) (f : BundleEnd) : (s.setFin f).k = s.k := rfl
@[simp] theorem State.setFin_seq (s : State) (f : BundleEnd) : (s.setFin f).seq = { s.seq with bun := { s.seq.bun with fin := f } } := rfl
@[simp] theorem State.setFin_pipe (s : State) (f : BundleEnd) : (s.setFin f).pipe = s.pipe := rfl
@[simp] theorem State.setFin_rgn (s : State) (f : BundleEnd) : (s.setFin f).rgn = s.rgn := rfl
@[simp] theorem State.setFin_regions (s : State) (f : BundleEnd) : (s.setFin f).regions = s.regions := rfl
@[simp] theorem State.setFin_buf (s : State) (f : BundleEnd) : (s.setFin f).buf = s.buf := rfl
@[simp] theorem State.setFin_mat (s : State) (f : BundleEnd) : (s.setFin f).mat = s.mat := rfl
@[simp] theorem State.setFin_sp (s : State) (f : BundleEnd) : (s.setFin f).sp = s.sp := rfl
@[simp] theorem State.setFin_vaults (s : State) (f : BundleEnd) : (s.setFin f).vaults = s.vaults := rfl
@[simp] theorem State.setFin_acqs (s : State) (f : BundleEnd) : (s.setFin f).acqs = s.acqs := rfl
@[simp] theorem State.setFin_eng (s : State) (f : BundleEnd) : (s.setFin f).eng = s.eng := rfl
@[simp] theorem State.setFin_hbm (s : State) (f : BundleEnd) : (s.setFin f).hbm = s.hbm := rfl
@[simp] theorem State.setFin_poison (s : State) (f : BundleEnd) : (s.setFin f).poison = s.poison := rfl
@[simp] theorem State.setFin_l2 (s : State) (f : BundleEnd) : (s.setFin f).l2 = s.l2 := rfl
@[simp] theorem State.setFin_tlb (s : State) (f : BundleEnd) : (s.setFin f).tlb = s.tlb := rfl
@[simp] theorem State.setFin_rtags (s : State) (f : BundleEnd) : (s.setFin f).rtags = s.rtags := rfl
@[simp] theorem State.setFin_xch (s : State) (f : BundleEnd) : (s.setFin f).xch = s.xch := rfl
@[simp] theorem State.setFin_fab (s : State) (f : BundleEnd) : (s.setFin f).fab = s.fab := rfl
@[simp] theorem State.setFin_sch (s : State) (f : BundleEnd) : (s.setFin f).sch = s.sch := rfl
@[simp] theorem State.setFin_err (s : State) (f : BundleEnd) : (s.setFin f).err = s.err := rfl
@[simp] theorem State.setFin_hst (s : State) (f : BundleEnd) : (s.setFin f).hst = s.hst := rfl
@[simp] theorem State.setFin_clock (s : State) (f : BundleEnd) : (s.setFin f).clock = s.clock := rfl
@[simp] theorem State.setFin_inbox (s : State) (f : BundleEnd) : (s.setFin f).inbox = s.inbox := rfl
@[simp] theorem State.setFin_ev (s : State) (f : BundleEnd) : (s.setFin f).ev = s.ev := rfl
@[simp] theorem State.setFin_nextId (s : State) (f : BundleEnd) : (s.setFin f).nextId = s.nextId := rfl
@[simp] theorem State.setFin_pickCount (s : State) (f : BundleEnd) : (s.setFin f).pickCount = s.pickCount := rfl
@[simp] theorem State.setFin_freeCount (s : State) (f : BundleEnd) : (s.setFin f).freeCount = s.freeCount := rfl

@[simp] theorem State.setStatus_regs (s : State) (f : Flags) : (s.setStatus f).regs = s.regs := rfl
@[simp] theorem State.setStatus_k (s : State) (f : Flags) : (s.setStatus f).k = { s.k with status := setFlags s.k.status f } := rfl
@[simp] theorem State.setStatus_seq (s : State) (f : Flags) : (s.setStatus f).seq = s.seq := rfl
@[simp] theorem State.setStatus_pipe (s : State) (f : Flags) : (s.setStatus f).pipe = s.pipe := rfl
@[simp] theorem State.setStatus_rgn (s : State) (f : Flags) : (s.setStatus f).rgn = s.rgn := rfl
@[simp] theorem State.setStatus_regions (s : State) (f : Flags) : (s.setStatus f).regions = s.regions := rfl
@[simp] theorem State.setStatus_buf (s : State) (f : Flags) : (s.setStatus f).buf = s.buf := rfl
@[simp] theorem State.setStatus_mat (s : State) (f : Flags) : (s.setStatus f).mat = s.mat := rfl
@[simp] theorem State.setStatus_sp (s : State) (f : Flags) : (s.setStatus f).sp = s.sp := rfl
@[simp] theorem State.setStatus_vaults (s : State) (f : Flags) : (s.setStatus f).vaults = s.vaults := rfl
@[simp] theorem State.setStatus_acqs (s : State) (f : Flags) : (s.setStatus f).acqs = s.acqs := rfl
@[simp] theorem State.setStatus_eng (s : State) (f : Flags) : (s.setStatus f).eng = s.eng := rfl
@[simp] theorem State.setStatus_hbm (s : State) (f : Flags) : (s.setStatus f).hbm = s.hbm := rfl
@[simp] theorem State.setStatus_poison (s : State) (f : Flags) : (s.setStatus f).poison = s.poison := rfl
@[simp] theorem State.setStatus_l2 (s : State) (f : Flags) : (s.setStatus f).l2 = s.l2 := rfl
@[simp] theorem State.setStatus_tlb (s : State) (f : Flags) : (s.setStatus f).tlb = s.tlb := rfl
@[simp] theorem State.setStatus_rtags (s : State) (f : Flags) : (s.setStatus f).rtags = s.rtags := rfl
@[simp] theorem State.setStatus_xch (s : State) (f : Flags) : (s.setStatus f).xch = s.xch := rfl
@[simp] theorem State.setStatus_fab (s : State) (f : Flags) : (s.setStatus f).fab = s.fab := rfl
@[simp] theorem State.setStatus_sch (s : State) (f : Flags) : (s.setStatus f).sch = s.sch := rfl
@[simp] theorem State.setStatus_err (s : State) (f : Flags) : (s.setStatus f).err = s.err := rfl
@[simp] theorem State.setStatus_hst (s : State) (f : Flags) : (s.setStatus f).hst = s.hst := rfl
@[simp] theorem State.setStatus_clock (s : State) (f : Flags) : (s.setStatus f).clock = s.clock := rfl
@[simp] theorem State.setStatus_inbox (s : State) (f : Flags) : (s.setStatus f).inbox = s.inbox := rfl
@[simp] theorem State.setStatus_ev (s : State) (f : Flags) : (s.setStatus f).ev = s.ev := rfl
@[simp] theorem State.setStatus_nextId (s : State) (f : Flags) : (s.setStatus f).nextId = s.nextId := rfl
@[simp] theorem State.setStatus_pickCount (s : State) (f : Flags) : (s.setStatus f).pickCount = s.pickCount := rfl
@[simp] theorem State.setStatus_freeCount (s : State) (f : Flags) : (s.setStatus f).freeCount = s.freeCount := rfl

@[simp] theorem State.setSticky_regs (s : State) (m : BitVec 6) : (s.setSticky m).regs = s.regs := rfl
@[simp] theorem State.setSticky_k (s : State) (m : BitVec 6) : (s.setSticky m).k = s.k := rfl
@[simp] theorem State.setSticky_seq (s : State) (m : BitVec 6) : (s.setSticky m).seq = s.seq := rfl
@[simp] theorem State.setSticky_pipe (s : State) (m : BitVec 6) : (s.setSticky m).pipe = { s.pipe with inflight := s.pipe.inflight.map (strikeSticky m) } := rfl
@[simp] theorem State.setSticky_rgn (s : State) (m : BitVec 6) : (s.setSticky m).rgn = s.rgn := rfl
@[simp] theorem State.setSticky_regions (s : State) (m : BitVec 6) : (s.setSticky m).regions = s.regions := rfl
@[simp] theorem State.setSticky_buf (s : State) (m : BitVec 6) : (s.setSticky m).buf = s.buf := rfl
@[simp] theorem State.setSticky_mat (s : State) (m : BitVec 6) : (s.setSticky m).mat = { s.mat with sticky := s.mat.sticky ||| m } := rfl
@[simp] theorem State.setSticky_sp (s : State) (m : BitVec 6) : (s.setSticky m).sp = s.sp := rfl
@[simp] theorem State.setSticky_vaults (s : State) (m : BitVec 6) : (s.setSticky m).vaults = s.vaults := rfl
@[simp] theorem State.setSticky_acqs (s : State) (m : BitVec 6) : (s.setSticky m).acqs = s.acqs := rfl
@[simp] theorem State.setSticky_eng (s : State) (m : BitVec 6) : (s.setSticky m).eng = s.eng := rfl
@[simp] theorem State.setSticky_hbm (s : State) (m : BitVec 6) : (s.setSticky m).hbm = s.hbm := rfl
@[simp] theorem State.setSticky_poison (s : State) (m : BitVec 6) : (s.setSticky m).poison = s.poison := rfl
@[simp] theorem State.setSticky_l2 (s : State) (m : BitVec 6) : (s.setSticky m).l2 = s.l2 := rfl
@[simp] theorem State.setSticky_tlb (s : State) (m : BitVec 6) : (s.setSticky m).tlb = s.tlb := rfl
@[simp] theorem State.setSticky_rtags (s : State) (m : BitVec 6) : (s.setSticky m).rtags = s.rtags := rfl
@[simp] theorem State.setSticky_xch (s : State) (m : BitVec 6) : (s.setSticky m).xch = s.xch := rfl
@[simp] theorem State.setSticky_fab (s : State) (m : BitVec 6) : (s.setSticky m).fab = s.fab := rfl
@[simp] theorem State.setSticky_sch (s : State) (m : BitVec 6) : (s.setSticky m).sch = s.sch := rfl
@[simp] theorem State.setSticky_err (s : State) (m : BitVec 6) : (s.setSticky m).err = s.err := rfl
@[simp] theorem State.setSticky_hst (s : State) (m : BitVec 6) : (s.setSticky m).hst = s.hst := rfl
@[simp] theorem State.setSticky_clock (s : State) (m : BitVec 6) : (s.setSticky m).clock = s.clock := rfl
@[simp] theorem State.setSticky_inbox (s : State) (m : BitVec 6) : (s.setSticky m).inbox = s.inbox := rfl
@[simp] theorem State.setSticky_ev (s : State) (m : BitVec 6) : (s.setSticky m).ev = s.ev := rfl
@[simp] theorem State.setSticky_nextId (s : State) (m : BitVec 6) : (s.setSticky m).nextId = s.nextId := rfl
@[simp] theorem State.setSticky_pickCount (s : State) (m : BitVec 6) : (s.setSticky m).pickCount = s.pickCount := rfl
@[simp] theorem State.setSticky_freeCount (s : State) (m : BitVec 6) : (s.setSticky m).freeCount = s.freeCount := rfl

@[simp] theorem State.notice_regs (s : State) (n : Notice) : (s.notice n).regs = s.regs := rfl
@[simp] theorem State.notice_k (s : State) (n : Notice) : (s.notice n).k = s.k := rfl
@[simp] theorem State.notice_seq (s : State) (n : Notice) : (s.notice n).seq = s.seq := rfl
@[simp] theorem State.notice_pipe (s : State) (n : Notice) : (s.notice n).pipe = s.pipe := rfl
@[simp] theorem State.notice_rgn (s : State) (n : Notice) : (s.notice n).rgn = s.rgn := rfl
@[simp] theorem State.notice_regions (s : State) (n : Notice) : (s.notice n).regions = s.regions := rfl
@[simp] theorem State.notice_buf (s : State) (n : Notice) : (s.notice n).buf = s.buf := rfl
@[simp] theorem State.notice_mat (s : State) (n : Notice) : (s.notice n).mat = s.mat := rfl
@[simp] theorem State.notice_sp (s : State) (n : Notice) : (s.notice n).sp = s.sp := rfl
@[simp] theorem State.notice_vaults (s : State) (n : Notice) : (s.notice n).vaults = s.vaults := rfl
@[simp] theorem State.notice_acqs (s : State) (n : Notice) : (s.notice n).acqs = s.acqs := rfl
@[simp] theorem State.notice_eng (s : State) (n : Notice) : (s.notice n).eng = s.eng := rfl
@[simp] theorem State.notice_hbm (s : State) (n : Notice) : (s.notice n).hbm = s.hbm := rfl
@[simp] theorem State.notice_poison (s : State) (n : Notice) : (s.notice n).poison = s.poison := rfl
@[simp] theorem State.notice_l2 (s : State) (n : Notice) : (s.notice n).l2 = s.l2 := rfl
@[simp] theorem State.notice_tlb (s : State) (n : Notice) : (s.notice n).tlb = s.tlb := rfl
@[simp] theorem State.notice_rtags (s : State) (n : Notice) : (s.notice n).rtags = s.rtags := rfl
@[simp] theorem State.notice_xch (s : State) (n : Notice) : (s.notice n).xch = s.xch := rfl
@[simp] theorem State.notice_fab (s : State) (n : Notice) : (s.notice n).fab = s.fab := rfl
@[simp] theorem State.notice_sch (s : State) (n : Notice) : (s.notice n).sch = { s.sch with notices := s.sch.notices ++ [n] } := rfl
@[simp] theorem State.notice_err (s : State) (n : Notice) : (s.notice n).err = s.err := rfl
@[simp] theorem State.notice_hst (s : State) (n : Notice) : (s.notice n).hst = s.hst := rfl
@[simp] theorem State.notice_clock (s : State) (n : Notice) : (s.notice n).clock = s.clock := rfl
@[simp] theorem State.notice_inbox (s : State) (n : Notice) : (s.notice n).inbox = s.inbox := rfl
@[simp] theorem State.notice_ev (s : State) (n : Notice) : (s.notice n).ev = s.ev := rfl
@[simp] theorem State.notice_nextId (s : State) (n : Notice) : (s.notice n).nextId = s.nextId := rfl
@[simp] theorem State.notice_pickCount (s : State) (n : Notice) : (s.notice n).pickCount = s.pickCount := rfl
@[simp] theorem State.notice_freeCount (s : State) (n : Notice) : (s.notice n).freeCount = s.freeCount := rfl

@[simp] theorem State.writeHbm_regs (s : State) (pa : Nat) (bs : List Byte) : (s.writeHbm pa bs).regs = s.regs := rfl
@[simp] theorem State.writeHbm_k (s : State) (pa : Nat) (bs : List Byte) : (s.writeHbm pa bs).k = s.k := rfl
@[simp] theorem State.writeHbm_seq (s : State) (pa : Nat) (bs : List Byte) : (s.writeHbm pa bs).seq = s.seq := rfl
@[simp] theorem State.writeHbm_pipe (s : State) (pa : Nat) (bs : List Byte) : (s.writeHbm pa bs).pipe = s.pipe := rfl
@[simp] theorem State.writeHbm_rgn (s : State) (pa : Nat) (bs : List Byte) : (s.writeHbm pa bs).rgn = s.rgn := rfl
@[simp] theorem State.writeHbm_regions (s : State) (pa : Nat) (bs : List Byte) : (s.writeHbm pa bs).regions = s.regions := rfl
@[simp] theorem State.writeHbm_buf (s : State) (pa : Nat) (bs : List Byte) : (s.writeHbm pa bs).buf = s.buf := rfl
@[simp] theorem State.writeHbm_mat (s : State) (pa : Nat) (bs : List Byte) : (s.writeHbm pa bs).mat = s.mat := rfl
@[simp] theorem State.writeHbm_sp (s : State) (pa : Nat) (bs : List Byte) : (s.writeHbm pa bs).sp = s.sp := rfl
@[simp] theorem State.writeHbm_vaults (s : State) (pa : Nat) (bs : List Byte) : (s.writeHbm pa bs).vaults = s.vaults := rfl
@[simp] theorem State.writeHbm_acqs (s : State) (pa : Nat) (bs : List Byte) : (s.writeHbm pa bs).acqs = s.acqs := rfl
@[simp] theorem State.writeHbm_eng (s : State) (pa : Nat) (bs : List Byte) : (s.writeHbm pa bs).eng = s.eng := rfl
@[simp] theorem State.writeHbm_hbm (s : State) (pa : Nat) (bs : List Byte) : (s.writeHbm pa bs).hbm = Memory.write s.hbm pa (bs.take (hbmEnd - pa)) := rfl
@[simp] theorem State.writeHbm_poison (s : State) (pa : Nat) (bs : List Byte) : (s.writeHbm pa bs).poison = s.poison := rfl
@[simp] theorem State.writeHbm_l2 (s : State) (pa : Nat) (bs : List Byte) : (s.writeHbm pa bs).l2 = s.l2 := rfl
@[simp] theorem State.writeHbm_tlb (s : State) (pa : Nat) (bs : List Byte) : (s.writeHbm pa bs).tlb = s.tlb := rfl
@[simp] theorem State.writeHbm_rtags (s : State) (pa : Nat) (bs : List Byte) : (s.writeHbm pa bs).rtags = tagWrite s.rtags (.here pa) bs.length none := rfl
@[simp] theorem State.writeHbm_xch (s : State) (pa : Nat) (bs : List Byte) : (s.writeHbm pa bs).xch = s.xch := rfl
@[simp] theorem State.writeHbm_fab (s : State) (pa : Nat) (bs : List Byte) : (s.writeHbm pa bs).fab = s.fab := rfl
@[simp] theorem State.writeHbm_sch (s : State) (pa : Nat) (bs : List Byte) : (s.writeHbm pa bs).sch = s.sch := rfl
@[simp] theorem State.writeHbm_err (s : State) (pa : Nat) (bs : List Byte) : (s.writeHbm pa bs).err = s.err := rfl
@[simp] theorem State.writeHbm_hst (s : State) (pa : Nat) (bs : List Byte) : (s.writeHbm pa bs).hst = s.hst := rfl
@[simp] theorem State.writeHbm_clock (s : State) (pa : Nat) (bs : List Byte) : (s.writeHbm pa bs).clock = s.clock := rfl
@[simp] theorem State.writeHbm_inbox (s : State) (pa : Nat) (bs : List Byte) : (s.writeHbm pa bs).inbox = s.inbox := rfl
@[simp] theorem State.writeHbm_ev (s : State) (pa : Nat) (bs : List Byte) : (s.writeHbm pa bs).ev = s.ev := rfl
@[simp] theorem State.writeHbm_nextId (s : State) (pa : Nat) (bs : List Byte) : (s.writeHbm pa bs).nextId = s.nextId := rfl
@[simp] theorem State.writeHbm_pickCount (s : State) (pa : Nat) (bs : List Byte) : (s.writeHbm pa bs).pickCount = s.pickCount := rfl
@[simp] theorem State.writeHbm_freeCount (s : State) (pa : Nat) (bs : List Byte) : (s.writeHbm pa bs).freeCount = s.freeCount := rfl

@[simp] theorem State.queued_regs (s : State) (left : Nat) (fl : Flags) (w : Landing) : (s.queued left fl w).regs = s.regs := rfl
@[simp] theorem State.queued_k (s : State) (left : Nat) (fl : Flags) (w : Landing) : (s.queued left fl w).k = s.k := rfl
@[simp] theorem State.queued_seq (s : State) (left : Nat) (fl : Flags) (w : Landing) : (s.queued left fl w).seq = s.seq := rfl
@[simp] theorem State.queued_pipe (s : State) (left : Nat) (fl : Flags) (w : Landing) : (s.queued left fl w).pipe = { s.pipe with inflight := s.pipe.inflight ++ [⟨left, s.seq.bun.slot, s.seq.count, s.k.priv, fl, w⟩] } := rfl
@[simp] theorem State.queued_rgn (s : State) (left : Nat) (fl : Flags) (w : Landing) : (s.queued left fl w).rgn = s.rgn := rfl
@[simp] theorem State.queued_regions (s : State) (left : Nat) (fl : Flags) (w : Landing) : (s.queued left fl w).regions = s.regions := rfl
@[simp] theorem State.queued_buf (s : State) (left : Nat) (fl : Flags) (w : Landing) : (s.queued left fl w).buf = s.buf := rfl
@[simp] theorem State.queued_mat (s : State) (left : Nat) (fl : Flags) (w : Landing) : (s.queued left fl w).mat = s.mat := rfl
@[simp] theorem State.queued_sp (s : State) (left : Nat) (fl : Flags) (w : Landing) : (s.queued left fl w).sp = s.sp := rfl
@[simp] theorem State.queued_vaults (s : State) (left : Nat) (fl : Flags) (w : Landing) : (s.queued left fl w).vaults = s.vaults := rfl
@[simp] theorem State.queued_acqs (s : State) (left : Nat) (fl : Flags) (w : Landing) : (s.queued left fl w).acqs = s.acqs := rfl
@[simp] theorem State.queued_eng (s : State) (left : Nat) (fl : Flags) (w : Landing) : (s.queued left fl w).eng = s.eng := rfl
@[simp] theorem State.queued_hbm (s : State) (left : Nat) (fl : Flags) (w : Landing) : (s.queued left fl w).hbm = s.hbm := rfl
@[simp] theorem State.queued_poison (s : State) (left : Nat) (fl : Flags) (w : Landing) : (s.queued left fl w).poison = s.poison := rfl
@[simp] theorem State.queued_l2 (s : State) (left : Nat) (fl : Flags) (w : Landing) : (s.queued left fl w).l2 = s.l2 := rfl
@[simp] theorem State.queued_tlb (s : State) (left : Nat) (fl : Flags) (w : Landing) : (s.queued left fl w).tlb = s.tlb := rfl
@[simp] theorem State.queued_rtags (s : State) (left : Nat) (fl : Flags) (w : Landing) : (s.queued left fl w).rtags = s.rtags := rfl
@[simp] theorem State.queued_xch (s : State) (left : Nat) (fl : Flags) (w : Landing) : (s.queued left fl w).xch = s.xch := rfl
@[simp] theorem State.queued_fab (s : State) (left : Nat) (fl : Flags) (w : Landing) : (s.queued left fl w).fab = s.fab := rfl
@[simp] theorem State.queued_sch (s : State) (left : Nat) (fl : Flags) (w : Landing) : (s.queued left fl w).sch = s.sch := rfl
@[simp] theorem State.queued_err (s : State) (left : Nat) (fl : Flags) (w : Landing) : (s.queued left fl w).err = s.err := rfl
@[simp] theorem State.queued_hst (s : State) (left : Nat) (fl : Flags) (w : Landing) : (s.queued left fl w).hst = s.hst := rfl
@[simp] theorem State.queued_clock (s : State) (left : Nat) (fl : Flags) (w : Landing) : (s.queued left fl w).clock = s.clock := rfl
@[simp] theorem State.queued_inbox (s : State) (left : Nat) (fl : Flags) (w : Landing) : (s.queued left fl w).inbox = s.inbox := rfl
@[simp] theorem State.queued_ev (s : State) (left : Nat) (fl : Flags) (w : Landing) : (s.queued left fl w).ev = s.ev := rfl
@[simp] theorem State.queued_nextId (s : State) (left : Nat) (fl : Flags) (w : Landing) : (s.queued left fl w).nextId = s.nextId := rfl
@[simp] theorem State.queued_pickCount (s : State) (left : Nat) (fl : Flags) (w : Landing) : (s.queued left fl w).pickCount = s.pickCount := rfl
@[simp] theorem State.queued_freeCount (s : State) (left : Nat) (fl : Flags) (w : Landing) : (s.queued left fl w).freeCount = s.freeCount := rfl

@[simp] theorem State.readsOf_regs (s : State) (us : List TUnit) : (s.readsOf us).regs = s.regs := rfl
@[simp] theorem State.readsOf_k (s : State) (us : List TUnit) : (s.readsOf us).k = s.k := rfl
@[simp] theorem State.readsOf_seq (s : State) (us : List TUnit) : (s.readsOf us).seq = s.seq := rfl
@[simp] theorem State.readsOf_pipe (s : State) (us : List TUnit) : (s.readsOf us).pipe = s.pipe := rfl
@[simp] theorem State.readsOf_rgn (s : State) (us : List TUnit) : (s.readsOf us).rgn = s.rgn.map fun r => r.read us := rfl
@[simp] theorem State.readsOf_regions (s : State) (us : List TUnit) : (s.readsOf us).regions = s.regions := rfl
@[simp] theorem State.readsOf_buf (s : State) (us : List TUnit) : (s.readsOf us).buf = s.buf := rfl
@[simp] theorem State.readsOf_mat (s : State) (us : List TUnit) : (s.readsOf us).mat = s.mat := rfl
@[simp] theorem State.readsOf_sp (s : State) (us : List TUnit) : (s.readsOf us).sp = s.sp := rfl
@[simp] theorem State.readsOf_vaults (s : State) (us : List TUnit) : (s.readsOf us).vaults = s.vaults := rfl
@[simp] theorem State.readsOf_acqs (s : State) (us : List TUnit) : (s.readsOf us).acqs = s.acqs := rfl
@[simp] theorem State.readsOf_eng (s : State) (us : List TUnit) : (s.readsOf us).eng = s.eng := rfl
@[simp] theorem State.readsOf_hbm (s : State) (us : List TUnit) : (s.readsOf us).hbm = s.hbm := rfl
@[simp] theorem State.readsOf_poison (s : State) (us : List TUnit) : (s.readsOf us).poison = s.poison := rfl
@[simp] theorem State.readsOf_l2 (s : State) (us : List TUnit) : (s.readsOf us).l2 = s.l2 := rfl
@[simp] theorem State.readsOf_tlb (s : State) (us : List TUnit) : (s.readsOf us).tlb = s.tlb := rfl
@[simp] theorem State.readsOf_rtags (s : State) (us : List TUnit) : (s.readsOf us).rtags = s.rtags := rfl
@[simp] theorem State.readsOf_xch (s : State) (us : List TUnit) : (s.readsOf us).xch = s.xch := rfl
@[simp] theorem State.readsOf_fab (s : State) (us : List TUnit) : (s.readsOf us).fab = s.fab := rfl
@[simp] theorem State.readsOf_sch (s : State) (us : List TUnit) : (s.readsOf us).sch = s.sch := rfl
@[simp] theorem State.readsOf_err (s : State) (us : List TUnit) : (s.readsOf us).err = s.err := rfl
@[simp] theorem State.readsOf_hst (s : State) (us : List TUnit) : (s.readsOf us).hst = s.hst := rfl
@[simp] theorem State.readsOf_clock (s : State) (us : List TUnit) : (s.readsOf us).clock = s.clock := rfl
@[simp] theorem State.readsOf_inbox (s : State) (us : List TUnit) : (s.readsOf us).inbox = s.inbox := rfl
@[simp] theorem State.readsOf_ev (s : State) (us : List TUnit) : (s.readsOf us).ev = s.ev := rfl
@[simp] theorem State.readsOf_nextId (s : State) (us : List TUnit) : (s.readsOf us).nextId = s.nextId := rfl
@[simp] theorem State.readsOf_pickCount (s : State) (us : List TUnit) : (s.readsOf us).pickCount = s.pickCount := rfl
@[simp] theorem State.readsOf_freeCount (s : State) (us : List TUnit) : (s.readsOf us).freeCount = s.freeCount := rfl

@[simp] theorem State.writesOf_regs (s : State) (us : List TUnit) : (s.writesOf us).regs = s.regs := rfl
@[simp] theorem State.writesOf_k (s : State) (us : List TUnit) : (s.writesOf us).k = s.k := rfl
@[simp] theorem State.writesOf_seq (s : State) (us : List TUnit) : (s.writesOf us).seq = s.seq := rfl
@[simp] theorem State.writesOf_pipe (s : State) (us : List TUnit) : (s.writesOf us).pipe = s.pipe := rfl
@[simp] theorem State.writesOf_rgn (s : State) (us : List TUnit) : (s.writesOf us).rgn = s.rgn.map fun r => r.write us := rfl
@[simp] theorem State.writesOf_regions (s : State) (us : List TUnit) : (s.writesOf us).regions = s.regions := rfl
@[simp] theorem State.writesOf_buf (s : State) (us : List TUnit) : (s.writesOf us).buf = s.buf := rfl
@[simp] theorem State.writesOf_mat (s : State) (us : List TUnit) : (s.writesOf us).mat = s.mat := rfl
@[simp] theorem State.writesOf_sp (s : State) (us : List TUnit) : (s.writesOf us).sp = s.sp := rfl
@[simp] theorem State.writesOf_vaults (s : State) (us : List TUnit) : (s.writesOf us).vaults = s.vaults := rfl
@[simp] theorem State.writesOf_acqs (s : State) (us : List TUnit) : (s.writesOf us).acqs = s.acqs := rfl
@[simp] theorem State.writesOf_eng (s : State) (us : List TUnit) : (s.writesOf us).eng = s.eng := rfl
@[simp] theorem State.writesOf_hbm (s : State) (us : List TUnit) : (s.writesOf us).hbm = s.hbm := rfl
@[simp] theorem State.writesOf_poison (s : State) (us : List TUnit) : (s.writesOf us).poison = s.poison := rfl
@[simp] theorem State.writesOf_l2 (s : State) (us : List TUnit) : (s.writesOf us).l2 = s.l2 := rfl
@[simp] theorem State.writesOf_tlb (s : State) (us : List TUnit) : (s.writesOf us).tlb = s.tlb := rfl
@[simp] theorem State.writesOf_rtags (s : State) (us : List TUnit) : (s.writesOf us).rtags = s.rtags := rfl
@[simp] theorem State.writesOf_xch (s : State) (us : List TUnit) : (s.writesOf us).xch = s.xch := rfl
@[simp] theorem State.writesOf_fab (s : State) (us : List TUnit) : (s.writesOf us).fab = s.fab := rfl
@[simp] theorem State.writesOf_sch (s : State) (us : List TUnit) : (s.writesOf us).sch = s.sch := rfl
@[simp] theorem State.writesOf_err (s : State) (us : List TUnit) : (s.writesOf us).err = s.err := rfl
@[simp] theorem State.writesOf_hst (s : State) (us : List TUnit) : (s.writesOf us).hst = s.hst := rfl
@[simp] theorem State.writesOf_clock (s : State) (us : List TUnit) : (s.writesOf us).clock = s.clock := rfl
@[simp] theorem State.writesOf_inbox (s : State) (us : List TUnit) : (s.writesOf us).inbox = s.inbox := rfl
@[simp] theorem State.writesOf_ev (s : State) (us : List TUnit) : (s.writesOf us).ev = s.ev := rfl
@[simp] theorem State.writesOf_nextId (s : State) (us : List TUnit) : (s.writesOf us).nextId = s.nextId := rfl
@[simp] theorem State.writesOf_pickCount (s : State) (us : List TUnit) : (s.writesOf us).pickCount = s.pickCount := rfl
@[simp] theorem State.writesOf_freeCount (s : State) (us : List TUnit) : (s.writesOf us).freeCount = s.freeCount := rfl

@[simp] theorem State.banking_regs (s : State) (l : List Nat) (n : Nat) : (s.banking l n).regs = s.regs := rfl
@[simp] theorem State.banking_k (s : State) (l : List Nat) (n : Nat) : (s.banking l n).k = s.k := rfl
@[simp] theorem State.banking_seq (s : State) (l : List Nat) (n : Nat) : (s.banking l n).seq = s.seq := rfl
@[simp] theorem State.banking_pipe (s : State) (l : List Nat) (n : Nat) : (s.banking l n).pipe = { s.pipe with banks := (s.pipe.banks.filter fun b => decide (s.clock < b.upto)) ++ [⟨s.seq.count, l, s.clock + n⟩] } := rfl
@[simp] theorem State.banking_rgn (s : State) (l : List Nat) (n : Nat) : (s.banking l n).rgn = s.rgn := rfl
@[simp] theorem State.banking_regions (s : State) (l : List Nat) (n : Nat) : (s.banking l n).regions = s.regions := rfl
@[simp] theorem State.banking_buf (s : State) (l : List Nat) (n : Nat) : (s.banking l n).buf = s.buf := rfl
@[simp] theorem State.banking_mat (s : State) (l : List Nat) (n : Nat) : (s.banking l n).mat = s.mat := rfl
@[simp] theorem State.banking_sp (s : State) (l : List Nat) (n : Nat) : (s.banking l n).sp = s.sp := rfl
@[simp] theorem State.banking_vaults (s : State) (l : List Nat) (n : Nat) : (s.banking l n).vaults = s.vaults := rfl
@[simp] theorem State.banking_acqs (s : State) (l : List Nat) (n : Nat) : (s.banking l n).acqs = s.acqs := rfl
@[simp] theorem State.banking_eng (s : State) (l : List Nat) (n : Nat) : (s.banking l n).eng = s.eng := rfl
@[simp] theorem State.banking_hbm (s : State) (l : List Nat) (n : Nat) : (s.banking l n).hbm = s.hbm := rfl
@[simp] theorem State.banking_poison (s : State) (l : List Nat) (n : Nat) : (s.banking l n).poison = s.poison := rfl
@[simp] theorem State.banking_l2 (s : State) (l : List Nat) (n : Nat) : (s.banking l n).l2 = s.l2 := rfl
@[simp] theorem State.banking_tlb (s : State) (l : List Nat) (n : Nat) : (s.banking l n).tlb = s.tlb := rfl
@[simp] theorem State.banking_rtags (s : State) (l : List Nat) (n : Nat) : (s.banking l n).rtags = s.rtags := rfl
@[simp] theorem State.banking_xch (s : State) (l : List Nat) (n : Nat) : (s.banking l n).xch = s.xch := rfl
@[simp] theorem State.banking_fab (s : State) (l : List Nat) (n : Nat) : (s.banking l n).fab = s.fab := rfl
@[simp] theorem State.banking_sch (s : State) (l : List Nat) (n : Nat) : (s.banking l n).sch = s.sch := rfl
@[simp] theorem State.banking_err (s : State) (l : List Nat) (n : Nat) : (s.banking l n).err = s.err := rfl
@[simp] theorem State.banking_hst (s : State) (l : List Nat) (n : Nat) : (s.banking l n).hst = s.hst := rfl
@[simp] theorem State.banking_clock (s : State) (l : List Nat) (n : Nat) : (s.banking l n).clock = s.clock := rfl
@[simp] theorem State.banking_inbox (s : State) (l : List Nat) (n : Nat) : (s.banking l n).inbox = s.inbox := rfl
@[simp] theorem State.banking_ev (s : State) (l : List Nat) (n : Nat) : (s.banking l n).ev = s.ev := rfl
@[simp] theorem State.banking_nextId (s : State) (l : List Nat) (n : Nat) : (s.banking l n).nextId = s.nextId := rfl
@[simp] theorem State.banking_pickCount (s : State) (l : List Nat) (n : Nat) : (s.banking l n).pickCount = s.pickCount := rfl
@[simp] theorem State.banking_freeCount (s : State) (l : List Nat) (n : Nat) : (s.banking l n).freeCount = s.freeCount := rfl

@[simp] theorem State.hop_regs (s : State) (d lane : Nat) (p : Packet) (held : Option (Nat × Nat)) : (s.hop d lane p held).regs = s.regs := rfl
@[simp] theorem State.hop_k (s : State) (d lane : Nat) (p : Packet) (held : Option (Nat × Nat)) : (s.hop d lane p held).k = s.k := rfl
@[simp] theorem State.hop_seq (s : State) (d lane : Nat) (p : Packet) (held : Option (Nat × Nat)) : (s.hop d lane p held).seq = s.seq := rfl
@[simp] theorem State.hop_pipe (s : State) (d lane : Nat) (p : Packet) (held : Option (Nat × Nat)) : (s.hop d lane p held).pipe = s.pipe := rfl
@[simp] theorem State.hop_rgn (s : State) (d lane : Nat) (p : Packet) (held : Option (Nat × Nat)) : (s.hop d lane p held).rgn = s.rgn := rfl
@[simp] theorem State.hop_regions (s : State) (d lane : Nat) (p : Packet) (held : Option (Nat × Nat)) : (s.hop d lane p held).regions = s.regions := rfl
@[simp] theorem State.hop_buf (s : State) (d lane : Nat) (p : Packet) (held : Option (Nat × Nat)) : (s.hop d lane p held).buf = s.buf := rfl
@[simp] theorem State.hop_mat (s : State) (d lane : Nat) (p : Packet) (held : Option (Nat × Nat)) : (s.hop d lane p held).mat = s.mat := rfl
@[simp] theorem State.hop_sp (s : State) (d lane : Nat) (p : Packet) (held : Option (Nat × Nat)) : (s.hop d lane p held).sp = s.sp := rfl
@[simp] theorem State.hop_vaults (s : State) (d lane : Nat) (p : Packet) (held : Option (Nat × Nat)) : (s.hop d lane p held).vaults = s.vaults := rfl
@[simp] theorem State.hop_acqs (s : State) (d lane : Nat) (p : Packet) (held : Option (Nat × Nat)) : (s.hop d lane p held).acqs = s.acqs := rfl
@[simp] theorem State.hop_eng (s : State) (d lane : Nat) (p : Packet) (held : Option (Nat × Nat)) : (s.hop d lane p held).eng = s.eng := rfl
@[simp] theorem State.hop_hbm (s : State) (d lane : Nat) (p : Packet) (held : Option (Nat × Nat)) : (s.hop d lane p held).hbm = s.hbm := rfl
@[simp] theorem State.hop_poison (s : State) (d lane : Nat) (p : Packet) (held : Option (Nat × Nat)) : (s.hop d lane p held).poison = s.poison := rfl
@[simp] theorem State.hop_l2 (s : State) (d lane : Nat) (p : Packet) (held : Option (Nat × Nat)) : (s.hop d lane p held).l2 = s.l2 := rfl
@[simp] theorem State.hop_tlb (s : State) (d lane : Nat) (p : Packet) (held : Option (Nat × Nat)) : (s.hop d lane p held).tlb = s.tlb := rfl
@[simp] theorem State.hop_rtags (s : State) (d lane : Nat) (p : Packet) (held : Option (Nat × Nat)) : (s.hop d lane p held).rtags = s.rtags := rfl
@[simp] theorem State.hop_xch (s : State) (d lane : Nat) (p : Packet) (held : Option (Nat × Nat)) : (s.hop d lane p held).xch = s.xch := rfl
@[simp] theorem State.hop_fab (s : State) (d lane : Nat) (p : Packet) (held : Option (Nat × Nat)) : (s.hop d lane p held).fab = updLink s.fab d (·.send lane p held) := rfl
@[simp] theorem State.hop_sch (s : State) (d lane : Nat) (p : Packet) (held : Option (Nat × Nat)) : (s.hop d lane p held).sch = s.sch := rfl
@[simp] theorem State.hop_err (s : State) (d lane : Nat) (p : Packet) (held : Option (Nat × Nat)) : (s.hop d lane p held).err = s.err := rfl
@[simp] theorem State.hop_hst (s : State) (d lane : Nat) (p : Packet) (held : Option (Nat × Nat)) : (s.hop d lane p held).hst = s.hst := rfl
@[simp] theorem State.hop_clock (s : State) (d lane : Nat) (p : Packet) (held : Option (Nat × Nat)) : (s.hop d lane p held).clock = s.clock := rfl
@[simp] theorem State.hop_inbox (s : State) (d lane : Nat) (p : Packet) (held : Option (Nat × Nat)) : (s.hop d lane p held).inbox = s.inbox := rfl
@[simp] theorem State.hop_ev (s : State) (d lane : Nat) (p : Packet) (held : Option (Nat × Nat)) : (s.hop d lane p held).ev = s.ev := rfl
@[simp] theorem State.hop_nextId (s : State) (d lane : Nat) (p : Packet) (held : Option (Nat × Nat)) : (s.hop d lane p held).nextId = s.nextId := rfl
@[simp] theorem State.hop_pickCount (s : State) (d lane : Nat) (p : Packet) (held : Option (Nat × Nat)) : (s.hop d lane p held).pickCount = s.pickCount := rfl
@[simp] theorem State.hop_freeCount (s : State) (d lane : Nat) (p : Packet) (held : Option (Nat × Nat)) : (s.hop d lane p held).freeCount = s.freeCount := rfl

@[simp] theorem State.tellLink_regs (s : State) (d ctype v : Nat) : (s.tellLink d ctype v).regs = s.regs := rfl
@[simp] theorem State.tellLink_k (s : State) (d ctype v : Nat) : (s.tellLink d ctype v).k = s.k := rfl
@[simp] theorem State.tellLink_seq (s : State) (d ctype v : Nat) : (s.tellLink d ctype v).seq = s.seq := rfl
@[simp] theorem State.tellLink_pipe (s : State) (d ctype v : Nat) : (s.tellLink d ctype v).pipe = s.pipe := rfl
@[simp] theorem State.tellLink_rgn (s : State) (d ctype v : Nat) : (s.tellLink d ctype v).rgn = s.rgn := rfl
@[simp] theorem State.tellLink_regions (s : State) (d ctype v : Nat) : (s.tellLink d ctype v).regions = s.regions := rfl
@[simp] theorem State.tellLink_buf (s : State) (d ctype v : Nat) : (s.tellLink d ctype v).buf = s.buf := rfl
@[simp] theorem State.tellLink_mat (s : State) (d ctype v : Nat) : (s.tellLink d ctype v).mat = s.mat := rfl
@[simp] theorem State.tellLink_sp (s : State) (d ctype v : Nat) : (s.tellLink d ctype v).sp = s.sp := rfl
@[simp] theorem State.tellLink_vaults (s : State) (d ctype v : Nat) : (s.tellLink d ctype v).vaults = s.vaults := rfl
@[simp] theorem State.tellLink_acqs (s : State) (d ctype v : Nat) : (s.tellLink d ctype v).acqs = s.acqs := rfl
@[simp] theorem State.tellLink_eng (s : State) (d ctype v : Nat) : (s.tellLink d ctype v).eng = s.eng := rfl
@[simp] theorem State.tellLink_hbm (s : State) (d ctype v : Nat) : (s.tellLink d ctype v).hbm = s.hbm := rfl
@[simp] theorem State.tellLink_poison (s : State) (d ctype v : Nat) : (s.tellLink d ctype v).poison = s.poison := rfl
@[simp] theorem State.tellLink_l2 (s : State) (d ctype v : Nat) : (s.tellLink d ctype v).l2 = s.l2 := rfl
@[simp] theorem State.tellLink_tlb (s : State) (d ctype v : Nat) : (s.tellLink d ctype v).tlb = s.tlb := rfl
@[simp] theorem State.tellLink_rtags (s : State) (d ctype v : Nat) : (s.tellLink d ctype v).rtags = s.rtags := rfl
@[simp] theorem State.tellLink_xch (s : State) (d ctype v : Nat) : (s.tellLink d ctype v).xch = s.xch := rfl
@[simp] theorem State.tellLink_fab (s : State) (d ctype v : Nat) : (s.tellLink d ctype v).fab = updLink s.fab d (·.tell (controlPacket s.k.nodeId (s.neighbour d) 0 (BitVec.ofNat 64 (ctype + v * 2 ^ 8)))) := rfl
@[simp] theorem State.tellLink_sch (s : State) (d ctype v : Nat) : (s.tellLink d ctype v).sch = s.sch := rfl
@[simp] theorem State.tellLink_err (s : State) (d ctype v : Nat) : (s.tellLink d ctype v).err = s.err := rfl
@[simp] theorem State.tellLink_hst (s : State) (d ctype v : Nat) : (s.tellLink d ctype v).hst = s.hst := rfl
@[simp] theorem State.tellLink_clock (s : State) (d ctype v : Nat) : (s.tellLink d ctype v).clock = s.clock := rfl
@[simp] theorem State.tellLink_inbox (s : State) (d ctype v : Nat) : (s.tellLink d ctype v).inbox = s.inbox := rfl
@[simp] theorem State.tellLink_ev (s : State) (d ctype v : Nat) : (s.tellLink d ctype v).ev = s.ev := rfl
@[simp] theorem State.tellLink_nextId (s : State) (d ctype v : Nat) : (s.tellLink d ctype v).nextId = s.nextId := rfl
@[simp] theorem State.tellLink_pickCount (s : State) (d ctype v : Nat) : (s.tellLink d ctype v).pickCount = s.pickCount := rfl
@[simp] theorem State.tellLink_freeCount (s : State) (d ctype v : Nat) : (s.tellLink d ctype v).freeCount = s.freeCount := rfl

end Sys2Proof.Machine
end

