-- ==== Sys2Proof/Laws/Ops.lean ====
section
/-! SUPPORT. What the shared operations do: checks, effects in order, an answer from an issue. -/

namespace Sys2Proof.Machine

/-! ## Checks -/

@[simp] theorem check_true (c : Cause) : check true c = .ok () := rfl
@[simp] theorem check_false (c : Cause) : check false c = .error (.trap { cause := c }) := rfl
@[simp] theorem checkAt_true (c : Cause) (a : VAddr) : checkAt true c a = .ok () := rfl
@[simp] theorem checkAt_false (c : Cause) (a : VAddr) : checkAt false c a = .error (.trap { cause := c, eva := a }) := rfl
@[simp] theorem await_true (n : Nat) : await true n = .ok () := rfl
@[simp] theorem await_false (n : Nat) : await false n = .error (.stall n) := rfl

@[simp] theorem issueOf_ok (es : List Effect) : issueOf (.ok es) = .done es := rfl
@[simp] theorem issueOf_error (i : Issue) : issueOf (.error i) = i := rfl

@[simp] theorem ok_bind {α β : Type} (a : α) (f : α → Except Issue β) : (Except.ok a >>= f) = f a := rfl
@[simp] theorem error_bind {α β : Type} (i : Issue) (f : α → Except Issue β) : (Except.error i >>= f) = .error i := rfl

/-- What a check that passed says. -/
theorem check_ok {b : Bool} {c : Cause} {u : Unit} (h : check b c = .ok u) : b = true := by
  cases b <;> simp_all [check]

/-! ## Effects in order -/

@[simp] theorem applyAll_nil (s : State) : applyAll s [] = s := rfl
@[simp] theorem applyAll_cons (s : State) (e : Effect) (es : List Effect) : applyAll s (e :: es) = applyAll (e.apply s) es := rfl
theorem applyAll_append (s : State) (es fs : List Effect) : applyAll s (es ++ fs) = applyAll (applyAll s es) fs := by
  simp [applyAll]

@[simp] theorem apply_land (s : State) (l : Nat) (f : Flags) (w : Landing) : (Effect.land l f w).apply s = s.queued l f w := rfl
@[simp] theorem apply_wait (s : State) (w : Wait) : (Effect.wait w).apply s = s.awaiting w := rfl
@[simp] theorem apply_reads (s : State) (us : List TUnit) : (Effect.reads us).apply s = s.readsOf us := rfl
@[simp] theorem apply_writes (s : State) (us : List TUnit) : (Effect.writes us).apply s = s.writesOf us := rfl
@[simp] theorem apply_pushLoop (s : State) (l : LoopLevel) : (Effect.pushLoop l).apply s = s.setFin { s.fin with pushed := some l } := rfl
@[simp] theorem apply_skip (s : State) (a : VAddr) : (Effect.skip a).apply s = s.setFin { s.fin with skip := some a } := rfl
@[simp] theorem apply_leave (s : State) : Effect.leave.apply s = s.setFin { s.fin with leaves := s.fin.leaves + 1 } := rfl
@[simp] theorem apply_delay (s : State) (n : Nat) : (Effect.delay n).apply s = s.setFin { s.fin with delay := max s.fin.delay n } := rfl
@[simp] theorem apply_brk (s : State) : Effect.brk.apply s = s.setFin { s.fin with brk := true } := rfl
@[simp] theorem apply_draw (s : State) (n : Nat) : (Effect.draw n).apply s = s.setFin { s.fin with draws := s.fin.draws + n } := rfl
@[simp] theorem apply_redirect (s : State) (l : Nat) (t : VAddr) : (Effect.redirect l t).apply s =
    { s with seq := { s.seq with redirects := s.seq.redirects ++ [⟨l, s.seq.count, s.seq.bun.slot, t &&& ~~~0xF#48⟩] } } := rfl
@[simp] theorem apply_trapReq (s : State) (i : BitVec 26) : (Effect.trapReq i).apply s = { s with seq := { s.seq with trapReq := some i } } := rfl
@[simp] theorem apply_taken (s : State) (w : DWord) : (Effect.taken w).apply s =
    s.setFin { s.fin with taken := s.fin.taken + 2 ^ s.seq.bun.slot, branchWord := if w = 0 then s.fin.branchWord else w } := rfl
@[simp] theorem apply_status (s : State) (f : Flags) : (Effect.status f).apply s = s.setStatus f := rfl
@[simp] theorem apply_sp (s : State) (a : Nat) (bs : List Byte) : (Effect.sp a bs).apply s = { s with sp := Memory.write s.sp a bs } := rfl
@[simp] theorem apply_hbm (s : State) (a : Nat) (bs : List Byte) : (Effect.hbm a bs).apply s = s.writeHbm a bs := rfl
@[simp] theorem apply_ids (s : State) (n : Nat) : (Effect.ids n).apply s = { s with nextId := s.nextId + n } := rfl
@[simp] theorem apply_notify (s : State) (n : Notice) : (Effect.notify n).apply s = s.notice n := rfl
@[simp] theorem apply_commit (s : State) : Effect.commit.apply s = s.commitRegion := rfl
@[simp] theorem apply_resumes (s : State) : Effect.resumes.apply s = { s with rgn := s.rgn.map fun r => { r with resIssued := true } } := rfl
@[simp] theorem apply_opens (s : State) (o : Opening) : (Effect.opens o).apply s = s.setFin { s.fin with opens := some o } := rfl
@[simp] theorem apply_committing (s : State) : Effect.committing.apply s = { s with rgn := s.rgn.map fun r => { r with committing := true } } := rfl
@[simp] theorem apply_rend (s : State) : Effect.rend.apply s = s.setFin { s.fin with rend := true } := rfl
@[simp] theorem apply_yields (s : State) : Effect.yields.apply s = s.setFin { s.fin with yields := true } := rfl
@[simp] theorem apply_direct (s : State) (n : Nat) : (Effect.direct n).apply s =
    { s with seq := { s.seq with direct := (s.seq.bun.slot, n) :: s.seq.direct.filter fun x => x.1 != s.seq.bun.slot } } := rfl
@[simp] theorem apply_banks (s : State) (l : List Nat) (n : Nat) : (Effect.banks l n).apply s = s.banking l n := rfl
@[simp] theorem apply_sticky (s : State) (m : BitVec 6) : (Effect.sticky m).apply s = s.setSticky m := rfl
@[simp] theorem apply_trace (s : State) (k d : Nat) (w : DWord) : (Effect.trace k d w).apply s = s.trace k d w := rfl
@[simp] theorem apply_arrive (s : State) (id : Nat) (a : Arrived) (f : Flags) : (Effect.arrive id a f).apply s = s.arrive id a f := rfl
@[simp] theorem apply_perform (s : State) (o : Option Opening) : (Effect.perform o).apply s = { s with seq := { s.seq with perform := o } } := rfl
@[simp] theorem apply_setTlb (s : State) (t : Tlb) : (Effect.setTlb t).apply s = { s with tlb := t } := rfl
@[simp] theorem apply_setL2 (s : State) (l : List L2Line) : (Effect.setL2 l).apply s = { s with l2 := l } := rfl
@[simp] theorem apply_setHst (s : State) (h : Hst) : (Effect.setHst h).apply s = { s with hst := h } := rfl
@[simp] theorem apply_setRtags (s : State) (r : List RelTag) : (Effect.setRtags r).apply s = { s with rtags := r } := rfl
@[simp] theorem apply_setEng (s : State) (e : Eng) : (Effect.setEng e).apply s = { s with eng := e } := rfl
@[simp] theorem apply_setFab (s : State) (f : Fab) : (Effect.setFab f).apply s = { s with fab := f } := rfl
@[simp] theorem apply_setSch (s : State) (c : Sched) : (Effect.setSch c).apply s = { s with sch := c } := rfl
@[simp] theorem apply_setErr (s : State) (e : Errs) : (Effect.setErr e).apply s = { s with err := e } := rfl
@[simp] theorem apply_setXch (s : State) (x : Xch) : (Effect.setXch x).apply s = { s with xch := x } := rfl
@[simp] theorem apply_setMat (s : State) (m : Mat) : (Effect.setMat m).apply s = { s with mat := m } := rfl
@[simp] theorem apply_setBuf (s : State) (b : List BufEntry) : (Effect.setBuf b).apply s = { s with buf := b } := rfl
@[simp] theorem apply_setVaults (s : State) (v : List Vault) : (Effect.setVaults v).apply s = { s with vaults := v } := rfl
@[simp] theorem apply_setAcqs (s : State) (a : List Acq) : (Effect.setAcqs a).apply s = { s with acqs := a } := rfl
@[simp] theorem apply_setPoison (s : State) (p : List Nat) : (Effect.setPoison p).apply s = { s with poison := p } := rfl
@[simp] theorem apply_rngCtr (s : State) (v : DWord) : (Effect.rngCtr v).apply s = { s with k := { s.k with rngCtr := v } } := rfl

/-! ## Answers -/

@[simp] theorem settle_done (s : State) (es : List Effect) : s.settle (.done es) = .next (applyAll s es) := rfl
@[simp] theorem settle_trap (s : State) (t : Trap) : s.settle (.trap t) = .next (s.takeTrap t) := rfl
@[simp] theorem settle_stall (s : State) (c : Nat) :
    s.settle (.stall c) = .next { s with seq := { s.seq with bun := { s.seq.bun with stalled := some c } } } := rfl
@[simp] theorem settle_halt (s : State) (f : Fault) : s.settle (.halt f) = .fault f := rfl

/-- Checks that all pass: the effects. -/
theorem settle_of_ok {s : State} {m : Except Issue (List Effect)} {es : List Effect} (h : m = .ok es) :
    s.settle (issueOf m) = .next (applyAll s es) := by subst h; rfl

/-- A check that fails: its cause. -/
theorem settle_of_cause {s : State} {m : Except Issue (List Effect)} {c : Cause} (h : m = .error (.trap { cause := c })) :
    s.settle (issueOf m) = s.raises c := by subst h; rfl

/-- Everything that an answer can be. -/
theorem settle_cases (s : State) (i : Issue) :
    (∃ t, s.settle i = .next t) ∨ ∃ f, i = .halt f ∧ s.settle i = .fault f := by
  cases i
  case halt f => exact .inr ⟨f, rfl, rfl⟩
  all_goals exact .inl ⟨_, rfl⟩

/-! ## Shared checks -/

theorem needRegion_of_regional {s : State} (h : s.regional) : s.needRegion = .ok () := by
  have e : (s.k.priv || s.inRegion || s.seq.perform.isSome) = true := by
    rcases h with h | h | h
    · simp [h]
    · simp [State.inRegion, h]
    · simp [h]
  unfold State.needRegion; rw [e]; rfl

theorem needRegion_of_not {s : State} (h : ¬ s.regional) : s.needRegion = .error (.trap { cause := .regionContext }) := by
  have e : (s.k.priv || s.inRegion || s.seq.perform.isSome) = false := by
    simp only [State.regional, not_or] at h
    simp only [State.inRegion]
    simp_all
  unfold State.needRegion; rw [e]; rfl

/-- R207, R120: an extent that may be used passes. -/
theorem spCheck_of_mayUse {s : State} {a n : Nat} {u : VUse} (h : s.mayUse a n u) : s.spCheck a n u = .ok () := by
  obtain ⟨⟨h1, h2⟩, h3⟩ := h
  have e : (s.k.priv || s.discipline (vaultOf a) u) = true := by rcases h2 with h2 | h2 <;> simp [h2]
  have f : (!s.k.priv || !s.testingVault (vaultOf a)) = true := by
    cases hp : s.k.priv
    · rfl
    · simp [h3 hp]
  unfold State.spCheck; rw [h1, e, f]; rfl

/-- R134, R243: the reading of a signature entry, as effects, is `signed`. -/
theorem applyAll_signEffects (s : State) (r : Region) : applyAll s (s.signEffects r) = s.signed r := by
  unfold State.signEffects State.signed
  cases r.check with
  | false => rfl
  | true =>
    rw [if_pos rfl, if_pos rfl]
    cases s.page .ls s.k.jobtag (s.signatureVa r) .read 0 <;> rfl

/-- R113, R124, R125: a boundary instruction whose checks pass and whose region may commit performs, and the region that follows opens. -/
theorem settle_boundary {s : State} {checks : Except Issue Unit} {f : State → Except Issue (List Effect)} {es : List Effect} (hr : s.boundaryReady)
    (hc : s.seq.perform = none → checks = .ok ()) (hf : f s.performing = .ok es) : s.settle (s.boundaryIssue checks f) = .next (s.bounded es) := by
  unfold State.boundaryIssue State.bounded
  unfold State.performing at hf
  cases hp : s.seq.perform with
  | some o =>
    rw [hp] at hf
    simp only at hf
    simp [hf]
  | none =>
    rw [hp] at hf
    have hc := hc hp
    have hr := hr hp
    cases hg : s.rgn with
    | none =>
      rw [hg] at hf
      simp only at hf
      simp [hc, hf]
    | some r =>
      rw [hg] at hf
      simp only at hf
      have ha : ∀ es, applyAll s (s.signEffects r ++ es) = applyAll (s.signed r) es := fun es => by
        rw [applyAll_append, applyAll_signEffects]
      simp [hc, hr r hg, hf, ha]

/-- A boundary instruction that cannot perform yet, with its region closed or none open, stalls and begins again. -/
theorem settle_boundary_cause {s : State} {checks : Except Issue Unit} {f : State → Except Issue (List Effect)} {c : Cause}
    (hp : s.seq.perform = none) (hc : checks = .error (.trap { cause := c })) : s.settle (s.boundaryIssue checks f) = s.raises c := by
  unfold State.boundaryIssue
  rw [hp, hc]
  cases s.rgn <;> rfl

end Sys2Proof.Machine
end

