-- ==== Sys2Proof/Laws/Invariant.lean ====
section
/-! SUPPORT. Each shared operation keeps the invariant: what lands, traces and records, commits and discards, the causes, and the effects
of an issue. -/

namespace Sys2Proof.Machine

/-- The invariant speaks of eight parts of the state and of nothing else. -/
theorem State.Inv.of_eq {s t : State} (h : s.Inv) (e : t.hbm = s.hbm ∧ t.sp = s.sp ∧ t.regs.s = s.regs.s ∧ t.regs.p = s.regs.p ∧ t.regs.y = s.regs.y
    ∧ t.k.status = s.k.status ∧ t.k.cause = s.k.cause ∧ t.k.mring = s.k.mring) : t.Inv := by
  obtain ⟨e1, e2, e3, e4, e5, e6, e7, e8⟩ := e
  exact ⟨e1 ▸ h.hbm, e2 ▸ h.sp, e3 ▸ h.s0, e4 ▸ h.p0, e5 ▸ h.pol, e6 ▸ h.status, e7 ▸ h.cause, e8 ▸ h.mring⟩

/-! ## The state registers -/

theorem State.Inv.setStatus {s : State} (h : s.Inv) (f : Flags) : (s.setStatus f).Inv where
  hbm := h.hbm
  sp := h.sp
  s0 := h.s0
  p0 := h.p0
  pol := h.pol
  status := by
    show (setFlags s.k.status f) &&& ~~~0x3FF#32 = 0
    simp only [setFlags, statusMask]; rw [BitVec.and_assoc]; simp
  cause := h.cause
  mring := h.mring

theorem List.head?_set_pos {α : Type} (l : List α) (n : Nat) (x : α) (h : 0 < n) : (l.set n x).head? = l.head? := by
  cases l with
  | nil => rfl
  | cons a l => cases n with
    | zero => omega
    | succ n => rfl

theorem and_mask (v m : BitVec 32) : (v &&& m) &&& ~~~m = 0 := by rw [BitVec.and_assoc]; simp

theorem and_mask16 (v m : BitVec 16) : (v &&& m) &&& ~~~m = 0 := by rw [BitVec.and_assoc]; simp

/-- A write of a state register leaves STATUS, CAUSE and MRING as they were, or with their reserved bits zero. -/
theorem KRegs.set_fields (k : KRegs) (n : Nat) (v : DWord) :
    ((k.set n v).status = k.status ∨ ∃ x, (k.set n v).status = x &&& 0x3FF#32)
    ∧ ((k.set n v).cause = k.cause ∨ ∃ x, (k.set n v).cause = x &&& 0xCFFF#16)
    ∧ ((k.set n v).mring = k.mring ∨ ∃ x, (k.set n v).mring = x &&& 0x1FF#16) := by
  unfold KRegs.set
  split
  case h_19 => split <;> exact ⟨.inl rfl, .inl rfl, .inl rfl⟩
  case h_8 => exact ⟨.inl rfl, .inr ⟨_, rfl⟩, .inl rfl⟩
  case h_15 => exact ⟨.inr ⟨_, rfl⟩, .inl rfl, .inl rfl⟩
  case h_16 => exact ⟨.inl rfl, .inl rfl, .inr ⟨_, rfl⟩⟩
  all_goals exact ⟨.inl rfl, .inl rfl, .inl rfl⟩

theorem State.Inv.setK {s : State} (h : s.Inv) (n : Nat) (v : DWord) : (s.setK n v).Inv := by
  unfold State.setK
  split
  · refine ⟨h.hbm, h.sp, h.s0, h.p0, ?_, h.status, h.cause, h.mring⟩
    intro y hy
    rcases List.mem_or_eq_of_mem_set hy with hy | rfl
    · exact h.pol y hy
    · exact and_mask _ _
  · split
    · refine ⟨h.hbm, h.sp, ?_, h.p0, h.pol, h.status, h.cause, h.mring⟩
      show (s.regs.s.set _ v).head? = some 0
      rw [List.head?_set_pos _ _ _ (by omega)]; exact h.s0
    · obtain ⟨h1, h2, h3⟩ := KRegs.set_fields s.k n v
      refine ⟨h.hbm, h.sp, h.s0, h.p0, h.pol, ?_, ?_, ?_⟩
      · rcases h1 with e | ⟨x, e⟩
        · show (s.k.set n v).status &&& _ = 0; rw [e]; exact h.status
        · show (s.k.set n v).status &&& _ = 0; rw [e]; exact and_mask _ _
      · rcases h2 with e | ⟨x, e⟩
        · show (s.k.set n v).cause &&& _ = 0; rw [e]; exact h.cause
        · show (s.k.set n v).cause &&& _ = 0; rw [e]; exact and_mask16 _ _
      · rcases h3 with e | ⟨x, e⟩
        · show (s.k.set n v).mring &&& _ = 0; rw [e]; exact h.mring
        · show (s.k.set n v).mring &&& _ = 0; rw [e]; exact and_mask16 _ _

/-! ## Registers -/

theorem Regs.writeS_head (r : Regs) (sup : Bool) (n : Nat) (v : DWord) : (r.writeS sup n v).s.head? = r.s.head? := by
  unfold Regs.writeS
  split
  · rfl
  · split
    · rfl
    · exact List.head?_set_pos _ _ _ (by omega)

theorem Regs.writeS_rest (r : Regs) (sup : Bool) (n : Nat) (v : DWord) : (r.writeS sup n v).p = r.p ∧ (r.writeS sup n v).y = r.y := by
  unfold Regs.writeS; split
  · exact ⟨rfl, rfl⟩
  · split <;> exact ⟨rfl, rfl⟩

theorem Regs.writeP_bit0 (r : Regs) (n : Nat) (b : Bool) (h : r.p.getLsbD 0 = true) : (r.writeP n b).p.getLsbD 0 = true := by
  unfold Regs.writeP
  split
  · exact h
  · have e : (BitVec.twoPow 16 n).getLsbD 0 = false := by
      rw [BitVec.getLsbD_twoPow]; simp; omega
    cases b
    · simp only [Bool.false_eq_true, if_false, BitVec.getLsbD_and, BitVec.getLsbD_not, h, e]; rfl
    · simp only [if_true, BitVec.getLsbD_or, h, e]; rfl

/-- R54: a landing keeps S0, P0 and the reserved bits. -/
theorem State.Inv.land {s : State} (h : s.Inv) (f : InFlight) : (s.land f).Inv := by
  unfold State.land
  split
  case h_1 d v _ =>
    cases d with
    | reg n =>
      refine ⟨h.hbm, h.sp, ?_, ?_, ?_, h.status, h.cause, h.mring⟩
      · show (s.regs.writeS f.sup n v).s.head? = some 0; rw [Regs.writeS_head]; exact h.s0
      · show (s.regs.writeS f.sup n v).p.getLsbD 0 = true; rw [(Regs.writeS_rest ..).1]; exact h.p0
      · show ∀ y ∈ (s.regs.writeS f.sup n v).y, _; rw [(Regs.writeS_rest ..).2]; exact h.pol
    | queue => exact ⟨h.hbm, h.sp, h.s0, h.p0, h.pol, h.status, h.cause, h.mring⟩
  case h_2 d v l _ => cases d <;> exact ⟨h.hbm, h.sp, h.s0, h.p0, h.pol, h.status, h.cause, h.mring⟩
  case h_3 p b _ =>
    refine ⟨h.hbm, h.sp, ?_, Regs.writeP_bit0 _ p b h.p0, ?_, h.status, h.cause, h.mring⟩
    · show (s.regs.writeP p b).s.head? = some 0; unfold Regs.writeP; split <;> exact h.s0
    · show ∀ y ∈ (s.regs.writeP p b).y, _; unfold Regs.writeP; split <;> exact h.pol
  case h_6 k v _ => exact h.setK k v
  case h_7 a v _ => exact ⟨h.hbm, Memory.wf_write _ _ h.sp, h.s0, h.p0, h.pol, h.status, h.cause, h.mring⟩
  case h_8 b g v _ => cases b <;> exact ⟨h.hbm, h.sp, h.s0, h.p0, h.pol, h.status, h.cause, h.mring⟩
  case h_9 b _ => cases b <;> exact ⟨h.hbm, h.sp, h.s0, h.p0, h.pol, h.status, h.cause, h.mring⟩
  all_goals exact ⟨h.hbm, h.sp, h.s0, h.p0, h.pol, h.status, h.cause, h.mring⟩

theorem State.Inv.arrive {s : State} (h : s.Inv) (id : Nat) (a : Arrived) (f : Flags) : (s.arrive id a f).Inv := by
  unfold State.arrive
  split
  · exact h
  · rename_i w _
    have hs := h.setStatus f
    cases a with
    | scalar v =>
      simp only [State.arriveS]
      split
      · rename_i n _
        refine ⟨hs.hbm, hs.sp, ?_, ?_, ?_, hs.status, hs.cause, hs.mring⟩
        · show (s.regs.writeS w.sup n v).s.head? = some 0; rw [Regs.writeS_head]; exact h.s0
        · show (s.regs.writeS w.sup n v).p.getLsbD 0 = true; rw [(Regs.writeS_rest ..).1]; exact h.p0
        · show ∀ y ∈ (s.regs.writeS w.sup n v).y, _; rw [(Regs.writeS_rest ..).2]; exact h.pol
      · exact ⟨hs.hbm, hs.sp, hs.s0, hs.p0, hs.pol, hs.status, hs.cause, hs.mring⟩
    | vector v =>
      simp only [State.arriveV]
      split <;> exact ⟨hs.hbm, hs.sp, hs.s0, hs.p0, hs.pol, hs.status, hs.cause, hs.mring⟩
    | _ => exact ⟨hs.hbm, hs.sp, hs.s0, hs.p0, hs.pol, hs.status, hs.cause, hs.mring⟩

/-! ## Traces, records, packets -/

theorem State.Inv.writeHbm {s : State} (h : s.Inv) (pa : Nat) (bs : List Byte) : (s.writeHbm pa bs).Inv :=
  ⟨Memory.wf_write _ _ h.hbm, h.sp, h.s0, h.p0, h.pol, h.status, h.cause, h.mring⟩

theorem State.Inv.flushTrace {s : State} (h : s.Inv) (n : Nat) : (s.flushTrace n).Inv := by
  induction n generalizing s with
  | zero => exact h
  | succ n ih =>
    unfold State.flushTrace
    split
    · exact h
    · split
      · exact ⟨h.hbm, h.sp, h.s0, h.p0, h.pol, h.status, h.cause, h.mring⟩
      · have w := h.writeHbm (s.hst.trbase.toNat + s.hst.trwr.toNat)
        exact ih ⟨(w _).hbm, h.sp, h.s0, h.p0, h.pol, h.status, h.cause, h.mring⟩

theorem State.Inv.traceAt {s : State} (h : s.Inv) (n : BitVec 48) (kind detail : Nat) (w1 : DWord) : (s.traceAt n kind detail w1).Inv := by
  unfold State.traceAt
  split
  · apply State.Inv.flushTrace
    exact ⟨h.hbm, h.sp, h.s0, h.p0, h.pol, h.status, h.cause, h.mring⟩
  · exact h

theorem State.Inv.trace {s : State} (h : s.Inv) (kind detail : Nat) (w1 : DWord) : (s.trace kind detail w1).Inv := h.traceAt ..

theorem State.Inv.traceRaw {s : State} (h : s.Inv) (l : List (DWord × DWord)) : (s.traceRaw l).Inv := by
  unfold State.traceRaw
  split
  · apply State.Inv.flushTrace
    exact ⟨h.hbm, h.sp, h.s0, h.p0, h.pol, h.status, h.cause, h.mring⟩
  · exact h

theorem State.Inv.errorRecord {s : State} (h : s.Inv) (kind : Nat) (job cause : BitVec 16) (queue uclass unit_ : Nat) (epc eva : VAddr) (einfo : DWord)
    (windowed : Bool) (named : BitVec 14) (csn : Option (BitVec 48)) :
    (s.errorRecord kind job cause queue uclass unit_ epc eva einfo windowed named csn).Inv := by
  unfold State.errorRecord
  dsimp only
  split
  · exact ⟨h.hbm, h.sp, h.s0, h.p0, h.pol, h.status, h.cause, h.mring⟩
  · exact ⟨Memory.wf_write _ _ h.hbm, h.sp, h.s0, h.p0, h.pol, h.status, h.cause, h.mring⟩

theorem State.Inv.hop {s : State} (h : s.Inv) (d lane : Nat) (p : Packet) (held : Option (Nat × Nat)) : (s.hop d lane p held).Inv :=
  ⟨h.hbm, h.sp, h.s0, h.p0, h.pol, h.status, h.cause, h.mring⟩

/-- A step repeated over a list keeps what one step keeps. -/
theorem State.Inv.foldl {α : Type} {f : State → α → State} (hf : ∀ s x, State.Inv s → State.Inv (f s x)) (l : List α) {s : State} (h : s.Inv) :
    State.Inv (l.foldl f s) := by
  induction l generalizing s with
  | nil => exact h
  | cons x l ih => exact ih (hf s x h)

theorem State.Inv.announce {s : State} (h : s.Inv) (job : BitVec 16) (p : Presence) : (s.announce job p).Inv := by
  unfold State.announce
  split
  · exact h
  · exact State.Inv.foldl (fun s d hs => hs.hop d 3 _ none) _ ⟨h.hbm, h.sp, h.s0, h.p0, h.pol, h.status, h.cause, h.mring⟩

/-! ## Regions and causes -/

theorem State.Inv.commitEntry {s : State} (h : s.Inv) (e : BufEntry) : (s.commitEntry e).Inv := by
  unfold State.commitEntry
  split <;> exact ⟨h.hbm, h.sp, h.s0, h.p0, h.pol, h.status, h.cause, h.mring⟩

theorem State.Inv.commitRegion {s : State} (h : s.Inv) : s.commitRegion.Inv := by
  unfold State.commitRegion
  split
  · exact h
  · rename_i r _
    have h2 : State.Inv ((s.buf.filter fun e => e.state == .opened).foldl State.commitEntry
        { s with err := s.serial r, buf := s.buf.filter (fun e => e.state != .opened) }) :=
      State.Inv.foldl (fun s e hs => hs.commitEntry e) _ ⟨h.hbm, h.sp, h.s0, h.p0, h.pol, h.status, h.cause, h.mring⟩
    exact ⟨h2.hbm, h2.sp, h2.s0, h2.p0, h2.pol, h2.status, h2.cause, h2.mring⟩

theorem State.Inv.dropBranches {s : State} (h : s.Inv) : s.dropBranches.Inv :=
  State.Inv.foldl (fun _ _ hs => hs.traceAt ..) _ ⟨h.hbm, h.sp, h.s0, h.p0, h.pol, h.status, h.cause, h.mring⟩

theorem State.Inv.dropRegion {s : State} (h : s.Inv) (r : Region) : (s.dropRegion r).Inv :=
  have h := h.dropBranches
  ⟨h.hbm, h.sp, h.s0, h.p0, h.pol, h.status, h.cause, h.mring⟩

theorem State.Inv.enter {s : State} (h : s.Inv) (cause : BitVec 16) (epc eva : VAddr) (einfo : DWord) (hold : Hold) (r : Option Region) :
    (s.enter cause epc eva einfo hold r).Inv :=
  have h := h.dropBranches
  ⟨h.hbm, h.sp, h.s0, h.p0, h.pol, h.status, and_mask16 _ _, h.mring⟩

theorem State.Inv.supervisorFault {s : State} (h : s.Inv) (cause : BitVec 16) (eva : VAddr) (einfo : DWord) : (s.supervisorFault cause eva einfo).Inv := by
  have h1 := h.errorRecord 5 s.k.jobtag cause (s.sch.serving.getD 0) (bits einfo 0 4) (bits einfo 8 8) s.seq.pc eva einfo false 0 none
  have h2 := State.Inv.foldl (f := fun s j => s.announce j .service) (fun s j hs => hs.announce j .service)
    (s.errorRecord 5 s.k.jobtag cause (s.sch.serving.getD 0) (bits einfo 0 4) (bits einfo 8 8) s.seq.pc eva einfo false).jobsHere h1
  exact ⟨h2.hbm, h2.sp, h2.s0, h2.p0, h2.pol, h2.status, h2.cause, h2.mring⟩

/-- Only `seq` differs. -/
theorem State.Inv.withSeq {s : State} (h : s.Inv) (q : Seq) : State.Inv { s with seq := q } :=
  ⟨h.hbm, h.sp, h.s0, h.p0, h.pol, h.status, h.cause, h.mring⟩

/-- Only `pipe` differs. -/
theorem State.Inv.withPipe {s : State} (h : s.Inv) (p : Pipe) : State.Inv { s with pipe := p } :=
  ⟨h.hbm, h.sp, h.s0, h.p0, h.pol, h.status, h.cause, h.mring⟩

/-- R398: taking a cause keeps the invariant. -/
theorem State.Inv.takeTrap {s : State} (h : s.Inv) (t : Trap) : (s.takeTrap t).Inv := by
  unfold State.takeTrap
  dsimp only
  split
  · exact (h.supervisorFault _ _ _).withSeq _
  · apply State.Inv.withSeq
    split
    · rename_i r _
      generalize (if decide (t.cause.class_ ≠ 2) && decide (t.cause ≠ Cause.stateLoss) && decide ((s.dropRegion r).k.retrace < (s.dropRegion r).k.rcount) then Cause.noProgress.code
        else t.cause.code) = code
      generalize hx : (s.dropRegion r).traceDiscard code r.snap.entry = d
      have hd : d.Inv := hx ▸ (h.dropRegion r).trace _ _ _
      have he (e : Errs) : State.Inv { d with err := e } := ⟨hd.hbm, hd.sp, hd.s0, hd.p0, hd.pol, hd.status, hd.cause, hd.mring⟩
      split
      · exact (hd.errorRecord ..).enter ..
      · (repeat' split) <;> first | exact hd | exact he _ | exact hd.enter .. | exact (he _).enter ..
    · split
      · exact h.enter ..
      · have hc : State.Inv (if t.cause.class_ = 1 then { s with err := s.untested t (causeWord 2 t.cause.code) s.seq.pc (s.einfoOf t) } else s) := by
          split
          · exact ⟨h.hbm, h.sp, h.s0, h.p0, h.pol, h.status, h.cause, h.mring⟩
          · exact h
        have hx := (hc.errorRecord 0 s.k.jobtag (causeWord 2 t.cause.code) s.curQueue t.uclass t.unit s.seq.pc t.eva (s.einfoOf t) false t.dims none).enter
          (causeWord 2 t.cause.code) s.seq.pc t.eva (s.einfoOf t) .fatal none
        exact hx.withPipe _

/-! ## What an issue does -/

theorem State.Inv.effect {s : State} (h : s.Inv) (e : Effect) : (e.apply s).Inv := by
  cases e
  case commit => exact h.commitRegion
  case status f => exact h.setStatus f
  case trace kd d w => exact h.trace kd d w
  case traceRaw l => exact h.traceRaw l
  case arrive id a f => exact h.arrive id a f
  case sp a bs => exact ⟨h.hbm, Memory.wf_write _ _ h.sp, h.s0, h.p0, h.pol, h.status, h.cause, h.mring⟩
  case hbm pa bs => exact h.writeHbm pa bs
  case record => exact h.errorRecord ..
  all_goals exact ⟨h.hbm, h.sp, h.s0, h.p0, h.pol, h.status, h.cause, h.mring⟩

theorem State.Inv.applyAll {s : State} (h : s.Inv) (es : List Effect) : State.Inv (applyAll s es) := State.Inv.foldl (fun _ e hs => hs.effect e) es h

/-- Whatever an instruction decides at its issue, the state that it answers keeps the invariant. -/
theorem State.Inv.settle {s t : State} (h : s.Inv) (i : Issue) (e : s.settle i = .next t) : t.Inv := by
  cases i with
  | done es => simp only [settle_done, Host.Outcome.next.injEq] at e; exact e ▸ h.applyAll es
  | stall c => simp only [settle_stall, Host.Outcome.next.injEq] at e; exact e ▸ h.withSeq _
  | pause es c => simp only [State.settle, Host.Outcome.next.injEq] at e; exact e ▸ (h.applyAll es).withSeq _
  | trap c => simp only [settle_trap, Host.Outcome.next.injEq] at e; exact e ▸ h.takeTrap c
  | halt f => cases e

end Sys2Proof.Machine
end

