-- ==== Sys2Proof/Tests/Slice0.lean ====
section
/-! SUPPORT. Tests: words written out from the spec's encodings, terms that WellFormed refuses, one step of instructions against results
worked out from the spec, and for every statement with hypotheses a state that meets them. -/

namespace Sys2Proof.Tests
open Sys2Proof Sys2Proof.Machine

set_option Elab.async false

/-! ## Decoding. Each word is the table's fixed bits (spec/01_bundles.md, R20 to R32) with its operand fields added by hand. -/

def reads (l : List (Nat × Instr)) : Bool :=
  l.all fun p => match decodeSlot p.1 .none with | .ok s => s == ⟨0, false, p.2⟩ | .error _ => false

def refuses (l : List Nat) : Bool := l.all fun w => match decodeSlot w .none with | .ok _ => false | .error _ => true

/-- What the four slots of a bundle hold. -/
def slotsOf (w0 w1 w2 w3 : Nat) : List (Option Slot) :=
  match decodeBundle w0 w1 w2 w3 with
  | .badMode => []
  | .slots l => l.map fun x => match x with | some (.ok s) => some s | _ => none

theorem test_words_scalar_integer_1 : reads
    [(0x00000000, .nop),
     (0x04527303, .add (.reg 5) (.reg 9) (.q 3) .z64),
     (0x0452730B, .sub (.reg 5) (.reg 9) (.q 3) .z64),
     (0x04527313, .mul (.reg 5) (.reg 9) (.q 3) .z64),
     (0x0452731B, .mulh (.reg 5) (.reg 9) (.q 3) .z64),
     (0x04527323, .and (.reg 5) (.reg 9) (.q 3) .z64),
     (0x0452732B, .or (.reg 5) (.reg 9) (.q 3) .z64),
     (0x04527333, .xor (.reg 5) (.reg 9) (.q 3) .z64),
     (0x0452733B, .andn (.reg 5) (.reg 9) (.q 3) .z64),
     (0x04527343, .shl (.reg 5) (.reg 9) (.q 3) .z64),
     (0x0452734B, .shr (.reg 5) (.reg 9) (.q 3) .z64),
     (0x04527353, .sar (.reg 5) (.reg 9) (.q 3) .z64),
     (0x0452735B, .rot (.reg 5) (.reg 9) (.q 3) .z64),
     (0x04527363, .min (.reg 5) (.reg 9) (.q 3) .z64),
     (0x0452736B, .max (.reg 5) (.reg 9) (.q 3) .z64),
     (0x04527373, .div (.reg 5) (.reg 9) (.q 3) .z64),
     (0x0452737B, .rem (.reg 5) (.reg 9) (.q 3) .z64),
     (0x04524083, .clz (.reg 5) (.reg 9) .z64),
     (0x0452408B, .popc (.reg 5) (.reg 9) .z64),
     (0x04524093, .brev (.reg 5) (.reg 9) .z64),
     (0x08527FFB, .addi (.reg 5) (.reg 9) (-5)),
     (0x0C5247FB, .andi (.reg 5) (.reg 9) (-5)),
     (0x0C524FFB, .ori (.reg 5) (.reg 9) (-5)),
     (0x0C5257FB, .xori (.reg 5) (.reg 9) (-5))] = true := by decide +kernel

theorem test_words_scalar_integer_2 : reads
    [(0x0C525825, .shli (.reg 5) (.reg 9) 37),
     (0x0C526025, .shri (.reg 5) (.reg 9) 37),
     (0x0C526825, .sari (.reg 5) (.reg 9) 37),
     (0x0C527025, .roti (.reg 5) (.reg 9) 37),
     (0x105FFFFB, .movi (.reg 5) (-5)),
     (0x145CBEEF, .movk 5 3 0xBEEF),
     (0x18524C4C, .bext (.reg 5) (.reg 9) 12 20),
     (0x18524C4D, .bexs (.reg 5) (.reg 9) 12 20),
     (0x18724C4E, .bins 7 (.reg 9) 12 20),
     (0x1C5273FF, .lea (.reg 5) (.reg 9) (.q 3) 3 (-1))] = true := by decide +kernel

theorem test_words_predicates_and_floats_1 : reads
    [(0x22B27304, .cmpEq .or 11 (.reg 9) (.q 3) .f32),
     (0x22B2730C, .cmpNe .or 11 (.reg 9) (.q 3) .f32),
     (0x22B27314, .cmpLt .or 11 (.reg 9) (.q 3) .f32),
     (0x22B2731C, .cmpLe .or 11 (.reg 9) (.q 3) .f32),
     (0x22B27324, .cmpGt .or 11 (.reg 9) (.q 3) .f32),
     (0x22B2732C, .cmpGe .or 11 (.reg 9) (.q 3) .f32),
     (0x22B27334, .cmpUn .or 11 (.reg 9) (.q 3)),
     (0x22B2733C, .cmpOrd .or 11 (.reg 9) (.q 3)),
     (0x26B245FB, .cmpiEq .or 11 (.reg 9) (-5) .i32),
     (0x26B24DFB, .cmpiNe .or 11 (.reg 9) (-5) .i32),
     (0x26B255FB, .cmpiLt .or 11 (.reg 9) (-5) .i32),
     (0x26B25DFB, .cmpiLe .or 11 (.reg 9) (-5) .i32),
     (0x26B265FB, .cmpiGt .or 11 (.reg 9) (-5) .i32),
     (0x26B26DFB, .cmpiGe .or 11 (.reg 9) (-5) .i32),
     (0x28710C00, .pand 7 4 12),
     (0x28710C08, .por 7 4 12),
     (0x28710C10, .pxor 7 4 12),
     (0x28710C18, .pandn 7 4 12),
     (0x28710020, .pnot 7 4),
     (0x28710028, .pmov 7 4),
     (0x28700030, .pset 7),
     (0x28700038, .pclr 7),
     (0x2CC2CA18, .sel (.reg 12) 1 true (.reg 11) (.reg 10)),
     (0x30527304, .sfadd (.reg 5) (.reg 9) (.q 3))] = true := by decide +kernel

theorem test_words_predicates_and_floats_2 : reads
    [(0x3052730C, .sfsub (.reg 5) (.reg 9) (.q 3)),
     (0x30527314, .sfmul (.reg 5) (.reg 9) (.q 3)),
     (0x3072731C, .sfma 7 (.reg 9) (.q 3)),
     (0x30527324, .sfmin (.reg 5) (.reg 9) (.q 3)),
     (0x3052732C, .sfmax (.reg 5) (.reg 9) (.q 3)),
     (0x30524634, .sfcvt (.reg 5) (.reg 9) 6 .f32),
     (0x3052403C, .sfabs (.reg 5) (.reg 9)),
     (0x30524044, .sfneg (.reg 5) (.reg 9))] = true := by decide +kernel

theorem test_words_branches : reads
    [(0x34510700, .getk (.reg 5) 0x107),
     (0x35410308, .setk 0x103 (.reg 20)),
     (0x3850C000, .lidx (.reg 5) 3),
     (0x38614008, .lcnt (.reg 6) 5),
     (0x413FFFFD, .bra 4 true (-3)),
     (0x47FFFFF8, .call (-8)),
     (0x48024000, .bri (.reg 9)),
     (0x48524008, .calli (.reg 5) (.reg 9)),
     (0x48024010, .ret (.reg 9)),
     (0x4C900007, .loop (.reg 9) 7),
     (0x50004005, .loopi 4 5),
     (0x54000000, .leave),
     (0x58000006, .brmNone 6),
     (0x591FFFFF, .brmAll (-1)),
     (0x5A0FFFFF, .brmAny 1048575),
     (0x5C015500, .trap 0x155),
     (0x5C000908, .delay 9),
     (0x5C000210, .brk 2)] = true := by decide +kernel

theorem test_words_memory_1 : reads
    [(0x60524FFA, .ld (.reg 5) (.reg 9) (-1) 1 .i64),
     (0x6712501F, .st (.q 1) (.reg 9) 3 2 .e5),
     (0x6852730B, .amoAdd (.reg 5) (.reg 9) (.q 3) 5 true),
     (0x6852731B, .amoSmin (.reg 5) (.reg 9) (.q 3) 5 true),
     (0x6852732B, .amoSmax (.reg 5) (.reg 9) (.q 3) 5 true),
     (0x6852733B, .amoZmin (.reg 5) (.reg 9) (.q 3) 5 true),
     (0x6852734B, .amoZmax (.reg 5) (.reg 9) (.q 3) 5 true),
     (0x6852735B, .amoAnd (.reg 5) (.reg 9) (.q 3) 5 true),
     (0x6852736B, .amoOr (.reg 5) (.reg 9) (.q 3) 5 true),
     (0x6852737B, .amoXor (.reg 5) (.reg 9) (.q 3) 5 true),
     (0x6852738B, .amoSwap (.reg 5) (.reg 9) (.q 3) 5 true),
     (0x68524A9B, .amoCas (.reg 5) (.reg 9) 10 5 true),
     (0x685273AA, .amoFadd (.reg 5) (.reg 9) (.q 3) 5),
     (0x685273BA, .amoFmin (.reg 5) (.reg 9) (.q 3) 5),
     (0x685273CA, .amoFmax (.reg 5) (.reg 9) (.q 3) 5),
     (0x6C02730B, .redAdd (.reg 9) (.q 3) 5 true),
     (0x6C02731B, .redSmin (.reg 9) (.q 3) 5 true),
     (0x6C02732B, .redSmax (.reg 9) (.q 3) 5 true),
     (0x6C02733B, .redZmin (.reg 9) (.q 3) 5 true),
     (0x6C02734B, .redZmax (.reg 9) (.q 3) 5 true),
     (0x6C02735B, .redAnd (.reg 9) (.q 3) 5 true),
     (0x6C02736B, .redOr (.reg 9) (.q 3) 5 true),
     (0x6C02737B, .redXor (.reg 9) (.q 3) 5 true),
     (0x6C02738B, .redSwap (.reg 9) (.q 3) 5 true)] = true := by decide +kernel

theorem test_words_memory_2 : reads
    [(0x6C024A9B, .redCas (.reg 9) 10 5 true),
     (0x6C0273AA, .redFadd (.reg 9) (.q 3) 5),
     (0x6C0273BA, .redFmin (.reg 9) (.q 3) 5),
     (0x6C0273CA, .redFmax (.reg 9) (.q 3) 5),
     (0x70527334, .ldx (.reg 5) (.reg 9) (.q 3) 6 .f32),
     (0x70527371, .stx (.reg 5) (.reg 9) (.q 3) 6 .z32),
     (0x76000600, .fence 0x8001 2),
     (0x7402730D, .pref (.reg 9) (.q 3) 5),
     (0x74027315, .pin (.reg 9) (.q 3) 5),
     (0x7402731D, .unpin (.reg 9) (.q 3) 5),
     (0x74027325, .flush (.reg 9) (.q 3) 5),
     (0x7402732D, .inval (.reg 9) (.q 3) 5)] = true := by decide +kernel

theorem test_words_vector_arithmetic_1 : reads
    [(0x78527305, .vadd (.reg 5) (.reg 9) (.q 3) .bf),
     (0x7852730D, .vsub (.reg 5) (.reg 9) (.q 3) .bf),
     (0x78527315, .vmul (.reg 5) (.reg 9) (.q 3) .bf),
     (0x7872731D, .vfma 7 (.reg 9) (.q 3) .bf),
     (0x78727325, .vfms 7 (.reg 9) (.q 3) .bf),
     (0x7852732D, .vmin (.reg 5) (.reg 9) (.q 3) .bf),
     (0x78527335, .vmax (.reg 5) (.reg 9) (.q 3) .bf),
     (0x7852403D, .vabs (.reg 5) (.reg 9) .bf),
     (0x78524045, .vneg (.reg 5) (.reg 9) .bf),
     (0x7852734D, .vcpys (.reg 5) (.reg 9) (.q 3) .bf),
     (0x7C524005, .vrcp (.reg 5) (.reg 9) .bf),
     (0x7C52400D, .vrsq (.reg 5) (.reg 9) .bf),
     (0x7C524015, .vsqrt (.reg 5) (.reg 9) .bf),
     (0x7C52401D, .vexp2 (.reg 5) (.reg 9) .bf),
     (0x7C524025, .vlog2 (.reg 5) (.reg 9) .bf),
     (0x7C52402D, .vflr (.reg 5) (.reg 9) .bf),
     (0x7C524035, .vrnd (.reg 5) (.reg 9) .bf),
     (0x7C52733D, .vdiv (.reg 5) (.reg 9) (.q 3) .bf),
     (0x80527301, .viadd (.reg 5) (.reg 9) (.q 3) false),
     (0x80527309, .visub (.reg 5) (.reg 9) (.q 3) false),
     (0x80527311, .vimul (.reg 5) (.reg 9) (.q 3) false),
     (0x80527319, .vand (.reg 5) (.reg 9) (.q 3) false),
     (0x80527321, .vor (.reg 5) (.reg 9) (.q 3) false),
     (0x80527329, .vxor (.reg 5) (.reg 9) (.q 3) false)] = true := by decide +kernel

theorem test_words_vector_arithmetic_2 : reads
    [(0x80527331, .vshl (.reg 5) (.reg 9) (.q 3) false),
     (0x80527339, .vshr (.reg 5) (.reg 9) (.q 3) false),
     (0x80527341, .vimin (.reg 5) (.reg 9) (.q 3) false),
     (0x80527349, .vimax (.reg 5) (.reg 9) (.q 3) false),
     (0x80524050, .viabs (.reg 5) (.reg 9)),
     (0x84027301, .vcmpeq (.reg 9) (.q 3) .z32),
     (0x84027309, .vcmpne (.reg 9) (.q 3) .z32),
     (0x84027311, .vcmplt (.reg 9) (.q 3) .z32),
     (0x84027319, .vcmple (.reg 9) (.q 3) .z32),
     (0x84027321, .vcmpgt (.reg 9) (.q 3) .z32),
     (0x84027329, .vcmpge (.reg 9) (.q 3) .z32),
     (0x84027335, .vcmpun (.reg 9) (.q 3) .bf),
     (0x84527339, .vsel (.reg 5) (.reg 9) (.q 3) .z32)] = true := by decide +kernel

theorem test_words_vector_moves_1 : reads
    [(0x887140A0, .vcvt (.reg 7) (.reg 5) 0 2 2 none),
     (0x8C524005, .vxsum (.reg 5) (.reg 9) .bf),
     (0x8C52400D, .vscan (.reg 5) (.reg 9) .bf),
     (0x8C524015, .vrmax (.reg 5) (.reg 9) .bf),
     (0x8C52401D, .vrmin (.reg 5) (.reg 9) .bf),
     (0x8C524025, .vargmax (.reg 5) (.reg 9) .bf),
     (0x8C524029, .visum (.reg 5) (.reg 9) false),
     (0x8C500030, .vpopm (.reg 5)),
     (0x90524006, .vbcst (.reg 5) (.reg 9) .w8),
     (0x9052730E, .vext (.reg 5) (.reg 9) (.q 3) .w8),
     (0x90727316, .vins 7 (.reg 9) (.q 3) .w8),
     (0x9052731E, .vrot (.reg 5) (.reg 9) (.q 3) .w8),
     (0x90527326, .vperm (.reg 5) (.reg 9) (.q 3) .w8),
     (0x9050002E, .viota (.reg 5) .w8),
     (0x94024000, .mpush (.reg 9)),
     (0x94000008, .minv),
     (0x94000010, .mpop),
     (0x94000018, .mall),
     (0x94500020, .mget (.reg 5)),
     (0x94024028, .mset (.reg 9)),
     (0x98527F60, .vld (.reg 5) (.reg 9) (-5)),
     (0x98527F68, .vldn (.reg 5) (.reg 9) (-5)),
     (0x98527F70, .vst (.reg 5) (.reg 9) (-5)),
     (0x98527F78, .vstn (.reg 5) (.reg 9) (-5))] = true := by decide +kernel

theorem test_words_vector_moves_2 : reads
    [(0x9C527306, .vgath (.reg 5) (.reg 9) (.q 3) true .w1),
     (0x9C527309, .vscat (.reg 5) (.reg 9) (.q 3) false .w2),
     (0x9C527310, .vlds (.reg 5) (.reg 9) (.q 3) .w4)] = true := by decide +kernel

theorem test_words_matrix : reads
    [(0xA0C44250, .mmac (.tile 3) (.pair 2) 4 (.reg 9) true),
     (0xA20A6CE8, .mmul .ring (.vec 5) 6 (.q 3) false),
     (0xA5800000, .mzero (.tile 6)),
     (0xA6224008, .mloadc .ring .bf (.reg 9)),
     (0xA5C0C010, .mdrain (.tile 7) (.reg 3)),
     (0xA4000018, .mwait),
     (0xA4504620, .mstat (.reg 5) true 6),
     (0xA492AE28, .manch (.reg 9) 10 46),
     (0xA85F0000, .txpi (.reg 5) true 7),
     (0xA8A90008, .txpo (.reg 10) true 1),
     (0xA8080010, .txpc true),
     (0xAC024000, .setf (.reg 9)),
     (0xAC500008, .getf (.reg 5))] = true := by decide +kernel

theorem test_words_exchange : reads
    [(0xB0C27300, .exch 3 (.reg 9) (.q 3) 0),
     (0xB0C27308, .exsb 3 (.reg 9) (.q 3) 0),
     (0xB0527311, .trav (.reg 5) (.reg 9) (.q 3) .bwd 0),
     (0xB4C27300, .exccFsum 3 (.reg 9) (.q 3) 0),
     (0xB4C27308, .exccIsum 3 (.reg 9) (.q 3) 0),
     (0xB4C27310, .exccLsum 3 (.reg 9) (.q 3) 0),
     (0xB4C27318, .exccFmax 3 (.reg 9) (.q 3) 0),
     (0xB4C27320, .exccFmin 3 (.reg 9) (.q 3) 0),
     (0xB4C27328, .exccImax 3 (.reg 9) (.q 3) 0),
     (0xB4C27330, .exccImin 3 (.reg 9) (.q 3) 0),
     (0xB4C27338, .exccBand 3 (.reg 9) (.q 3) 0),
     (0xB4C27340, .exccBor 3 (.reg 9) (.q 3) 0),
     (0xB8527396, .exmd (.reg 5) (.reg 9) (.q 3) (.excc 5) true 0),
     (0xBC527305, .mcast (.reg 5) (.reg 9) (.q 3) 5),
     (0xBC52730D, .mcasto (.reg 5) (.reg 9) (.q 3) 5),
     (0xBC027310, .probe (.reg 9) (.q 3)),
     (0xBC524018, .lstat (.reg 5) (.reg 9))] = true := by decide +kernel

theorem test_words_engines : reads
    [(0xC0024004, .cpyl (.reg 9) true),
     (0xC002400C, .cpy2 (.reg 9) true),
     (0xC0024014, .cpyw (.reg 9) true),
     (0xC002731C, .cpyx (.reg 9) (.q 3) true),
     (0xC4027302, .waita .ge (.reg 9) (.q 3)),
     (0xC452730D, .sigw (.reg 5) (.reg 9) (.q 3) 5),
     (0xC4024010, .bacq (.reg 9)),
     (0xC4024018, .brel (.reg 9)),
     (0xC4024020, .waite (.reg 9)),
     (0xC8027300, .gbind (.reg 9) (.q 3)),
     (0xC8324008, .gmask 3 (.reg 9)),
     (0xC8524010, .gstep (.reg 5) (.reg 9)),
     (0xC8500018, .gstat (.reg 5)),
     (0xCC528300, .sample (.reg 5) 10 3),
     (0xCC524008, .rand (.reg 5) (.reg 9)),
     (0xCC524010, .rands (.reg 5) (.reg 9))] = true := by decide +kernel

theorem test_words_regions_and_supervisor : reads
    [(0xD0027300, .rgn (.reg 9) (.q 3)),
     (0xD0000008, .cmt),
     (0xD0000010, .rend),
     (0xD0000018, .rabt),
     (0xD0500020, .rstat (.reg 5)),
     (0xD4024000, .bar (.reg 9)),
     (0xD4024008, .gsig (.reg 9)),
     (0xD4024010, .gwait (.reg 9)),
     (0xD8524000, .launch (.reg 5) (.reg 9)),
     (0xD8024008, .exit (.reg 9)),
     (0xD8000010, .yield),
     (0xDC000000, .rft),
     (0xDC527308, .shoot (.reg 5) (.reg 9) (.q 3)),
     (0xDC524010, .selft (.reg 5) (.reg 9)),
     (0xDC527318, .tlbp (.reg 5) (.reg 9) (.q 3)),
     (0xDC027320, .tlbi (.reg 9) (.q 3)),
     (0xDC024028, .qrst (.reg 9)),
     (0xDC027330, .ctxs (.reg 9) (.q 3))] = true := by decide +kernel

/-- The worked words of R21 to R29 and R46 (spec/01_bundles.md, 02_registers.md, 03_sequencer.md, 06_vector.md). -/
theorem test_words_of_the_spec : reads
    [(0x04213102, .add (.reg 2) (.reg 4) (.q 1) .i64),
     (0x107FFFFB, .movi (.reg 7) (-5)),
     (0x20108312, .cmpLt .set 1 (.reg 2) (.reg 3) .i64),
     (0x887140A0, .vcvt (.reg 7) (.reg 5) 0 2 2 none),
     (0x50004005, .loopi 4 5)] = true := by decide +kernel

/-- R15, R16: the spec's worked bundle: a header in guard mode, ADD to S50 under P3, VADD to V60 under !P2, and MOVI. -/
theorem test_bundle_of_the_spec : slotsOf 0xFCD0B000 0x04213102 0x78C04204 0x107FFFFB =
    [none, some ⟨3, false, .add (.reg 50) (.reg 4) (.q 1) .i64⟩, some ⟨2, true, .vadd (.reg 60) (.reg 1) (.reg 2) .f32⟩,
      some ⟨0, false, .movi (.reg 7) (-5)⟩] := by decide +kernel

/-- R17, R27: under a header in immediate mode (mode 01) the byte extends MOVI's immediate, and carries the operation of AMX (9, CAS) and
REDX (0, ADD). -/
theorem test_bundle_immediate : slotsOf (0xFC000001 + 0x01 * 2 ^ 18 + 0x90 * 2 ^ 10 + 0x00 * 2 ^ 2) (0x10000000 + 7 * 2 ^ 20 + 0x23456)
      (0x70000080 + 5 * 2 ^ 20 + 10 * 2 ^ 14 + 3 * 2 ^ 8 + 6 * 2 ^ 3 + 2) (0x700000C0 + 10 * 2 ^ 14 + 3 * 2 ^ 8 + 6 * 2 ^ 3) =
    [none, some ⟨0, false, .movi (.reg 7) 0x123456⟩, some ⟨0, false, .amx .cas (.reg 5) 10 (.reg 3) 6 .i64⟩,
      some ⟨0, false, .redx .add 10 (.reg 3) 6 .i32⟩] := by decide +kernel

/-- R15: modes 10 and 11 are illegal. -/
theorem test_bundle_bad_mode : slotsOf 0xFC000002 0 0 0 = [] ∧ slotsOf 0xFC000003 0 0 0 = [] := by decide

/-- R42: an unassigned major, an unassigned minor, a bit set in an unused field, a type that the major does not list, a destination above
the queue's code, AMX without a header, and an odd register for a pair. -/
theorem test_words_refused : refuses
    [0xE0000000, 0x040000F8, 0x04524183, 0x30527305, 0x07100000, 0x70528382, 0xCC02C000, 0x54000001, 0x4C900000, 0x28000040, 0xA0000000] = true := by
  decide +kernel

/-! ## WellFormed: one ill-formed term for each check, which the check refuses -/

theorem test_wf_accepts : (Instr.add (.reg 63) (.q 15) (.reg 0) .i32).wf = true ∧ (Instr.vadd (.reg 79) (.q 15) (.reg 79) .bf).wf = true
    ∧ (Instr.loopi 16383 1048575).wf = true ∧ (Instr.bext .queue (.reg 1) 0 64).wf = true := by decide

theorem test_wf_scalar_source : (Instr.add (.reg 1) (.reg 64) (.reg 0) .i32).wf = false ∧ (Instr.add (.reg 1) (.reg 2) (.q 16) .i32).wf = false := by decide
theorem test_wf_scalar_destination : (Instr.add (.reg 64) (.reg 1) (.reg 0) .i32).wf = false := by decide
theorem test_wf_vector_source : (Instr.vadd (.reg 1) (.reg 80) (.reg 0) .f32).wf = false ∧ (Instr.vadd (.reg 1) (.reg 2) (.q 16) .f32).wf = false := by decide
theorem test_wf_vector_destination : (Instr.vadd (.reg 80) (.reg 1) (.reg 0) .f32).wf = false := by decide
theorem test_wf_low_source : (Instr.mmac (.tile 0) (.pair 1) 1 (.reg 48) false).wf = false ∧ (Instr.manch (.q 16) 2 4).wf = false := by decide
theorem test_wf_both_registers : (Instr.sfma 64 (.reg 1) (.reg 2)).wf = false ∧ (Instr.vfma 80 (.reg 1) (.reg 2) .f32).wf = false := by decide
theorem test_wf_predicate : (Instr.pand 16 0 0).wf = false ∧ (Instr.bra 16 false 0).wf = false := by decide
theorem test_wf_policy : (Instr.ld (.reg 1) (.reg 2) 0 8 .i32).wf = false := by decide
theorem test_wf_dimension : (Instr.exch 14 (.reg 1) (.reg 2) 0).wf = false := by decide
theorem test_wf_signal_bits : (Instr.exch 13 (.reg 1) (.reg 2) 256).wf = false := by decide
theorem test_wf_pair : (Instr.sample (.reg 1) 3 0).wf = false ∧ (Instr.sample (.reg 1) 0 0).wf = false ∧ (Instr.sample (.reg 1) 48 0).wf = false := by decide
theorem test_wf_even : (Instr.amoCas (.reg 1) (.reg 2) 3 0 false).wf = false ∧ (Instr.redCas (.reg 2) 64 0 false).wf = false := by decide
theorem test_wf_signed : (Instr.addi (.reg 1) (.reg 2) 2097152).wf = false ∧ (Instr.addi (.reg 1) (.reg 2) (-2097153)).wf = false := by decide
theorem test_wf_unsigned : (Instr.shli (.reg 1) (.reg 2) 64).wf = false ∧ (Instr.trap 67108864).wf = false := by decide
theorem test_wf_loop_end : (Instr.loop (.reg 1) 0).wf = false ∧ (Instr.loopi 16384 1).wf = false := by decide
theorem test_wf_bit_field : (Instr.bext (.reg 1) (.reg 2) 0 0).wf = false ∧ (Instr.bext (.reg 1) (.reg 2) 60 5).wf = false := by decide
theorem test_wf_tile : (Instr.mzero (.tile 8)).wf = false := by decide
theorem test_wf_a_operand : (Instr.mmac (.tile 0) (.pair 0) 1 (.reg 1) false).wf = false ∧ (Instr.mmac (.tile 0) (.vec 32) 1 (.reg 1) false).wf = false
    ∧ (Instr.mmac (.tile 0) (.vec 1) 0 (.reg 1) false).wf = false := by decide
theorem test_wf_transposer_group : (Instr.txpi (.reg 1) false 8).wf = false := by decide
theorem test_wf_exchange_kind : (Instr.exmd (.reg 1) (.reg 2) (.reg 3) (.excc 9) false 0).wf = false := by decide
theorem test_wf_state_register : (Instr.getk (.reg 1) 0x012).wf = false ∧ (Instr.setk 0x500 (.reg 1)).wf = false := by decide
theorem test_wf_loop_level : (Instr.lidx (.reg 1) 6).wf = false := by decide
theorem test_wf_scalar_convert : (Instr.sfcvt (.reg 1) (.reg 2) 4 .f32).wf = false ∧ (Instr.sfcvt (.reg 1) (.reg 2) 10 .f32).wf = false := by decide
theorem test_wf_vector_convert : (Instr.vcvt (.reg 1) (.reg 2) 9 7 0 none).wf = false ∧ (Instr.vcvt (.reg 1) (.reg 2) 0 2 4 none).wf = false
    ∧ (Instr.vcvt (.reg 1) (.reg 2) 0 2 0 (some 5)).wf = false := by decide
theorem test_wf_remote_atomic : (Instr.amx .fadd (.reg 1) 2 (.reg 3) 0 .i32).wf = false ∧ (Instr.amx .add (.reg 1) 2 (.reg 3) 0 .f32).wf = false
    ∧ (Instr.amx .cas .queue 2 (.reg 3) 0 .i32).wf = false ∧ (Instr.amx .add (.reg 48) 2 (.reg 3) 0 .i32).wf = false := by decide
theorem test_wf_fence : (Instr.fence 65536 0).wf = false ∧ (Instr.fence 0 4).wf = false := by decide
theorem test_wf_slot : (Slot.mk 16 false (.pset 1)).wf = false ∧ (Slot.mk 1 false .nop).wf = false ∧ (Slot.mk 1 false (.movi (.reg 1) 524288)).wf = false
    ∧ (Slot.mk 1 false (.movi (.reg 1) 524287)).wf = true ∧ (Slot.mk 0 false .resultLanding).wf = false := by decide

/-! ## States for the witnesses: the node after reset, and a program of job 5 in a region that reads vault 0 and writes vault 1 -/

/-- The job's record: entry 0x1000_0000, RETRACE 4, subcube of dimensions 0 and 1 at base 0, vaults 0 and 1 (R376). -/
def tRec : Record := 0x10000000 + (4 <<< 56) + (5 <<< 112) + (3 <<< 272) + (3 <<< 288) + (0x10 <<< 320) + (100 <<< 384)

/-- Pages of job 5: 0x1000_0000 at frame 1, and the symmetric 0x4000_0000_0000 at frame 2; valid, leaf, writable, executable, cached (R237). -/
def tLeaf (frame : Nat) : DWord := BitVec.ofNat 64 (0x22F + frame * 2 ^ 16)
def tEverywhere : List Requester := [.fetch, .ls, .copy, .grammar, .remote]
def tTlb : Tlb := ⟨[⟨5, 0x1000, 1, tLeaf 1, 4, tEverywhere, true⟩, ⟨5, 0x40000000, 1, tLeaf 2, 4, tEverywhere, true⟩], [0]⟩

def tOwned : Vault := ⟨.owned, 5, some 5, false, 0⟩
def tSnap : Snap := ⟨0x10000000#48, [], [], 0, 0, List.replicate 14 0, .reset⟩
def tRgn : Region := ⟨tSnap, 1#32, 2#32, 0, false, false, true, false, none, [], [], 0, 0xFFFFFFFF#32, 0, 0, 0, false, 0, 0⟩

/-- A program outside region mode. -/
def tOut : State :=
  { State.reset with
    k := { KRegs.reset with priv := false, jobtag := 5, submask := 3, dimmap := 0x10#56, linkstat := 5, groups := 0x8003#64 }
    seq := { Seq.reset with pc := 0x10000000#48 }
    tlb := tTlb
    vaults := [tOwned, tOwned, tOwned] ++ List.replicate 29 .reset
    sch := { Sched.reset with queues := { LQueue.reset with recs := [tRec], state := .running } :: List.replicate 63 .reset, running := some 0 } }

/-- The same in its region. -/
def tIn : State := { tOut with rgn := some tRgn }

/-- The supervisor, with the same pages and job. -/
def tSup : State := { tOut with k := { tOut.k with priv := true } }

/-- Registers by number. -/
def withS (s : State) (l : List (Nat × DWord)) : State :=
  { s with regs := { s.regs with s := l.foldl (fun r p => r.set p.1 p.2) s.regs.s } }

theorem tOut_consistent : tOut.k.consistent = true ∧ tOut.k.m = 2 ∧ tOut.k.peer 1 = 1#14 ∧ tOut.k.nodeId = 0 := by decide

theorem witness_ScalarIntegerResults : (63 < 64 ∧ 1 ≤ 64 ∧ 0 + 64 ≤ 64 ∧ 3 < 4 ∧ 65535 < 65536) ∧ 1 ≤ 1 ∧ 63 + 1 ≤ 64 := by decide

/-- 1, 2 and −1 in binary32. -/
theorem one_decodes : fmtF32.decode 0x3F800000 = .fin false 8388608 (-23) := by decide +kernel
theorem two_decodes : fmtF32.decode 0x40000000 = .fin false 8388608 (-22) := by decide +kernel
theorem minus_one_decodes : fmtF32.decode 0xBF800000 = .fin true 8388608 (-23) := by decide +kernel

theorem witness_ExactValueRoundedOnce_round : 0 < 3 ∧ (round fmtF32 .rne false true 3 1 (-1) 0).2 &&& flagOverflow = 0
    ∧ (round fmtE5 .rne true false 1 1 0 0).2 &&& flagOverflow = 0 ∧ (round fmtBf .rne false false 257 1 0 0).2 ≠ 0 := by decide +kernel

theorem witness_ExactValueRoundedOnce_arithmetic : (fmtF32.decode 0x3F800000).value = some 1 ∧ (fmtF32.decode 0x40000000).value = some 2
    ∧ (fmtF32.decode 0xBF800000).value = some (-1)
    ∧ (1 : ℚ) + 2 ≠ 0 ∧ (1 : ℚ) - 2 ≠ 0 ∧ (1 : ℚ) * 2 ≠ 0 ∧ (1 : ℚ) * 2 + (-1) ≠ 0 ∧ (0 : ℚ) < 2 ∧ (1 : ℚ) < 2 ∧ (-1 : ℚ) ≤ 0 := by
  rw [one_decodes, two_decodes, minus_one_decodes]
  norm_num [FVal.value, exactValue]

theorem witness_ExactValueRoundedOnce_draw : (fmtF32 = fmtF32) ∧ isFinitePattern 5 = true ∧ isFinitePattern (-1) = true ∧ isFinitePattern (BitVec.intMin 128) = false
    ∧ (let l : List (Nat × Nat) := [(7, 0x3F800000), (8, 0x40000000)]
       0 < (l.map fun p => weight (greatest l) 0x3F800000 p.2).sum)
    ∧ (let l : List (Nat × Nat) := [(7, 0xFF800000)]
       greatest l = 0xFF800000 ∧ (l.map fun p => weight (greatest l) 0x3F800000 p.2).sum = 0)
    ∧ (let l : List (Nat × Nat) := [(7, 0x7FC00000)]
       greatest l ≠ 0x7FC00000 ∧ (l.map fun p => weight (greatest l) 0x3F800000 p.2).sum = 0) := by decide +kernel

set_option maxRecDepth 10000 in
theorem witness_StateRegistersAndFormat :
    (kSupervisorOnly 0x02F = false ∧ kSupervisorOnly 0x030 = true ∧ kSupervisorOnly 0x034 = true ∧ kSupervisorOnly 0x035 = false
      ∧ kSupervisorOnly 0x200 = true ∧ kSupervisorOnly 0x20F = true ∧ State.reset.k.priv = true ∧ tOut.k.priv = false)
    ∧ (kProgramWrites 0x010 = true ∧ kProgramWrites 0x107 = true ∧ kSupervisorWrites 0x4FF = true ∧ kReadOnly 0x035 = true ∧ kReadOnly 0x064 = true)
    ∧ (State.reset.regs.s.length = 64 ∧ State.reset.regs.y.length = 8 ∧ State.reset.k.gtable.length = 256)
    ∧ (let ok (f : BitVec 48) : Bool := decide (bits f 0 4 ≤ 10 ∧ bits f 4 4 ≤ 10 ∧ bits f 8 4 ≤ 10 ∧ bits f 12 3 ≤ 4 ∧ bits f 17 1 = 0 ∧ bits f 28 4 = 0)
       ok 0x4AAA#48 = true ∧ ok 0x4AAB#48 = false)
    ∧ (let s : State := { State.reset with seq := { Seq.reset with loops := [⟨16, 32, 1, 2⟩, ⟨0, 64, 3, 4⟩] } }
       0 < s.seq.loops.length ∧ s.seq.loops[s.seq.loops.length - 1 - 0]? = some ⟨0, 64, 3, 4⟩ ∧ s.seq.loops.length ≤ 2) := by decide

theorem witness_BranchesRedirect :
    let far : State := { State.reset with seq := { Seq.reset with redirects := [⟨3, 7, 0, 0⟩, ⟨4, 8, 0, 0⟩] } }
    let masked : State := { State.reset with regs := { Regs.reset with masks := [0] } }
    let whole : State := { State.reset with regs := { Regs.reset with masks := [fullMask] } }
    (State.reset.seq.pc &&& 0xF#48 = 0 ∧ State.reset.seq.redirects = [])
    ∧ (State.reset.srcP 0 = true ∧ State.reset.srcP 1 = false)
    ∧ (masked.regs.masks.headD fullMask = 0 ∧ masked.regs.masks.tail.headD fullMask &&& ~~~(masked.regs.masks.headD fullMask) ≠ 0)
    ∧ (whole.regs.masks.headD fullMask ≠ 0 ∧ whole.regs.masks.tail.headD fullMask &&& ~~~(whole.regs.masks.headD fullMask) = 0)
    ∧ (¬ ∀ r ∈ far.seq.redirects, r.seq ≠ far.seq.count ∧ r.left ≠ 2 + 1) ∧ (¬ ∀ r ∈ far.seq.redirects, r.seq ≠ far.seq.count ∧ r.left ≠ 3 + 1)
    ∧ ((withS State.reset [(5, 16)]).srcS (.reg 5)).setWidth 48 &&& 0xF#48 = (0 : VAddr)
    ∧ ((withS State.reset [(5, 8)]).srcS (.reg 5)).setWidth 48 &&& 0xF#48 ≠ (0 : VAddr) := by decide +kernel

theorem witness_LoopsTrapsAndDelays :
    let pc : VAddr := State.reset.seq.pc
    let nested (s : State) (fin : VAddr) : Bool := decide (s.seq.loops.length < 6 ∧ (∀ l ∈ s.seq.loops, fin.toNat ≤ l.fin.toNat) ∧ s.seq.loops.head?.map (·.fin) ≠ some pc)
    let deep (n : Nat) : State := { State.reset with seq := { Seq.reset with loops := List.replicate n ⟨pc, pc + 64, 0, 2⟩ } }
    let left (n : Nat) : State := (deep 1).setFin { (deep 1).seq.bun.fin with leaves := n }
    (nested (deep 5) (pc + 64) = true ∧ nested (deep 6) (pc + 64) = false ∧ nested (deep 1) (pc + 80) = false)
    ∧ ((deep 5).rgn = none ∧ tRgn.clash [.l 0] = false)
    ∧ ((withS State.reset [(5, 1)]).srcS (.reg 5) ≠ 0 ∧ State.reset.srcS (.reg 5) = 0 ∧ BitVec.ofNat 32 1 ≠ (0 : BitVec 32) ∧ BitVec.ofNat 32 0 = (0 : BitVec 32))
    ∧ ((left 0).seq.bun.fin.leaves < (left 0).seq.loops.length ∧ (left 1).seq.loops.length ≤ (left 1).seq.bun.fin.leaves)
    ∧ (tIn.k.priv = false ∧ tIn.rgn.isSome = true ∧ tIn.seq.trapReq = none ∧ tSup.k.priv = true ∧ tOut.rgn = none) := by decide +kernel

/-! Addresses: S5 at the job's page, S6 at the symmetric page, S7 in the scratchpad window, S8 the set of dimension 0. -/

def tRegs : List (Nat × DWord) := [(5, 0x10000000#64), (6, 0x400000000000#64), (7, 0x100#64), (8, 1#64), (9, 0x8000000000F0#64)]
def pIn : State := withS tIn tRegs
def pOut : State := withS tOut tRegs
def pSup : State := withS tSup tRegs

theorem pIn_region (p : Region → Prop) (h : p tRgn) : ∀ r, pIn.rgn = some r → p r := by
  intro r e
  cases e
  exact h

theorem witness_LoadsIssue :
    (pIn.k.priv = false ∧ pIn.rgn.isSome = true ∧ pIn.requests < 8192 ∧ pIn.noClash (sDstUnits (.reg 1)))
    ∧ pIn.access (pIn.srcS (.reg 5) + BitVec.ofInt 64 (8 * 1)) 8 .read 0 = .ok (0x10000008#48, ⟨.here 0x10008, leafAttr (tLeaf 1) 0 0x10000008#48, tTlb⟩)
    ∧ pIn.remote (pIn.srcS (.reg 6)) (pIn.srcS (.reg 8)) 8 .read 0 = .ok (0x400000000000#48, ⟨.remote 1#14 0x400000000000#48, physAttr, tTlb⟩)
    ∧ pIn.remote (pIn.srcS (.reg 6)) (pIn.srcS (.reg 0)) 8 .read 0 = .ok (0x400000000000#48, ⟨.here 0x20000, leafAttr (tLeaf 2) 0 0x400000000000#48, tTlb⟩)
    ∧ (pIn.flowRoom pIn.k.jobtag 1#14 0 = true ∧ pSup.unasked)
    ∧ (pIn.srcS (.reg 7) + BitVec.ofInt 64 (8 * 0) = (0x100#48 : VAddr).setWidth 64 ∧ 0x100 < 0x10000000 ∧ 0x100 % 8 = 0 ∧ spExtent 0x100 8 = true
        ∧ pIn.discipline (vaultOf 0x100) .read = true ∧ pIn.bankWait (banksOf [(0x100, 8)]) = .ok ())
    ∧ (pSup.srcS (.reg 7) + BitVec.ofInt 64 (8 * 0) = (0x100#48 : VAddr).setWidth 64 ∧ spExtent 0x100 8 = true ∧ pSup.testingVault 0 = false
        ∧ pSup.bankWait (banksOf [(0x100, 8)]) = .ok ())
    ∧ (spExtent 0x5FFFF8 8 = true ∧ spExtent 0x600000 8 = false)
    ∧ (pSup.k.priv = true ∧ pSup.access (pSup.srcS (.reg 5)) 4 .read (pSup.srcY 3) = .ok (0x10000000#48, ⟨.here 0x10000, leafAttr (tLeaf 1) 0 0x10000000#48, tTlb⟩)
        ∧ 0x10000000 ≤ (0x10000000#48 : VAddr).toNat) := by
  refine ⟨⟨rfl, rfl, by decide, pIn_region _ (by decide)⟩, by decide +kernel, by decide +kernel, by decide +kernel,
    ⟨by decide +kernel, by unfold State.unasked; decide +kernel⟩, ?_⟩
  decide +kernel

/-- A committed fence of the job that is still in the buffer. -/
def tFence : BufEntry := ⟨9, 0, 0, 1, 5, ⟨3, 0, 0x10⟩, 0, .draining, [], 0, .fence 1#16 3, false⟩

/-- The supervisor while the buffer holds an entry. -/
def pHold : State := { pSup with buf := [tFence] }

theorem witness_StoresIssue :
    (pIn.bufferHas 1 ∧ pIn.requests < 8192)
    ∧ pIn.access (pIn.srcS (.reg 5) + BitVec.ofInt 64 (4 * (-0))) 4 .write 0 = .ok (0x10000000#48, ⟨.here 0x10000, leafAttr (tLeaf 1) 0 0x10000000#48, tTlb⟩)
    ∧ pIn.remote (pIn.srcS (.reg 6)) (pIn.srcS (.reg 0)) 4 .write 0 = .ok (0x400000000000#48, ⟨.here 0x20000, leafAttr (tLeaf 2) 0 0x400000000000#48, tTlb⟩)
    ∧ pIn.remote (pIn.srcS (.reg 6)) (pIn.srcS (.reg 8)) 4 .write 0 = .ok (0x400000000000#48, ⟨.remote 1#14 0x400000000000#48, physAttr, tTlb⟩)
    ∧ pIn.flowRoom pIn.k.jobtag 1#14 0 = true
    ∧ (pHold.unasked ∧ pHold.buf ≠ [] ∧ pHold.access (pHold.srcS (.reg 5)) 4 .write 0
        = .ok (0x10000000#48, ⟨.here 0x10000, leafAttr (tLeaf 1) 0 0x10000000#48, tTlb⟩))
    ∧ (pSup.k.priv = true ∧ pSup.buf = [] ∧ 0x17FFFFFFFC + 4 ≤ hbmEnd ∧ Memory.wf pSup.hbm = true)
    ∧ (withS pSup [(5, 0x8017FFFFFFFC#64)]).access 0x8017FFFFFFFC#64 4 .write 0 = .ok (0x8017FFFFFFFC#48, ⟨.here 0x17FFFFFFFC, physAttr, tTlb⟩) := by
  refine ⟨⟨⟨pIn_region _ (by decide), by decide⟩, by decide⟩, by decide +kernel, by decide +kernel, by decide +kernel, by decide +kernel,
    ⟨by unfold State.unasked; decide +kernel, by decide, by decide +kernel⟩, ?_⟩
  decide +kernel

/-- A boundary instruction's state once its region has committed, and the answer that it waits for. -/
def tAns (status : Nat) : Answer := ⟨5, .atomic 0, 1#14, 0x400000000000#48, status, 7#64, true⟩
def tPerf : Opening := ⟨1#32, 2#32, 0, true, false, 0⟩
def pPerf : State := { pOut with seq := { pOut.seq with perform := some tPerf }, fab := { pOut.fab with answers := [tAns 0] } }

theorem witness_AtomicsPerform :
    (pOut.performing = pOut ∧ pIn.performing = (pIn.signed tRgn).commitRegion)
    ∧ (pIn.k.priv = false ∧ pIn.regional ∧ pIn.boundaryReady ∧ pIn.seq.perform = none ∧ pIn.requests < 8192
      ∧ pIn.access (pIn.srcS (.reg 5)) 8 .write 0 = .ok (0x10000000#48, ⟨.here 0x10000, leafAttr (tLeaf 1) 0 0x10000000#48, tTlb⟩)
      ∧ pIn.performing.fab.answerTo 5 pIn.performing.performer = none ∧ pIn.performing.fab.asking 5 pIn.performing.performer = false
      ∧ pIn.performing.access (pIn.srcS (.reg 5)) 8 .write 0 = .ok (0x10000000#48, ⟨.here 0x10000, leafAttr (tLeaf 1) 0 0x10000000#48, tTlb⟩)
      ∧ pIn.performing.atomicWaits 0 (.here 0x10000) = .ok () ∧ 0x10000 + 8 ≤ hbmEnd ∧ Memory.wf pIn.performing.hbm = true)
    ∧ (pSup.k.priv = true ∧ (pSup.requests < 8192 ∧ pSup.fab.answerTo pSup.k.jobtag pSup.asker = none
        ∧ pSup.fab.asking pSup.k.jobtag pSup.asker = false ∧ pSup.directOf = 0) ∧ pSup.buf = [] ∧ Memory.wf pSup.hbm = true
      ∧ pSup.access (pSup.srcS (.reg 5)) 8 .write 0 = .ok (0x10000000#48, ⟨.here 0x10000, leafAttr (tLeaf 1) 0 0x10000000#48, tTlb⟩))
    ∧ (pIn.remote (pIn.srcS (.reg 6)) (pIn.srcS (.reg 0)) 8 .write 0 = .ok (0x400000000000#48, ⟨.here 0x20000, leafAttr (tLeaf 2) 0 0x400000000000#48, tTlb⟩)
      ∧ pIn.performing.remote (pIn.srcS (.reg 6)) (pIn.srcS (.reg 0)) 8 .write 0 = .ok (0x400000000000#48, ⟨.here 0x20000, leafAttr (tLeaf 2) 0 0x400000000000#48, tTlb⟩)
      ∧ pIn.performing.atomicWaits 0 (.here 0x20000) = .ok () ∧ amoIsFloat .fmax = true ∧ decide (ATy.f32 = .i64 ∨ ATy.f32 = .z64) = false)
    ∧ (pPerf.k.priv = false ∧ pPerf.seq.perform = some tPerf ∧ pPerf.fab.answerTo pPerf.k.jobtag pPerf.performer = some (tAns 0)
      ∧ { pPerf with fab := { pPerf.fab with answers := [tAns 5] } }.fab.answerTo 5 pPerf.performer = some (tAns 5)) := by
  refine ⟨by decide +kernel, ⟨rfl, .inr (.inl rfl), fun _ => pIn_region _ (by decide +kernel), by decide +kernel⟩, by decide +kernel, by decide +kernel, by decide +kernel⟩

theorem witness_ReductionsEnterBuffer :
    (pIn.k.priv = false ∧ pIn.rgn.isSome = true ∧ pIn.bufferHas 1)
    ∧ pIn.access (pIn.srcS (.reg 5)) 8 .write 0 = .ok (0x10000000#48, ⟨.here 0x10000, leafAttr (tLeaf 1) 0 0x10000000#48, tTlb⟩)
    ∧ pIn.remote (pIn.srcS (.reg 6)) (pIn.srcS (.reg 0)) 8 .write 0 = .ok (0x400000000000#48, ⟨.here 0x20000, leafAttr (tLeaf 2) 0 0x400000000000#48, tTlb⟩)
    ∧ pIn.remote (pIn.srcS (.reg 6)) (pIn.srcS (.reg 8)) 4 .write 0 = .ok (0x400000000000#48, ⟨.remote 1#14 0x400000000000#48, physAttr, tTlb⟩)
    ∧ pIn.flowRoom pIn.k.jobtag 1#14 0 = true ∧ pIn.requests < 8192
    ∧ (pSup.access (pSup.srcS (.reg 5)) 4 .write (pSup.srcY 0) = .ok (0x10000000#48, ⟨.here 0x10000, leafAttr (tLeaf 1) 0 0x10000000#48, tTlb⟩)
      ∧ pSup.buf = [] ∧ 0x10000 + 4 ≤ hbmEnd ∧ pHold.buf ≠ []) := by
  refine ⟨⟨rfl, rfl, pIn_region _ (by decide), by decide⟩, ?_⟩
  decide +kernel

theorem witness_FencesAndCacheControl :
    (pIn.k.priv = false ∧ pIn.rgn.isSome = true ∧ pIn.bufferHas 1 ∧ pIn.pipe.waits = [] ∧ pIn.fenceDone pIn.k pIn.committedBuf 0xFFFF#16 3 = true)
    ∧ (pIn.cacheRuns 0 (rangeLines 0x10000000 256)).toOption.map (fun x => x.1.map (·.1)) = some [.here 0x10000, .here 0x10080]
    ∧ (pIn.prefLines 0 (rangeLines 0x10000000 256)).1.map (·.2.1) = [.here 0x10000, .here 0x10080]
    ∧ rangeLines 0x10000000 0 = [] ∧ pIn.directOf = 0
    ∧ (pSup.cacheRuns 0 (rangeLines 0x10000000 256)).toOption.map (fun x => x.1.map (·.1)) = some [.here 0x10000, .here 0x10080]
    ∧ (0x1000000 ≤ 0x1000000 ∧ 0x1000000 < 0x1000001 ∧ bits (pIn.srcS (.reg 5)) 48 16 = 0) := by
  refine ⟨⟨rfl, rfl, ⟨pIn_region _ (by decide), by decide⟩, rfl, by decide +kernel⟩, ?_⟩
  decide +kernel

theorem witness_AccessFaults :
    pIn.regional
    ∧ (bits (0x800000000000#64 : DWord) 48 16 = 0 ∧ ((0x800000000000#64 : DWord).setWidth 48 : VAddr).getLsbD 47 = true ∧ pIn.k.priv = false
      ∧ bits ((0x804000000000#64 : DWord).setWidth 48 : VAddr) 37 10 ≠ 0 ∧ 0x1800000000 ≤ bits ((0x801800000000#64 : DWord).setWidth 48 : VAddr) 0 37)
    ∧ ((0x10000002#64 : DWord).setWidth 48 : VAddr).getLsbD 47 = false
    ∧ bits (0x1000000000000#64 : DWord) 48 16 ≠ 0
    ∧ (bits (0x0FFFFFFF#64 : DWord) 48 16 = 0 ∧ ((0x0FFFFFFF#64 : DWord).setWidth 48 : VAddr).toNat < 0x10000000)
    ∧ (bits (0x10000002#64 : DWord) 48 16 = 0 ∧ 0x10000000 ≤ ((0x10000002#64 : DWord).setWidth 48 : VAddr).toNat
        ∧ ((0x10000002#64 : DWord).setWidth 48 : VAddr).toNat % tyBytes .f32 ≠ 0) := by
  refine ⟨.inr (.inl rfl), ?_⟩
  decide

theorem witness_MaskStackChanges :
    let at_ (n : Nat) : State := { State.reset with regs := { Regs.reset with masks := List.replicate n fullMask } }
    ((at_ 7).projectedDepth < 8 ∧ 8 ≤ (at_ 8).projectedDepth ∧ 0 < (at_ 1).projectedDepth ∧ (at_ 0).projectedDepth = 0)
    ∧ ((at_ 8).regs.masks.length ≤ 8 ∧ (at_ 7).regs.masks.length < 8 ∧ (at_ 1).regs.masks ≠ [])
    ∧ (∀ i, i < 7 → i + 1 < (at_ 8).regs.masks.length → ((at_ 8).regs.masks.getD i 0) &&& ~~~((at_ 8).regs.masks.getD (i + 1) 0) = 0) := by decide +kernel

theorem witness_VectorSelectAndConvert : 0 < max (cvtWidth 0) (cvtWidth 1) / min (cvtWidth 0) (cvtWidth 1)
    ∧ 1 < max (cvtWidth 0) (cvtWidth 1) / min (cvtWidth 0) (cvtWidth 1) ∧ 7 < max (cvtWidth 9) (cvtWidth 2) / min (cvtWidth 9) (cvtWidth 2) := by decide

/-- Lane 0 alone active, holding `n`. -/
def tLane (n : Nat) : State :=
  { State.reset with regs := { Regs.reset with masks := [1], v := Regs.reset.v.set 1 (BitVec.ofNat 65536 n) } }

theorem witness_VectorReductions :
    let vals (s : State) : List Nat := ((List.range 2048).filter (laneActive (topMask s.regs.masks) 4)).map (laneVal 4 (s.srcV (.reg 1)))
    (vals { State.reset with regs := { Regs.reset with masks := [0] } } = [])
    ∧ vals (tLane 0x7FC00000) = [0x7FC00000] ∧ fmtF32.isNan 0x7FC00000 = true
    ∧ vals (tLane 0x3F800000) = [0x3F800000] ∧ fmtF32.isNan 0x3F800000 = false := by decide +kernel

theorem witness_VectorLoadsAndStores :
    pIn.regional
    ∧ (0x5FE000 < 2 ^ 28 ∧ 0x5FE000 % 64 = 0 ∧ spExtent 0x5FE000 8192 = true ∧ spExtent 0x5FE040 8192 = false)
    ∧ (pIn.bankWait (banksOf [(0x5FE000, 8192)]) = .ok () ∧ pSup.testingVault 0 = false)
    ∧ (pIn.discipline (vaultOf 0x5FE000) .read = true ∧ Memory.wf pIn.sp = true ∧ vaultOf 0x5FE000 < 16)
    ∧ (pIn.discipline (vaultOf 0x800000) .write = true ∧ pIn.storeWaits [(0x800000, 8192)] = .ok ())
    ∧ (spExtent (16 * 0x800000) 8192 = true ∧ vaultOf (16 * 0x800000) = 16)
    ∧ ((bits (pIn.srcS (.reg 0)) 0 28 : Int) + 64 * (-1) < 0)
    ∧ (pIn.k.priv = false ∧ pIn.discipline 1 .read = false ∧ pIn.discipline 0 .write = false) := by
  refine ⟨.inr (.inl rfl), ?_⟩
  decide +kernel

/-- Nothing is under way that a store to the scratchpad would wait for. -/
theorem idle_storeWaits (s : State) (hw : s.pipe.waits = []) (hq : s.mat.queue = []) (hg : s.eng.gram = []) (xs : List (Nat × Nat)) :
    s.storeWaits xs = .ok () := by
  simp [State.storeWaits, State.scatterPending, State.pendingDrains, State.bitmapPending, State.pendingBitmaps, await, hw, hq, hg, bind, Except.bind]

theorem witness_GathersAndScatters :
    pIn.regional ∧ bits (pIn.srcS (.reg 7)) 0 28 % ewBytes .w4 = 0 ∧ pIn.noClash (vDstUnits (.reg 1)) ∧ (pIn.srcS (.reg 7)).toInt % ewBytes .w4 = 0
    ∧ pIn.bankWait (banksOf (scatterExtents 0x100 4 (active (topMask pIn.regs.masks) 4) (lanes 4 (pIn.srcV (.reg 2))))) = .ok ()
    ∧ pIn.bankWait (banksOf (stridedExtents 0x100 4 (pIn.srcS (.reg 7)) (topMask pIn.regs.masks))) = .ok ()
    ∧ pIn.storeWaits (scatterExtents 0x100 4 (active (topMask pIn.regs.masks) 4) (lanes 4 (pIn.srcV (.reg 2)))) = .ok () := by
  refine ⟨.inr (.inl rfl), by decide, pIn_region _ (by decide), by decide, rfl, rfl, idle_storeWaits _ rfl rfl rfl _⟩

/-! Matrix: formats 1 and 1 (bfloat16), descriptors of zeros in S2 to S5, drain format 0. -/

def tFmt : BitVec 48 := 0x011#48
def pMat : State := { pIn with regs := { pIn.regs with fmt := tFmt, s := Regs.reset.s } }
def tEntry (op : MatOp) : MatEntry := ⟨0, 0, 0, tFmt, op⟩
def pQueue (l : List MatOp) : State := { pMat with mat := { pMat.mat with queue := l.map tEntry } }

theorem witness_MatrixInstructionsEnterQueue :
    (pMat.regional ∧ pMat.namesTile (.tile 7) 7 ∧ pMat.namesTile .ring 0 ∧ fmtB tFmt ≠ 5 ∧ pMat.rgn.isSome = true ∧ pOut.rgn = none)
    ∧ ((pQueue (List.replicate 7 (.zero 0))).mat.queue.length < 8 ∧ 8 ≤ (pQueue (List.replicate 8 (.zero 0))).mat.queue.length)
    ∧ (65535 ≤ 65535 ∧ descOk (pMat.srcS (.reg 2)) (pMat.srcS (.reg 3)) false = true ∧ (matPair (fmtA tFmt) (fmtB tFmt)).isSome = true)
    ∧ ((∃ p, matPair (fmtA tFmt) (fmtB tFmt) = some p ∧ p.t ≤ 48) ∧ (8 ≤ 8 ∧ 2 * 31 + 8 ≤ 80) ∧ pMat.pendV 62 = false ∧ pMat.mat.queue = [])
    ∧ (0x100 % 64 = 0 ∧ spExtent 0x100 (16384 * lfmtBytes .lc) = true ∧ pMat.discipline 0 .read = true)
    ∧ (fmtD tFmt ≤ 3 ∧ spExtent 0x800000 (16384 * drainBytes (fmtD tFmt)) = true ∧ pMat.discipline 1 .write = true
      ∧ pMat.bitmapPending 0x800000 (16384 * drainBytes (fmtD tFmt)) = false)
    ∧ ((pQueue [.zero 3]).mat.queue ≠ [] ∧ (pQueue [.zero 3]).mat.queue.length ≤ 8)
    ∧ (matPair (fmtA 0) (fmtB 0) = none ∧ ¬ (fmtD 0x400#48 ≤ 3 ∨ fmtD 0x400#48 = 10))
    ∧ 7 < 8 := by
  refine ⟨⟨.inr (.inl rfl), rfl, ⟨by decide, by decide⟩, by decide, rfl, rfl⟩, by decide +kernel, by decide +kernel, ⟨⟨_, rfl, by decide⟩, by decide, by decide +kernel, rfl⟩, ?_⟩
  decide +kernel

theorem witness_MatrixOperationsExecute :
    (∀ op, (pQueue [op]).mat.queue.head? = some (tEntry op))
    ∧ (Memory.wf (pQueue [.load 1 .f32 0]).sp = true ∧ (pQueue [.drain 1 0x800000 0 0]).drainWaits (tEntry (.drain 1 0x800000 0 0)) = false)
    ∧ (matPair (fmtA tFmt) (fmtB tFmt) = some ⟨24, 48, 48⟩ ∧ pMat.progress = 0)
    ∧ pMat.stepScales 1 [0x0001000000000000#64, 0] 0 = .ok ()
    ∧ (pMat.aRows 1 ⟨24, 48, 48⟩ [] [0] 0).isOk = true ∧ (pMat.bRows 1 ⟨24, 48, 48⟩ [0x0001000000000000#64, 0] 0).isOk = true
    ∧ (pMat.autoAnch tFmt ⟨24, 48, 48⟩ [0x0001000000000000#64, 0] [0x0001000000000000#64, 0] 0 = .ok none)
    ∧ (let s : State := { pMat with sp := [(1, 0x3F#8)] }
       ∃ x y, s.autoAnch tFmt ⟨24, 48, 48⟩ [0x0001000000000000#64, 0] [0x0001000000000000#64, 0] 1 = .ok (some (x, y))) := by
  refine ⟨fun _ => rfl, by decide +kernel, by decide +kernel, by decide +kernel, by decide +kernel, by decide +kernel, by decide +kernel, -1, -1, by decide +kernel⟩

/-! Exchanges: the region reads vaults 0 and 1; vaults 0 to 5 belong to the job; S1 is a source of 64 bytes in vault 0, S2 a destination in
vault 2 with a signal word in vault 4. -/

def pX : State :=
  { withS tOut [(1, 0x400000000#64), (2, BitVec.ofNat 64 (0x1000000 + 8 * 2 ^ 28 + 4 * 2 ^ 41 + 5 * 2 ^ 46)), (3, 1#64), (4, 3#64), (5, 0x10003#64)] with
    rgn := some { tRgn with rmask := 3, wmask := 0 }, vaults := List.replicate 6 tOwned ++ List.replicate 26 .reset
    k := { tOut.k with linkstat := 0x5 } }

/-- The same on node 1, the upper end of dimension 0. -/
def pXup : State := { pX with k := { pX.k with nodeId := 1, lnode := 1 } }

theorem witness_ExchangesPost :
    (pX.regional ∧ pX.portsIdle ∧ pXup.regional ∧ pXup.portsIdle)
    ∧ (pX.k.consistent = true ∧ 1 < pX.k.m ∧ mapDim pX.k.dimmap 1 < 14 ∧ pX.lost (pX.k.peer 2) = false ∧ linkState pX.k.linkstat 0 = 1)
    ∧ (bits (pX.srcS (.reg 1)) 56 8 = 0 ∧ bits (pX.srcS (.reg 1)) 28 28 = 64 ∧ pX.mayExchange (4 * 2 ^ 23 + 64) 8 .neither)
    ∧ (pX.mayExchange 0 64 .read ∧ pX.mayExchange 0x1000000 64 .neither ∧ vaultOf 0 ≠ vaultOf 0x1000000 ∧ 64 % (2 * 16) = 0)
    ∧ (pXup.k.consistent = true ∧ pXup.k.lnode.getLsbD 0 = true ∧ pX.k.lnode.getLsbD 0 = false)
    ∧ (¬ (2 < pX.k.m) ∧ bits (0x20000000#64 : DWord) 28 28 % 4 ≠ 0) := by
  refine ⟨⟨.inr (.inl rfl), ⟨rfl, by decide +kernel⟩, .inr (.inl rfl), ⟨rfl, by decide +kernel⟩⟩, by decide +kernel, ⟨by decide, by decide, ⟨by decide, .inr rfl⟩, .inr (.inl rfl)⟩,
    ⟨⟨⟨by decide, .inr rfl⟩, .inr (.inl rfl)⟩, ⟨⟨by decide, .inr rfl⟩, .inr (.inl rfl)⟩, by decide, by decide⟩, by decide +kernel, by decide +kernel⟩

theorem witness_RingsAndMultidimensionalExchangesPost :
    (pX.regional ∧ pX.portsIdle ∧ pX.k.consistent = true ∧ pX.k.m = 2 ∧ 3 < 2 ^ 2)
    ∧ (pX.srcS (.reg 3) = 1 ∧ pX.srcS (.reg 4) = 3 ∧ pX.srcS (.reg 5) = 0x10003)
    ∧ ([(1 : DWord), 3, 0x10003].all fun v => bits v 21 43 == 0 && bits v 14 2 == 0 && bits v 0 14 != 0) = true
    ∧ (bits (pX.srcS (.reg 4)) 16 5 = 0 ∧ bits (pX.srcS (.reg 5)) 16 5 = 1 ∧ KRegs.setDims 3 = [0, 1])
    ∧ (let ls := pX.travLegs 1 .fwd (pX.srcS (.reg 1)) (pX.srcS (.reg 2)) 0
       ls.length = 1 ∧ (ls.map (·.port)).Nodup ∧ ∀ l ∈ ls, pX.legCheck l = .ok () ∧ l.port < 14 ∧ pX.lost l.rcd.partner = false)
    ∧ (let ls := pX.travLegs 3 .fwd (pX.srcS (.reg 1)) (pX.srcS (.reg 2)) 0
       ls.length = 2 ∧ (ls.map (·.port)).Nodup ∧ ∀ l ∈ ls, pX.legCheck l = .ok () ∧ l.port < 14 ∧ pX.lost l.rcd.partner = false) := by
  refine ⟨⟨.inr (.inl rfl), ⟨rfl, ?_⟩, ?_, ?_, ?_⟩, ?_, ?_, ?_, ?_, ?_⟩ <;> decide +kernel

/-- The two ends of EXMD of set 3 with VSTRIDE 1. -/
theorem witness_RingsAndMultidimensionalExchangesPost_exmd :
    let leg (t j : Nat) : Leg := pX.legAcross .exch true 3 t (moved (pX.srcS (.reg 1)) j 1) (moved (pX.srcS (.reg 2)) j 1) 0 false
    ([leg 0 0, leg 1 1].map (·.port)).Nodup ∧ ∀ l ∈ [leg 0 0, leg 1 1], pX.legCheck l = .ok () ∧ l.port < 14 ∧ pX.lost l.rcd.partner = false := by
  decide +kernel

/-! Packets of node 1, and a port 0 on which one exchange of job 5 waits or runs. -/

def tRcd : XchRec :=
  { slot := 0, seq := 0, xseq := 3, kind := .exch, fields := ⟨0, 128⟩, x := 0, y := 0, partner := 1, src := 0, sendLen := 128, dst := 0x1000000, recvLen := 128,
    own := 0, first := false, far := 0, limit := 0, sent := 0, acked := 0, landed := 0, phase := .posted, group := 0, sigAddr := 0x2000000, sigVal := 5,
    region := none, commits := false, sup := false, res := false, again := false }

def tXseq3 : DWord := BitVec.ofNat 64 (3 * 2 ^ 52)

/-- `pX` with one record on port 0, and a packet that has come. -/
def pPort (r : List XchRec) (p : Packet) : State :=
  { pX with xch := ⟨[⟨5, 4, r, []⟩] :: List.replicate 13 []⟩, ev := { packet := p } }

def tPost : Packet := exchangePacket 1 1 1#14 0#14 5 0 0x800000 tXseq3 128 0 0 []
def tData : Packet := exchangePacket 0 1 1#14 0#14 5 0 0x1000000 tXseq3 0 0 0 (List.replicate 64 1#8)
def tAck : Packet := exchangePacket 2 1 1#14 0#14 5 128 0 tXseq3 0 0 0 []

theorem tPorts_others (r : List XchRec) (p : Packet) : ∀ q, q ≠ 0 → ∀ k ∈ ((pPort r p).xch.ports[q]?).getD [], k.job = 5 → k.recs = [] := by
  intro q hq k hk
  rcases q with _ | q
  · exact absurd rfl hq
  · simp only [pPort, List.getElem?_cons_succ, List.getElem?_replicate] at hk
    split at hk <;> simp at hk

theorem witness_ExchangePacketsArrive :
    ((pPort [tRcd] tPost).xch.ports.length = 14 ∧ (pPort [tRcd] tPost).portFrom tPost = 0 ∧ 0 < 14 ∧ tPost.job = 5)
    ∧ (((pPort [] tPost).xch.at 0 5).recs = [] ∧ ((pPort [tRcd] tPost).xch.at 0 5).recs = [tRcd] ∧ ((pPort [tRcd] tPost).xch.at 0 5).posts = [])
    ∧ (tRcd.xseq = tPost.xseq ∧ tPost.fields = tRcd.fields ∧ (pPort [tRcd] tPost).legOwned 5 tRcd = true)
    ∧ ((pPort [tRcd] tData).portFrom tData = 0 ∧ tData.job = 5 ∧ tRcd.xseq = tData.xseq ∧ Memory.wf pX.sp = true
      ∧ pX.vaults[vaultOf (tRcd.dst + tData.offset)]? = some tOwned ∧ linkState pX.k.linkstat 0 = 1
      ∧ 0 + (tData.payload.take (128 - tData.offset)).length < 128 ∧ (tData.payload.take (128 - tData.offset)).length % combElem 2 = 0)
    ∧ ((pPort [tRcd] tAck).portFrom tAck = 0 ∧ tAck.job = 5 ∧ tRcd.xseq = tAck.xseq ∧ tAck.offset = 128)
    ∧ (((pPort [] tPost).xch.at 0 5).known (exchangePacket 1 1 1#14 0#14 5 0 0x800000 (BitVec.ofNat 64 (4 * 2 ^ 52)) 128 0 0 []).xseq = false ∧ ((pPort [{ tRcd with phase := .admitted }] tPost).xch.at 0 5).known tPost.xseq = true
      ∧ tRcd.sent = 0 ∧ tRcd.acked = 0 ∧ tRcd.landed = 0 ∧ tRcd.sendLen ≠ 0)
    ∧ (tData.offset = 0 ∧ ({ tRcd with landed := 64 }).landed ≠ tData.offset)
    ∧ (let r := { tRcd with phase := .admitted, sent := 128, acked := 128, landed := 64 }
       let q := exchangePacket 0 1 1#14 0#14 5 64 0x1000040 tXseq3 0 0 0 (List.replicate 64 1#8)
       q.offset = r.landed ∧ r.landed + (q.payload.take (r.recvLen - q.offset)).length = r.recvLen ∧ r.sent = r.sendLen ∧ r.acked = r.sendLen)
    ∧ (let r := { tRcd with phase := .admitted, sent := 128, acked := 64, landed := 128 }
       r.sent = r.sendLen ∧ r.landed = r.recvLen ∧ tAck.offset = r.sendLen ∧ r.acked ≤ r.sendLen) := by decide +kernel

theorem witness_MulticastsProbesAndLinkReports :
    (pX.k.priv = false ∧ pX.rgn.isSome = true ∧ pX.k.setOk (3#64) false = true ∧ 65536 % 4 = 0 ∧ 65536 ≤ 65536)
    ∧ (bits (0x400000000000#64 : DWord) 48 16 = 0 ∧ (0x400000000000#48 : VAddr).getLsbD 47 = false ∧ (0x400000000000#48 : VAddr).getLsbD 46 = true)
    ∧ (spExtent 0 65536 = true ∧ pX.discipline 0 .read = true ∧ pX.vaultOwned 0 = true)
    ∧ ((spanned pX.k.nodeId (pX.physMask 3#14)).all (fun m => !pX.lost m) = true ∧ pX.lost (pX.serialiser 3#14) = false)
    ∧ (checkAddrs 0x400000000000 65536 = [0x400000000000] ∧ (pX.targetLoc pX.k.jobtag 0 (BitVec.ofNat 48 0x400000000000) 4 true).isOk = true)
    ∧ ((65536 + 63) / 64 ≤ 1024 ∧ pX.bufUsed + (65536 + 63) / 64 ≤ 1024 ∧ tRgn.used + (65536 + 63) / 64 ≤ tRgn.budget)
    ∧ ((pX.fab.flowTo pX.k.jobtag 1#14 0).retiring = false ∧ (pX.fab.flowTo pX.k.jobtag 1#14 0).unacked.length + pX.loadsFor pX.k.jobtag 1#14 0 + 1 ≤ 32)
    ∧ (bits (1#64 : DWord) 4 60 = 0 ∧ bits (1#64 : DWord) 0 4 < pX.k.m ∧ pX.fab.links[mapDim pX.k.dimmap 1]? = some .reset)
    ∧ (bits (2#64 : DWord) 4 60 = 0 ∧ ¬ (bits (2#64 : DWord) 0 4 < pX.k.m))
    ∧ (0x1000000 % 8 = 0 ∧ spExtent 0x1000000 8 = true ∧ pX.discipline (vaultOf 0x1000000) .neither = true ∧ pX.vaultOwned (vaultOf 0x1000000) = true)
    ∧ (pX.blocked pX.k.jobtag = false ∧ (pPort [tRcd] tPost).blocked 5 = true) := by decide +kernel

/-! Copies: descriptors of 64 bytes at 0x100 of vault 0; sources there, destinations and signals in vault 2. -/

def tDesc (k : CopyKind) (glob : Bool) : List DWord :=
  [0, if glob then 0x1000010000000#64 else 0x1000000#64, 0x81001000#64, 7] ++
  match k with
  | .linear | .lattice => [64, 0, 0, 0]
  | .rows => [0x200000040#64, 128, 64, 0]
  | .walk => [0x140, 4, 0, 0]
/-- The map of CPYW: one element of four bytes. -/
def tMap : List DWord := [0, 1, 0, 0, 0, 0x010101, 0x010101, 4]
def tBytes (a : Nat) (l : List DWord) : List Host.Cell := Memory.write [] a (l.flatMap fun d => toBytes 8 d.toNat)
def pCopy (k : CopyKind) (glob : Bool) : State := { pX with sp := Memory.write (tBytes 0x100 (tDesc k glob)) 0x140 (tMap.flatMap fun d => toBytes 8 d.toNat) }

def tCmd (k : CopyKind) (glob : Bool) : CopyCmd :=
  { id := 9, slot := 0, seq := 0, since := 0, job := 5, kind := k, desc := tDesc k glob, map := if k = .walk then tMap else [], spol := 0, dpol := 0, sigpol := 0,
    set := if k = .lattice then 1 else 0, res := false, prog := 0, rmask := 3, wmask := 0, region := some 0, sup := false, cube := ⟨3, 0, 0x10#56⟩, leaves := [], data := [], admitted := false, waitsVault := false, out := [], sent := false, invals := [] }

def pCmd (c : CopyCmd) : State := { pX with eng := { pX.eng with copies := [c] }, ev := { id := 9 } }

def tCopyOk (k : CopyKind) (glob : Bool) : Bool :=
  Memory.dwords (pCopy k glob).sp 0x100 8 == tDesc k glob && copyCommonOk (tDesc k glob) && copyKindOk k (tDesc k glob)
    && (k != .walk || (mapOk (tCmd k glob) && Memory.dwords (pCopy k glob).sp 0x140 8 == tMap)) && ((tCmd k glob).dstGlobal == glob)

theorem witness_CopiesIssueAndRun :
    (([CopyKind.linear, .rows, .walk, .lattice].all fun k => tCopyOk k false && tCopyOk k true) = true)
    ∧ (pX.k.priv = false ∧ pX.rgn.isSome = true ∧ 0x100 % 64 = 0 ∧ spExtent 0x100 64 = true ∧ spExtent 0x140 64 = true ∧ pX.discipline 0 .read = true)
    ∧ (pX.k.setOk 1#64 false = true ∧ pX.lost (pX.k.peer 1) = false ∧ pX.lost pX.k.nodeId = false ∧ pX.k.peer 1 ≠ pX.k.nodeId ∧ (tCmd .lattice false).pull = false)
    ∧ (isSymmetric (BitVec.ofNat 48 0x400000000000) = true ∧ pX.eng.copies.length < 32 ∧ 32 ≤ (List.replicate 32 (tCmd .linear false)).length)
    ∧ (let c := tCmd .linear false
       c.src = 0 ∧ c.dst = 0x1000000 ∧ c.sigOn = true ∧ c.sigAddr = 0x1001000 ∧ bits (dwAt c.desc 4) 0 40 = 64 ∧ c.srcGlobal = false ∧ c.dstGlobal = false
       ∧ spExtent c.src 64 = true ∧ spExtent c.dst 64 = true ∧ spExtent c.sigAddr 8 = true ∧ pX.ownedBy 5 (vaultOf c.src) = true ∧ pX.ownedBy 5 (vaultOf c.dst) = true
       ∧ c.rmask.getLsbD (vaultOf c.src) = true ∧ (c.rmask ||| c.wmask).getLsbD (vaultOf c.dst) = false ∧ (c.rmask ||| c.wmask).getLsbD (vaultOf c.sigAddr) = false)
    ∧ (let c := { tCmd .linear false with admitted := true }
       (pCmd c).copyReady c = true ∧ (pCmd c).buf = [] ∧ (pCmd c).ev.id = c.id ∧ c.src + 64 ≤ c.dst ∧ (pCmd c).copiesOut < 32)
    ∧ 32 ≤ { pX with eng := { pX.eng with copies := List.replicate 32 (tCmd .linear false) } }.copiesOut := by decide +kernel

theorem witness_CopiesIssueAndRun_held (c : CopyCmd) : c ∈ (pCmd c).eng.copies ∧ ∀ x ∈ (pCmd c).eng.copies, x.id = c.id → x = c :=
  ⟨.head _, fun _ h _ => List.mem_singleton.mp h⟩

theorem witness_SynchronisationInstructions :
    (let word (s : State) : Nat := Memory.word s.sp 0x1000000 8
     word pX = (pX.srcS (.reg 0)).toNat ∧ word pX ≠ (pX.srcS (.reg 3)).toNat ∧ ¬ ((pX.srcS (.reg 3)).toNat ≤ word pX))
    ∧ (0x1000000 % 8 = 0 ∧ spExtent 0x1000000 8 = true ∧ pX.vaultOwned 2 = true ∧ pX.discipline 2 .neither = true)
    ∧ (pX.k.priv = false ∧ pX.k.setOk 0 false = true ∧ pX.k.peer 0 = pX.k.nodeId ∧ pX.k.peer 1 ≠ pX.k.nodeId ∧ pX.flowRoom 5 (pX.k.peer 1) 0 = true)
    ∧ ((List.range 32).all fun v => (pX.vaults[v]?).elim false fun w => !w.quarantined) = true
    ∧ ((3#32 ||| 0#32) &&& 4#32 = 0)
    ∧ (pX.engineBusy 5 0 = false ∧ pX.engineBusy 5 1 = false ∧ pX.engineBusy 5 2 = false ∧ pX.engineBusy 5 3 = false)
    ∧ ((pCmd (tCmd .linear false)).engineBusy 5 0 = true ∧ bits (15#64 : DWord) 4 60 = 0 ∧ bits (16#64 : DWord) 4 60 ≠ 0) := by decide +kernel

/-! A grammar image at 0x1000_0000 (frame 1): three classes, eight tokens, two symbols, two states. Tokens 0 to 2 have their own classes; the
situation of state 0 has all tokens legal, class 0 going to state 1 with a push, class 1 popping one symbol. The context lies in vault 2. -/

def tImage : List Host.Cell :=
  [(0x10000, 0x000000014D524731), (0x10008, 0x0000000300000008), (0x10010, 0x0000000200000002), (0x10020, 0x40), (0x10028, 0x80), (0x10030, 0x100), (0x10038, 0x140),
   (0x10040, 0x0002000200010000), (0x10048, 0x0002000200020002),
   (0x10080, 0x0000000100000000), (0x10088, 0x0000000200000000), (0x10090, 0x0000000100000000), (0x10098, 0x0000000200000000),
   (0x10100, 0x0000000400010000), (0x10108, 1), (0x10110, 0x0000000100000001), (0x10140, 0x80000007)].foldl
    (fun m (p : Nat × Nat) => Memory.write m p.1 (toBytes 8 p.2)) []

def tBind : Binding := ⟨true, 0x10000000#48, 0, 0x1000000, BitVec.ofNat 64 (15 * 2 ^ 52)⟩

/-- The region of `pX` with vault 1 for writing, and a context whose first doubleword is `d0` and whose symbol 4095 is `top`. -/
def pG (d0 top : Nat) : State :=
  { pX with
    rgn := some { tRgn with rmask := 1, wmask := 2 }, hbm := tImage, eng := { pX.eng with bind := tBind }
    sp := Memory.write (Memory.write [] 0x1000000 (toBytes 8 d0)) (0x1000000 + 64 + 2 * 4095) (toBytes 2 top) }

def tHead : GHead := ⟨3, 8, 2, 2, 0, 0x40, 0x80, 0x100, 0x140⟩
def tT0 : GTrans := ⟨0, 1, 0, [1]⟩
def tT1 : GTrans := ⟨1, 0, 1, []⟩

theorem witness_GrammarAndSampling :
    (bits (0x0007800000000000#64 : DWord) 51 13 = 0 ∧ bits (0x0008000000000000#64 : DWord) 51 13 ≠ 0 ∧ bits (1#64 : DWord) 0 6 ≠ 0)
    ∧ (pX.eng.bind.bound = false ∧ (pG 0x10000 0).eng.bind.bound = true)
    ∧ (let s := pG 0x10000 0
       s.k.priv = false ∧ spExtent tBind.context 8256 = true ∧ s.discipline 2 .neither = true ∧ s.vaultOwned 2 = true ∧ 0x800000 % 64 = 0 ∧ spExtent 0x800000 64 = true
       ∧ s.discipline 1 .write = true ∧ s.imageHead tBind = .ok tHead ∧ 64 * ((8 + 511) / 512) = 64 ∧ s.eng.gram.length < 8)
    ∧ ((pG 0x10000 0).gstepResult 0 = .ok ⟨0, ⟨1, 2, 1, 0, false⟩, 1, [1]⟩ ∧ (pG 0x10000 0).performing.gstepResult 0 = .ok ⟨0, ⟨1, 2, 1, 0, false⟩, 1, [1]⟩)
    ∧ ((pG 0 0).gstepResult (BitVec.twoPow 64 63) = .ok ⟨5, ⟨0, 1, 0, 0, false⟩, 0, [0]⟩)
    ∧ (sampleOk 0x8000000000000000#64 0x3F80000000000007#64 = true ∧ sampleOk 0#64 0x3F80000000000007#64 = true ∧ sampleOk 0#64 0x3F80000000040000#64 = false
      ∧ spExtent 0 (4 * 8) = true ∧ spExtent 0 ((8 + 7) / 8) = true ∧ pX.discipline 0 .read = true)
    ∧ (bits (0xFFFF#64 : DWord) 16 48 = 0 ∧ bits (0x10000#64 : DWord) 16 48 ≠ 0 ∧ bits (0xFFFFFFFF#64 : DWord) 32 32 = 0 ∧ bits (0x100000000#64 : DWord) 32 32 ≠ 0) := by
  decide +kernel

theorem witness_GrammarAndSampling_region : (pG 0x10000 0).regional ∧ (pG 0x10000 0).noClash (predUnits 1) ∧ (pG 0x10000 0).boundaryReady := by
  refine ⟨.inr (.inl rfl), ?_, fun _ => ?_⟩ <;> intro r h <;> cases h <;> decide +kernel

theorem witness_GrammarEngineSteps :
    let s := pG 0x10000 0
    (tT0.npop ≤ 0 ∧ (2#64 : DWord).getLsbD 63 = false ∧ (8#64 : DWord).getLsbD 63 = false ∧ (BitVec.twoPow 64 63).getLsbD 63 = true)
    ∧ (s.imageHead tBind = .ok tHead ∧ ctxReserved s.sp tBind.context = true ∧ (s.situation tBind tHead 0 0).isOk = true)
    ∧ (ctxOk (pG 0 0).sp tBind.context tHead = false ∧ ctxOk s.sp tBind.context tHead = true)
    ∧ (8 ≤ (8#64 : DWord).toNat ∧ s.situation tBind tHead 0 0 = .ok ⟨false, 1, 0, 2, 0⟩ ∧ s.transitions tBind tHead 0x100 none 2 = .ok [tT0, tT1])
    ∧ (s.tokenClass tBind tHead 2 = .ok 2 ∧ tT0.cls ≠ 2 ∧ tT1.cls ≠ 2)
    ∧ (s.tokenClass tBind tHead 1 = .ok 1 ∧ (readCtx s.sp tBind.context).depth - 1 < tT1.npop)
    ∧ (s.tokenClass tBind tHead 0 = .ok 0 ∧ tT0.npop ≤ (readCtx s.sp tBind.context).depth - 1 ∧ s.situation tBind tHead 1 1 = .ok ⟨false, 0, 0, 0, 0⟩)
    ∧ (let u := pG 0x10000000 1
       ctxOk u.sp tBind.context tHead = true ∧ (readCtx u.sp tBind.context).depth = 4096 ∧ 4096 < 4096 - tT0.npop + tT0.push.length
       ∧ u.situation tBind tHead 0 1 = .ok ⟨false, 1, 0, 2, 0⟩) := by decide +kernel

/-- A command of the engine and its wait. -/
def tWait (op : WaitOp) : Wait := ⟨7, 0, 0, false, true, none, none, 0, some 1, 0, true, .no, op⟩
def pCmdG (op : GramOp) (w : WaitOp) : State :=
  { pG 0x10000 0 with eng := { (pG 0x10000 0).eng with gram := [⟨7, 1, 5, tBind, 0, op⟩] }, ev := { id := 7 }, pipe := ⟨[], [tWait w], []⟩ }

theorem witness_GrammarEngineSteps_commands :
    (let s := pCmdG (.mask 1 0x800000 64) .gmask
     s.eng.gram.head? = some ⟨7, 1, 5, tBind, 0, .mask 1 0x800000 64⟩ ∧ s.pipe.waits.find? (fun w => w.id == 7 && w.outstanding) = some (tWait .gmask)
     ∧ s.writesBefore 1 = true ∧ s.vaultOwned (vaultOf tBind.context) = true ∧ (s.underPolicy ⟨7, 1, 5, tBind, 0, .mask 1 0x800000 64⟩).gmaskValue tBind = .ok 255)
    ∧ (let s := pCmdG (.sample 0x8000000000000000#64 0x3F80000000000007#64 1 0 0 0) .sample
       (s.legalLogits 0x8000000000000000#64 0x3F80000000000007#64).map (·.1) = [0, 1, 2, 3, 4, 5, 6, 7] ∧ s.legalLogits 0x0000000001000100#64 7 = []) := by decide +kernel

/-! Regions -/

theorem witness_RegionInstructions :
    (tOut.k.priv = false ∧ tOut.seq.perform = none ∧ tOut.descriptorOk 0x200000001#64 0 = true ∧ tOut.descriptorOk 0x200000001#64 0x18000#64 = false
      ∧ tOut.performing.allArrived = true ∧ tOut.performing.ownsAll 3#32 = true ∧ tIn.performing.ownsAll 3#32 = true)
    ∧ (tSup.k.priv = true ∧ tSup.seq.perform = none ∧ tOut.rgn = none)
    ∧ (tIn.rgn = some tRgn ∧ tIn.commitReady tRgn = .ok ())
    ∧ (pPerf.seq.perform = some tPerf ∧ pPerf.allArrived = true ∧ pPerf.ownsAll (tPerf.rmask ||| tPerf.wmask) = true ∧ pPerf.ownsAll 8#32 = false)
    ∧ (4095 ≤ { tOut with seq := { tOut.seq with outside := 4095 } }.seq.outside) := by decide +kernel

theorem witness_RegionInstructions_chunks :
    let r : Region := { tRgn with desc := 0x10000#64, resIssued := true }
    let w : Wait := ⟨7, 0, 0, false, true, none, some (.reg 1), 0, none, 0, true, .no, .gather 0 0 fullMask .w4 true⟩
    let s : State := { tIn with rgn := some r, pipe := ⟨[], [w], []⟩ }
    let e : MatEntry := ⟨0, 0, 0, tFmt, .mac true 0 [] [] [] 0 true⟩
    let q : State := { tIn with rgn := some r, mat := { tIn.mat with queue := [e] } }
    (s.rgn = some r ∧ r.desc.getLsbD 16 = true ∧ r.resIssued = true ∧ s.mat.queue = [] ∧ s.pipe.waits.find? (fun w => w.outstanding && w.inRgn) = some w ∧ r.prog < 2048)
    ∧ (s.gatherLanes 4 (gatherAddrs 0 4 0 256 0 fullMask)).isOk = true
    ∧ (s.regs.v[1]? = some 0 ∧ q.mat.queue.head? = some e ∧ (0 : BitVec 32).toNat ≤ r.prog) := by decide +kernel

theorem witness_RegionsEnd :
    (let e (id : Nat) (st : BufState) (op : BufOp) : BufEntry := ⟨id, 0, 0, 1, 5, tOut.k.cube, 0, st, [], 0, op, false⟩
     let s : State := { tIn with buf := [e 0 .sent (.fence 0 0), e 1 .opened (.fence 0 0), e 2 .opened (.release 4)] }
     s.rgn = some tRgn ∧ s.commitReady tRgn = .ok () ∧ (e 0 .sent (.fence 0 0)).state ≠ .opened ∧ (4#32 : BitVec 32).getLsbD 2 = true
     ∧ s.vaults[2]? = some tOwned ∧ tOwned.state = .owned ∧ tOwned.owner = 5)
    ∧ (tIn.k.priv = false ∧ tIn.rgn = some tRgn ∧ 3 < tIn.k.retrace) := by decide +kernel

/-! Launches: a record at 0x100 of vault 0, groups in slots 0 (group 3, dimension 0) and 1 (group 4, no dimension). -/

def pL : State :=
  { withS pX [(5, 0x300000100#64), (6, 1#64)] with
    sp := Memory.write [] 0x100 (toBytes 64 tRec.toNat)
    k := { pX.k with groups := 0x80048003#64, gtable := (pX.k.gtable.set 3 0x8001000040000000#64).set 4 0x8000000040000000#64 }
    hst := { pX.hst with featSet := true } }

theorem pL_record : Memory.dwords pL.sp 0x100 8 = (List.range 8).map (fun i => dwOf tRec i) ∧ ofDws (Memory.dwords pL.sp 0x100 8) = tRec := by decide +kernel

theorem witness_LaunchesAndRecords :
    (bits (0x300000100#64 : DWord) 28 4 = 0 ∧ bits (0x300000100#64 : DWord) 38 26 = 0 ∧ 0x100 % 64 = 0 ∧ spExtent 0x100 64 = true ∧ pL.discipline 0 .read = true)
    ∧ (recJob tRec = pL.k.jobtag ∧ recPrio tRec ≤ pL.curPrio ∧ (recSubcube tRec).submask &&& ~~~pL.k.submask = 0
      ∧ ((recSubcube tRec).subbase ^^^ pL.k.subbase) &&& ~~~pL.k.submask = 0)
    ∧ (bits (0x10000000#64 : DWord) 28 4 ≠ 0)
    ∧ (pL.seq.perform = none ∧ pL.sch.running = some 0 ∧ 0 < pL.sch.queues.length ∧ pL.performing.seq.dueTrap = none)
    ∧ (63 < 64 ∧ pL.sch.queues.length = 64 ∧ ¬ (pL.ev.flag = true ∨ pL.hst.featSet = false ∨ pL.hst.brstat ≠ 0x70 ∨ 2 ≤ pL.hst.pstate.toNat))
    ∧ ((pL.queue 0).recs ≠ [] ∧ (pL.queue 0).recs.length < 4 ∧ (pL.queue 63).recs = [] ∧ pL.recOk tRec = true ∧ pL.recOk 1 = false)
    ∧ 4 ≤ ({ LQueue.reset with recs := List.replicate 4 tRec }).recs.length := by decide +kernel

theorem witness_LaunchesAndRecords_ready : pL.boundaryReady := by
  intro _ r h
  cases h
  decide +kernel

theorem witness_GroupsAndBarriers :
    (0#64 = BitVec.ofNat 64 0 ∧ 0 < 4 ∧ pL.slotGroup 0 = some 3 ∧ pL.slotGroup 3 = none ∧ bits (4#64 : DWord) 2 62 ≠ 0)
    ∧ (pL.barrierOf 0 = none ∧ pL.performing.barrierOf 0 = none ∧ pOut.rgn = none ∧ tOut.slotGroup 0 = some 3)
    ∧ (let b : Barrier := ⟨0, 3, 1, 0, 1, true, 5, true⟩
       let s : State := { pL with sch := { pL.sch with barriers := [b] } }
       s.barrierOf 0 = some b ∧ s.performing.barrierOf 0 = some b)
    ∧ (let b : Barrier := ⟨0, 3, 1, 0, 0, false, 5, false⟩
       let s : State := { pL with sch := { pL.sch with barriers := [b] }, ev := { job := 5 } }
       s.sch.barriers.find? (fun b => b.slot == s.ev.num && b.job == s.ev.job && b.sent == 0 && !b.finished) = some b ∧ s.arrivalWaits b = false
       ∧ groupDims (s.group 3) = [0] ∧ s.sch.early.contains (5, 3, b.gen, 0) = false)
    ∧ (pPerf.barrierOf 0 = none ∧ pPerf.performing.barrierOf 0 = none ∧ pPerf.seq.perform.isSome = true ∧ pPerf.slotGroup 0 = some 3)
    ∧ groupDims (pL.group 4) = []
    ∧ (pL.seq.perform = none ∧ pL.rgn.isSome = true)
    ∧ (((controlPacket 1#14 0#14 5 0x40000302#64).dw 2).getLsbD 30 = true ∧ ((controlPacket 1#14 0#14 5 0x0302#64).dw 2).getLsbD 30 = false
      ∧ (pL.jobCube 5).isSome = true ∧ pL.jobCube 6 = none)
    ∧ (bits ((controlPacket 1#14 0#14 5 0x0302#64).dw 2) 8 8 = 3 ∧ bits ((controlPacket 1#14 0#14 5 0x0102#64).dw 2) 8 8 ≠ 3 ∧ pL.sch.barriers = []) := by decide +kernel

/-! The supervisor serving queue 0, held with `h`. -/

def pHeld (h : Hold) (r : Option Region) : State :=
  { withS tSup [(5, 0x10000#64), (6, 3#64), (7, 0x10005#64)] with
    sch := { tSup.sch with queues := tSup.sch.queues.set 0 { LQueue.reset with recs := [tRec], state := .held, hold := h, region := r, cause := 0xC060 }, serving := some 0, running := some 0 }
    nextId := 1 }

theorem witness_ReturnFromTrap :
    (tSup.k.priv = true ∧ tSup.heldQueue = none ∧ tSup.err.selft = none ∧ { tSup.err with selft := some ⟨0, 0, 0, 0⟩ }.selft.isSome = true)
    ∧ ((pHeld .boundary (some { tRgn with waiting := some ⟨0x20, [], []⟩ })).heldQueue).map (fun x => x.2.region.map (·.waiting)) = some (some (some ⟨0x20, [], []⟩))
    ∧ ((pHeld .region (some tRgn)).heldQueue).map (fun x => (x.1, x.2.hold, x.2.region)) = some (0, .region, some tRgn)
    ∧ ((pHeld .outside none).heldQueue).map (fun x => (x.1, x.2.hold, x.2.region)) = some (0, .outside, none)
    ∧ ((pHeld .fatal none).heldQueue).map (fun x => (x.1, x.2.hold, x.2.region)) = some (0, .fatal, none) := by decide +kernel

/-! Tables: job 5's entry at 0x50 of the job table at 0, four levels of one entry each to the leaf of 0x1000_0000 (R236, R237). -/

def tTables (d0 leafAt leaf : Nat) : List Host.Cell :=
  [(0x50, d0), (0x1000, 0x2001), (0x2000, 0x3001), (0x3400, 0x4001), (leafAt, leaf)].foldl (fun m (p : Nat × Nat) => Memory.write m p.1 (toBytes 8 p.2)) []

theorem witness_TranslationInstructions :
    (tSup.k.priv = true ∧ bits (0x10000#64 : DWord) 0 16 = 0 ∧ tSup.k.setOk 3#64 false = true ∧ tSup.k.setOk 0 false = true ∧ tSup.fab.shoots = [])
    ∧ (let to_ (set : Nat) : List (BitVec 14) := ((spanned tSup.k.nodeId (tSup.physMask (BitVec.ofNat 14 set))).filter fun m => m != tSup.k.nodeId).filter fun m => !tSup.lost m
       to_ 0 = [] ∧ to_ 3 = [1#14, 2#14, 3#14])
    ∧ (let h : Shoot := ⟨0, 5, 0, 0, 0, [1#14], true⟩
       let s : State := { tSup with fab := { tSup.fab with shoots := [h] } }
       s.fab.shoots.find? (fun h => h.mine) = some h ∧ s.lost 1#14 = false ∧ { s with fab := { s.fab with dead := [1#14] } }.lost 1#14 = true)
    ∧ (walk [] 0 5 0x10000000#48 = .error .notPresent ∧ walk (tTables 3 0x4000 0) 0 5 0x10000000#48 = .error .malformed
      ∧ walk [] 0x1800000000#64 5 0x10000000#48 = .error (.hole 0x1800000050)
      ∧ walk (tTables 0x1001 0x4000 0x1022F) 0 5 0x10000000#48 = .ok (0x1022F#64, 4) ∧ walk (tTables 0x1001 0x3400 0x20022F) 0 5 0x10000000#48 = .ok (0x20022F#64, 3))
    ∧ (bits (0xFFFFF#64 : DWord) 20 44 = 0 ∧ (0x80000#64 : DWord).getLsbD 19 = true ∧ (0x80000#64 : DWord).getLsbD 16 = false ∧ (0x80000#64 : DWord).getLsbD 17 = false)
    ∧ (tSup.hst.migrq = none ∧ (let h : Hst := { tSup.hst with migrq := some (0x0005000010000000#64, 0x1022F#64) }
        h.migrq.isSome = true ∧ { tSup with hst := h }.leafAt 5 0x1000 = none))
    ∧ (tSup.holding (some 5) (some 0x10000000#64) = false
      ∧ { tSup with pipe := ⟨[], [⟨0, 0, 0, true, false, some (.reg 1), none, 0, none, 0, true, .no, .load 0x10000000#48 (.here 0x10000) physAttr .i32 0 none⟩], []⟩ }.holding (some 5) none = true)
    ∧ (bits (1#64 : DWord) 0 16 ≠ 0 ∧ bits (0x40#64 : DWord) 6 58 ≠ 0) := by decide +kernel

theorem witness_MachineManagementInstructions :
    (tSup.k.priv = true ∧ selftOk 0x1F03#64 = true ∧ selftOk 0x2003#64 = false ∧ selftOk 7#64 = false ∧ tSup.err.selft = none)
    ∧ ({ tSup with err := { tSup.err with selft := some ⟨0, 0, 0, 0⟩ } }.err.selft.isSome = true)
    ∧ (let s : State := { tSup with sch := updQueue tSup.sch 0 fun l => { l with state := .resetting } }
       (s.queue 0).state = .resetting ∧ (s.queue 0).job = some 5 ∧ (tSup.queue 0).state ≠ .resetting)
    ∧ (bits (63#64 : DWord) 6 58 = 0 ∧ (tSup.queue 63).state = .idle ∧ (tSup.queue 0).state ≠ .idle ∧ (tSup.queue 0).job = some 5)
    ∧ (0x17FFCB0000 % 65536 = 0 ∧ 0x17FFCB0000 + 0x342000 ≤ 0x1800000000 ∧ bits (0x13F#64 : DWord) 6 2 = 0 ∧ bits (0x13F#64 : DWord) 9 55 = 0
      ∧ (0x13F#64 : DWord).getLsbD 8 = true ∧ (0x3F#64 : DWord).getLsbD 8 = false)
    ∧ (((pHeld .boundary none).queue 0).state = .held ∧ bits ((pHeld .boundary none).queue 0).cause 0 12 = 0x060 ∧ (pHeld .boundary none).buf = [])
    ∧ ({ LQueue.reset with state := .saved }).state = .saved := by decide +kernel

def tFly (left : Nat) (w : Landing) : InFlight := ⟨left, 0, 0, true, 0, w⟩

theorem witness_ResultsLand :
    ((tFly 0 (.scalar (.reg 63) 7)).sup = State.reset.k.priv ∧ 63 < 64 ∧ State.reset.regs.s.length = 64 ∧ State.reset.regs.sup.length = 16 ∧ 79 < State.reset.regs.v.length ∧ 15 < 16)
    ∧ State.reset.pipe.waits = []
    ∧ (let s : State := { State.reset with pipe := ⟨[tFly 1 (.scalar .queue 7)], [], []⟩ }
       ∀ x ∈ s.pipe.inflight, x.left ≠ 0)
    ∧ ({ State.reset with pipe := ⟨[tFly 0 (.scalar (.reg 1) 7)], [], []⟩ }.pipe.inflight = [tFly 0 (.scalar (.reg 1) 7)])
    ∧ ({ tRgn with reads := [.s 1] }.clash (landingUnits (.scalar (.reg 1) 7)) = true ∧ tRgn.clash (landingUnits (.scalar (.reg 1) 7)) = false) := by
  refine ⟨by decide, rfl, ?_, rfl, by decide⟩
  intro s x hx
  rw [List.mem_singleton.mp hx]
  decide

theorem witness_NextAddress :
    let pc : VAddr := State.reset.seq.pc
    let l (fin : VAddr) (count : BitVec 32) : LoopLevel := ⟨pc, fin, 0, count⟩
    (State.reset.seq.bun.fin.pushed = none ∧ State.reset.seq.bun.fin.skip = none ∧ State.reset.seq.bun.fin.leaves = 0 ∧ State.reset.seq.loops = [])
    ∧ ((l (pc + 16) 2).fin ≠ pc ∧ (l pc 2).fin = pc ∧ 1 < (l pc 2).count.toNat ∧ (l pc 1).count.toNat ≤ 1 ∧ ([l (pc + 16) 2].head?.map (·.fin)) ≠ some pc)
    ∧ ([⟨0, 4, 1, 32⟩, ⟨0, 4, 2, 64⟩, ⟨1, 3, 0, 96⟩].filter (fun (r : Redirect) => r.left == 0) = [⟨0, 4, 1, 32⟩, ⟨0, 4, 2, 64⟩]) := by decide

/-- One variable-latency result to come, by number 7. -/
def pWait (op : WaitOp) : State :=
  { tIn with pipe := ⟨[], [⟨7, 0, 1, false, true, some (.reg 1), none, 0, none, 0, true, .no, op⟩], []⟩, ev := { id := 7, walk := ⟨.fetch, 5, 0x10000000#48, .exec⟩ } }

theorem witness_ResultsArrive :
    (let ops : List WaitOp := [.direct 1, .tlbp 1, .window 0x100 .i32, .load 0x10000000#48 (.here 0x10000) physAttr .i32 0 none,
       .gather 0 0 1 .w4 false, .scatter 0x800000 0 0 1 .w4 false]
     ops.all fun op => match (pWait op).pipe.waits.find? (fun w => w.id == (pWait op).ev.id && w.outstanding) with | some w => w.op == op | none => false) = true
    ∧ (let s := pWait (.load 0x10000000#48 (.here 0x10000) physAttr .i32 0 none)
       s.loadWaits ⟨7, 0, 1, false, true, some (.reg 1), none, 0, none, 0, true, .no, .load 0x10000000#48 (.here 0x10000) physAttr .i32 0 none⟩ 0 0 = false
       ∧ s.poisoned 0x10000 = false ∧ { s with poison := [16] }.poisoned 0x10000 = true)
    ∧ (tIn.gatherLanes 4 (gatherAddrs 0 4 0 2048 0 1)).isOk = true
    ∧ (tIn.storesBefore 1 = true ∧ (tIn.scatterLanes 4 tIn.sp (scatterWrites 0x800000 4 0 2048 0 0 1)).2 = none)
    ∧ ((tIn.page .fetch 5 0x10000000#48 .exec 0).isOk = true ∧ tIn.page .fetch 5 0x20000000#48 .exec 0 = .error (.trap { cause := .pageNotPresent, eva := 0x20000000#48 })) := by
  decide +kernel

/-- One entry of job 5 in the buffer, by number 7. -/
def tEnt (op : BufOp) : BufEntry := ⟨7, 0, 0, 1, 5, pX.k.cube, 0, .draining, [], 0, op, false⟩
def pEnt (op : BufOp) : State := { pX with buf := [tEnt op], ev := { id := 7 } }

theorem witness_EntriesDrain :
    (let ops : List BufOp := [.store (.here 0x17FFFFFFFC) physAttr 0 4 1, .reduce (.here 0x10000) physAttr 0 .add false 1 0, .sigw 1#14 0x1000000 1, .sigw 0#14 0x1000000 1,
       .fence 0xFFFF#16 3, .copy (tCmd .linear true)]
     ops.all fun op => (pEnt op).buf.find? (fun x => x.id == (pEnt op).ev.id) == some (tEnt op) && (pEnt op).entryTurn (tEnt op)) = true
    ∧ (pX.poisoned 0x17FFFFFFFC = false ∧ { pX with poison := [0x17FFFFFFFC / 4096] }.poisoned 0x17FFFFFFFC = true)
    ∧ (pX.maySend 5 1#14 0 = true ∧ (pEnt (.sigw 1#14 0x1000000 1)).midStream (tEnt (.sigw 1#14 0x1000000 1)) = false)
    ∧ (1#14 ≠ pX.k.nodeId ∧ pX.lost 1#14 = false ∧ pX.flowRoom 5 1#14 0 = true ∧ pX.k.nodeId = 0#14 ∧ pX.ownedBy 5 (vaultOf 0x1000000) = true ∧ pX.eng.copies.length < 32)
    ∧ (0#14 = pX.k.nodeId ∧ pX.ownedBy 5 (vaultOf (31 * 0x800000)) = false) := by
  decide +kernel

theorem witness_VaultsChangeHands :
    (let v : Vault := ⟨.releasing, 5, some 5, false, 0⟩
     let s : State := { tOut with vaults := tOut.vaults.set 31 v, ev := { num := 31 } }
     s.vaults[s.ev.num]? = some v ∧ s.vaultInUse v.owner s.ev.num = false)
    ∧ (let v : Vault := ⟨.scrubbing, 5, some 4, false, 12288⟩
       let s : State := { tOut with vaults := tOut.vaults.set 31 v, ev := { num := 31 }, clock := 12288 }
       s.vaults[s.ev.num]? = some v ∧ v.scrubEnd ≤ s.clock ∧ Memory.wf s.sp = true)
    ∧ (let a : Acq := ⟨0, 5, 0, false, 0x80000000#32, 0⟩
       let b : Acq := ⟨0, 5, 0, true, 0x80000000#32, 1⟩
       let s (x : Acq) : State := { tOut with acqs := [x], sch := { tOut.sch with queues := tOut.sch.queues.set 1 { LQueue.reset with recs := [tRec], state := .acquiring } } }
       (s a).nextGrant = some a ∧ a.whole = false ∧ (s b).nextGrant = some b ∧ b.whole = true ∧ ((s b).queue b.queue).recs.head? = some tRec
       ∧ { (s a) with acqs := [] }.vaultsReady a.queue = false ∧ { (s b) with acqs := [] }.vaultsReady b.queue = true
       ∧ { (s b) with vaults := [], acqs := [] }.groupsOk tRec = true) := by decide +kernel

/-- No program runs; queue 1 is in state `q`. -/
def pIdle (q : QState) : State :=
  { tOut with
    sch := { Sched.reset with queues := (List.replicate 64 LQueue.reset).set 1 { LQueue.reset with recs := [tRec], state := q }, opened := true }
    ev := { num := 1 } }

theorem witness_QueuesStartAndStop :
    ((pIdle .ready).selects = some 1 ∧ (pIdle .ready).ev.num = 1 ∧ ((pIdle .ready).queue 1).state = .ready ∧ ((pIdle .ready).queue 1).recs.head? = some tRec)
    ∧ ((pIdle .saved).selects = some 1 ∧ ((pIdle .saved).queue 1).state = .saved)
    ∧ ({ tIn with sch := { tIn.sch with preempt := some 0 } }.graceOver = true ∧ tIn.rgn = some tRgn ∧ tIn.seq.stall = none)
    ∧ ({ tIn with k := { tIn.k with wdbudget := 1 } }.watchdogDue = true ∧ { tOut with k := { tOut.k with wdbudget := 1 } }.watchdogDue = true
      ∧ { tIn with k := { tIn.k with wdbudget := 1 }, rgn := some { tRgn with committing := true } }.watchdogDue = true)
    ∧ (let s : State := { pHeld .fatal none with clock := 4097, ev := { num := 0 } }
       s.serviceDue s.ev.num = true ∧ (s.queue s.ev.num).job = some 5) := by decide +kernel

/-! Links and the routed fabric: links 0 and 1 up and usable. -/

def pF : State := { pX with fab := { pX.fab with rtcfg := pX.fab.rtcfg ||| 3#64 } }
def pPkt (p : Packet) : State := { pF with ev := { dim := 0, packet := p } }

/-- Packets of job 5 from node 1: a write of four bytes to 0x4000_0000_0000 (KIND 6, flow 0), and the answer to a request (KIND 5). -/
def tWrite (r : RouteInfo) : Packet := routedPacket 6 0 1#14 0#14 5 r (List.replicate 64 1#8)
def tWr : RouteInfo := { flow := 0, type := 4, rtag := 9, addr := 0x400000000000#48 }
def tAnswer (status : Nat) : Packet := routedPacket 5 1 1#14 0#14 5 { status := status, rtag := 9, d3 := 7#64 } []
def tSeqAck (last : Nat) : Packet := routedPacket 10 1 1#14 0#14 5 { d3 := BitVec.ofNat 64 last } []

set_option maxRecDepth 20000 in
theorem witness_LinksAndRouting :
    (pF.fab.links[0]? = some .reset ∧ pF.fab.links[13]? = some .reset)
    ∧ ((tWrite tWr).lseq = Link.reset.expect ∧ (tWrite tWr).lane = 0 ∧ (tWrite tWr).seal.told = none)
    ∧ (tPost.seal.lseq = 0 ∧ tPost.seal.told = none ∧ tPost.seal.lane = 1 ∧ tPost.seal.kind < 4 ∧ tPost.seal.dst = pF.k.nodeId
       ∧ tPost.seal.row = some .exchangePostArrival ∧ tPost.seal.lseq ≠ (1 : BitVec 8))
    ∧ (Link.reset.asking = false ∧ { Link.reset with expect := 1, asking := true }.asking = true)
    ∧ (linkState pF.k.linkstat 0 ≠ 3 ∧ ((1 : BitVec 8) - 0).toNat ≤ 64 ∧ 64 < ((0 : BitVec 8) - 1).toNat
      ∧ (let l : Link := { Link.reset with replaying := true, failed := 7 }
         8 ≤ (if l.replaying then l.failed + 1 else l.failed)) ∧ ¬ (8 ≤ Link.reset.failed))
    ∧ (linkState pF.k.linkstat 0 = 1 ∧ pF.err.links.getLsbD 0 = false ∧ { pF.err with links := 1 }.links.getLsbD 0 = true)
    ∧ (let o : Outbound := ⟨3, tWrite tWr, none, 0, false⟩
       let l : Link := { Link.reset with ready := [⟨1, tPost, none, 0, false⟩, o] }
       l.detoured = 0 ∧ l.replay.length < 64 ∧ pF.err.selft = none ∧ l.ctlLast = false ∧ l.inUse 3 < 16 ∧ l.ready.find? (fun x => x.lane == 3) = some o) := by
  decide +kernel

set_option maxRecDepth 20000 in
theorem witness_LinksAndRouting_intact : tPost.seal.intact = true := by decide +kernel

set_option maxRecDepth 20000 in
theorem witness_LinksAndRouting_damaged : (tWrite tWr).intact = false := by decide +kernel

set_option maxRecDepth 20000 in
theorem witness_LinksAndRouting_intactWrite : (tWrite tWr).seal.intact = true := by decide +kernel

/-- What waits for the link of dimension 0: a packet that has come for the detour, one that may not go, and the tokens of generation 0. -/
theorem witness_LinksAndRouting_waiting :
    (let o : Outbound := ⟨1, controlPacket 0#14 1#14 0 12, none, 0, false⟩
     let l : Link := { Link.reset with detoured := 2, ready := [⟨0, tWrite tWr, none, 0, false⟩, o] }
     l.detoured ≠ 0 ∧ l.replay.length < 64 ∧ o.lane ≠ 4 ∧ l.ready.find? (fun o => o.packet.detourAck) = some o)
    ∧ (let o : Outbound := ⟨0, tWrite tWr, some (0, 1), 0, false⟩
       let s : State := { pF with fab := updLink pF.fab 0 fun l => { l with detoured := 2, ready := [o] }, ev := { flag := true }, clock := 28800 }
       ((s.fab.links[0]?).bind fun l => l.ready[s.ev.id]?) = some o ∧ o.adaptive = true ∧ o.suspect = false ∧ s.leaving 0 ≠ some o
       ∧ o.since + suspectTime s.fab ≤ s.clock)
    ∧ (let q := routedPacket 11 1 1#14 0#14 0 { d3 := 1#64 } []
       let f : Fab := { pF.fab with token := { pF.fab.token with maxGen := 2 } }
       q.kind = 11 ∧ q.lseq = Link.reset.expect ∧ q.told = none ∧ bits (q.dw 3) 0 32 < f.token.maxGen.toNat) := by decide +kernel

/-- A packet for `dst` in the buffer of an input. -/
def pBuf (input : Nat) (src dst : BitVec 14) : State :=
  { pF with fab := { pF.fab with bufs := [⟨0, input, 0, routedPacket 6 0 src dst 5 tWr [], false⟩] } }

theorem witness_LinksAndRouting_route :
    (let s := pBuf 0 1#14 0#14
     s.fab.bufs[0]? = some ⟨0, 0, 0, routedPacket 6 0 1#14 0#14 5 tWr [], false⟩ ∧ s.fab.atHead 0 = true ∧ (routedPacket 6 0 1#14 0#14 5 tWr []).nonmin = false
     ∧ (routedPacket 6 0 1#14 0#14 5 tWr []).dst = s.k.nodeId)
    ∧ (let s := pBuf 0 1#14 2#14
       (differ s.k.nodeId 2#14).filter (usable s.fab) = [1] ∧ (2#14 : BitVec 14) ≠ s.k.nodeId)
    ∧ (let s := pBuf 0 1#14 4#14
       (differ s.k.nodeId 4#14).filter (usable s.fab) = [])
    ∧ (pBuf 14 1#14 2#14).fab.atHead 0 = true
    ∧ (let full (s : State) : State := { s with fab := updLink s.fab 1 fun l => { l with used := [4, 0, 0, 0, 0] } }
       occOf (pBuf 0 1#14 2#14).fab 1 = 0 ∧ occOf (full (pBuf 0 1#14 2#14)).fab 1 = 4
       ∧ (full (pBuf 0 1#14 2#14)).canRoute 0 = false)
    ∧ (0 + suspectTime pF.fab ≤ 28800) := by decide +kernel

/-- A flow of this node to node 1 with one packet, number 0, not acknowledged; the request 9 of a store that has been sent. -/
def tOwn : Packet := routedPacket 6 0 0#14 1#14 5 tWr (List.replicate 64 1#8)
def pFlow (tries : Nat) : State :=
  { pF with
    fab := { pF.fab with tx := [⟨5, 1, 0, 1, [(0, tOwn)], 0, tries, false, false⟩], reqs := [⟨9, 5, 1, 0, .bufDrain 7, [], false⟩] }
    buf := [{ tEnt (.store (.remote 1#14 0x400000000000#48) physAttr 0 4 1) with state := .sent, out := [9] }]
    ev := { job := 5, peer := 1, flow := 0, packet := tSeqAck 0 }, clock := 115200 }

theorem witness_FlowsAndResponses_flows :
    (let s := pPkt (tWrite tWr)
     let p := tWrite tWr
     let r := s.fab.flowFrom p.job p.src p.flow
     p.reserved = false ∧ p.flow ≠ 31 ∧ p.kind = 6 ∧ p.check = false ∧ p.nflit ≠ 0 ∧ p.eseq = r.expect ∧ r.marked = [] ∧ r.pool = [] ∧ s.fab.serial = [] ∧ p.space ≠ 2 ∧ p.payload ≠ [] ∧ p.addr.toNat % 128 + p.payload.length ≤ 128
     ∧ (s.targetLoc p.job p.space p.addr p.payload.length true).toOption.map (·.1) = some (.here 0x20000))
    ∧ ((tWrite { tWr with status := 7 }).reserved = true ∧ (tWrite { tWr with flow := 31 }).flow = 31)
    ∧ ({ (pF.fab.flowFrom 5 1 0) with ackDue := some 64 }.ackDue.isSome = true)
    ∧ ((pFlow 0).fab.flowTo 5 1 0 = ⟨5, 1, 0, 1, [(0, tOwn)], 0, 0, false, false⟩ ∧ acked 0 0xFFF 0 (0, tOwn) = false ∧ acked 0 0 0 (0, tOwn) = true
      ∧ bits ((tSeqAck 0).dw 3) 12 5 = 0 ∧ tOwn.check = false ∧ tOwn.kind = 6 ∧ tOwn.rtag = 9)
    ∧ ((pFlow 0).fab.reqs.find? (fun x => x.rtag == tOwn.rtag) = some ⟨9, 5, 1, 0, .bufDrain 7, [], false⟩ ∧ ((pFlow 0).buf.find? (fun x => x.id == 7)).map (fun b => (b.state, b.out)) = some (.sent, [9]))
    ∧ (0 + 115200 ≤ (pFlow 0).clock ∧ 7 < 8 ∧ 8 ≤ ((pFlow 8).fab.flowTo 5 1 0).tries)
    ∧ (let f : TxFlow := ⟨5, 1, 0, 1, [], 0, 0, false, false⟩
       let s : State := { pF with fab := { pF.fab with tx := [f] }, ev := { job := 5, peer := 1, flow := 0 }, clock := 1800000 }
       s.ev.flag = false ∧ s.fab.flowTo 5 1 0 = f ∧ f ∈ s.fab.tx ∧ f.unacked = [] ∧ f.retiring = false ∧ f.since + 1800000 ≤ s.clock)
    ∧ ({ flag := true } : EventArgs).num = 0 ∧ ({ flag := true, num := 1 } : EventArgs).num ≠ 0
    ∧ ({ pF.fab with tx := [⟨5, 1, 0, 1, [], 0, 0, false, true⟩] }.flowTo 5 1 0).retiring = true := by decide +kernel

/-- The request 9, of `who`, and its answer. -/
def pReq (who : ReqFor) (status : Nat) : State :=
  { pWait (.load 0x10000000#48 (.remote 1#14 0x10000000#48) physAttr .i32 0 (some 9)) with
    fab := { tIn.fab with reqs := [⟨9, 5, 1, 0x10000000#48, who, [], false⟩] }, ev := { packet := tAnswer status }, buf := [tEnt (.fence 0 0)] }

theorem witness_FlowsAndResponses_responses :
    ([ReqFor.atomic 0, .direct 1, .atomicCheck, .peek 0 0x10000, .bufCheck 7, .wait 7].all fun w =>
      (pReq w 0).fab.reqs.find? (fun x => x.rtag == (pReq w 0).ev.packet.rtag) == some ⟨9, 5, 1, 0x10000000#48, w, [], false⟩) = true ∧ (tAnswer 0).payload = []
    ∧ ((tAnswer 0).status = 0 ∧ (tAnswer 1).status = 1 ∧ (tAnswer 3).status = 3 ∧ (tAnswer 4).status = 4 ∧ (tAnswer 5).status = 5)
    ∧ ((pReq (.bufCheck 7) 0).buf.find? (fun x => x.id == 7) = some (tEnt (.fence 0 0)))
    ∧ ((pReq (.wait 7) 0).pipe.waits.find? (fun w => w.id == 7 && w.outstanding)).isSome = true := by decide +kernel

def tToken (gen : Nat) : Packet := routedPacket 11 1 1#14 0#14 0 { d3 := BitVec.ofNat 64 gen } []
def tProbe (src : BitVec 14) : Packet := routedPacket 12 1 src 0#14 5 { d3 := 0x77#64 } []

theorem witness_FlowsAndResponses_tokens :
    (BitVec.ofNat 32 (bits ((tToken 0).dw 3) 0 32) < (1 : BitVec 32) ∧ (1 : BitVec 32) ≤ BitVec.ofNat 32 (bits ((tToken 1).dw 3) 0 32) ∧ pF.fab.bufs = [] ∧ ∀ l ∈ pF.fab.links, l.ready = [])
    ∧ (let s : State := { pF with fab := { pF.fab with token := { pF.fab.token with held := false, waiting := true } }, clock := 1373 * 65536 }
       s.fab.token.waiting = true ∧ s.tokenLost = true ∧ s.lowestLive = true)
    ∧ (let q : Probe := ⟨0, 0x77, 0x1000000, 1800000, 5⟩
       let s : State := { pF with fab := { pF.fab with probes := [q] }, ev := { packet := tProbe 0#14 }, clock := 1800000 }
       (tProbe 0#14).src = s.k.nodeId ∧ s.fab.probes.find? (fun q => q.tag == BitVec.ofNat 16 (bits ((tProbe 0#14).dw 3) 0 16) && q.job == (tProbe 0#14).job) = some q
       ∧ s.fab.probes.find? (fun q => q.id == s.ev.id) = some q ∧ q.due ≤ s.clock ∧ s.ownedBy 5 (vaultOf q.addr) = true ∧ s.ownedBy 5 31 = false)
    ∧ ((tProbe 1#14).src ≠ pF.k.nodeId ∧ pF.blocked 5 = false) := by decide +kernel

theorem witness_NoticesBetweenNodes :
    (let s : State := { tSup with ev := { packet := shootPacket 1 0 5 0x10000000#64 7 } }
     s.rangeLeaves 5 ((shootPacket 1 0 5 0x10000000#64 7).dw 4) = []
     ∧ { s with hbm := tTables 0x1001 0x4000 0x1022F }.rangeLeaves 5 ((shootPacket 1 0 5 0x10000000#64 7).dw 4) = [(0x4000, 0x1022F#64, 4, 0x1000)]
     ∧ Memory.wf (tTables 0x1001 0x4000 0x1022F) = true ∧ 0x4000 + 8 ≤ hbmEnd)
    ∧ (let h : Shoot := ⟨0, 5, 1, 0x10000000#64, 7, [], false⟩
       let s : State := { tSup with fab := { tSup.fab with shoots := [h] } }
       s.fab.shoots.find? (fun h => h.id == s.ev.id) = some h ∧ s.holding (some 5) (some 0x10000000#64) = false)
    ∧ (tSup.fencedJob 5 = false ∧ { tSup with err := { tSup.err with fenced := [5] } }.fencedJob 5 = true)
    ∧ ((pHeld .region none).queue 0).job = some 5 ∧ ((pHeld .region none).queue 0).state = .held ∧ ((pHeld .region none).queue 0).hold ≠ .fatal
    ∧ (((pHeld .fenced none).queue 0).hold = .fenced ∧ ((pHeld .loss none).queue 0).hold = .loss ∧ (tOut.queue 1).job ≠ some 5
      ∧ 0 < tOut.sch.queues.length ∧ (tOut.queue 0).job = some 5 ∧ (tOut.queue 0).state = .running)
    ∧ ((1#14 : BitVec 14) ∉ tOut.fab.dead ∧ (1#14 : BitVec 14) ∈ [1#14]) := by decide +kernel

theorem witness_ErrorsAreTaken :
    (0x17FFFFFFFF / 4096 ∉ tOut.poison ∧ 16 ∈ [16])
    ∧ ((∀ x ∈ [(⟨2, false, .normal, 0⟩ : L2Line)], x.line = 0x100 / 128 → x.dirty = false)
      ∧ (⟨2, true, .normal, 0⟩ : L2Line).line = 0x17F / 128 ∧ (⟨2, true, .normal, 0⟩ : L2Line).dirty = true)
    ∧ (tIn.k.priv = false ∧ tIn.sch.running.isSome = true ∧ tIn.err.selft = none ∧ tIn.seq.stall = none)
    ∧ (tIn.closing = false ∧ { tIn with rgn := some { tRgn with committing := true } }.closing = true)
    ∧ (TUnit.p 15 ∈ { tRgn with writes := [.p 15] }.writes ∧ TUnit.p 15 ∉ tRgn.writes)
    ∧ (let c := { tCmd .linear false with admitted := true }
       (pCmd c).eng.copies.find? (fun x => x.id == (pCmd c).ev.id && x.admitted) = some c)
    ∧ (TUnit.s 63 ∈ { tRgn with writes := [.s 63] }.writes ∧ TUnit.s 63 ∉ tRgn.writes ∧ tOut.rgn = none)
    ∧ (let t : Selft := ⟨3, 31, 0, 0⟩
       let s : State := { tSup with err := { tSup.err with selft := some t } }
       s.err.selft = some t ∧ s.isQuarantined 3 31 = false ∧ s.err.untested = [] ∧ s.err.engine = [] ∧ s.heldQueue = none) := by decide +kernel

theorem witness_HostWindows_offsets :
    (let n := 2 ^ State.reset.hst.window / 4
     let wide := 2 ^ 39 / 4
     (0xFFFFFF8 / n = State.reset.k.nodeId.toNat % 4 ∧ State.reset.hst.mwbase.toNat / n * n + 0xFFFFFF8 % n + 8 ≤ hbmEnd)
     ∧ (0x17FFFFFFF9 / wide = State.reset.k.nodeId.toNat % 4 ∧ hbmEnd < State.reset.hst.mwbase.toNat / wide * wide + 0x17FFFFFFF9 % wide + 8)
     ∧ n / n ≠ State.reset.k.nodeId.toNat % 4)
    ∧ (let a : EventArgs := { num := 2, off := 0x1F8, count := 8 }
       a.flag = false ∧ a.off = State.reset.k.nodeId.toNat % 4 * 0x10000 + (0x100 + 8 * 31) ∧ State.reset.vaults[31]? = some .reset ∧ Vault.reset.state = .free
       ∧ tOut.vaults[2]? = some tOwned ∧ tOwned.state ≠ .free ∧ 0xFFF8 % 8 = 0)
    ∧ (let a : EventArgs := { flag := true, off := 0xD0, bytes := toBytes 8 7 }
       a.bytes = toBytes 8 (7#64 : DWord).toNat ∧ a.off = State.reset.k.nodeId.toNat % 4 * 0x10000 + 0x0D0
       ∧ 0x10000 / 0x10000 ≠ State.reset.k.nodeId.toNat % 4 ∧ 0x10000 < 0x40000)
    ∧ ((2 ^ 39 : Nat) = (BitVec.ofNat 64 (2 ^ 39)).toNat ∧ (BitVec.twoPow 64 30).toNat = 2 ^ 30 ∧ ∀ i, i < 40 → (3#64 : DWord).toNat = 2 ^ i → i < 30)
    ∧ (State.reset.hst.msixPend.length = 8 ∧ (∀ i, i < 8 → i ≠ 7 → (State.reset.hst.msixPend.set 7 true)[i]? = some false) ∧ State.reset.hst.msixFun = false) := by decide +kernel

theorem witness_HostWindows :
    (let a : EventArgs := { flag := true, off := 0x3F048, count := 8 }
     a.off = State.reset.k.nodeId.toNat % 4 * 0x40000 + 63 * 0x1000 + 0x048 ∧ (State.reset.queue 63).state ≠ .running ∧ (tOut.queue 0).state = .running
       ∧ 0xFF8 % 8 = 0)
    ∧ (State.reset.hst.traceQ = [] ∧ State.reset.hst.hint = 0 ∧ State.reset.hst.featSet = false ∧ pL.hst.featSet = true)
    ∧ (State.reset.leafAt 5 0x1000 = none)
    ∧ (let s : State := { State.reset with hbm := tTables 0x1001 0x4000 0x1022F }
       s.leafAt 5 0x1000 = some (0x4000, 0x1022F#64, 4) ∧ pageLines s.l2 0x1022F#64 4 0x1000 = []
       ∧ pageLines [⟨0x200, false, .normal, 1⟩] 0x1022F#64 4 0x1000 = [⟨0x200, false, .normal, 1⟩])
    ∧ (7 < 8 ∧ State.reset.hst.msixMask.length = 8 ∧ State.reset.hst.msixPend[7]? = some false ∧ (State.reset.hst.msixPend.set 7 true)[7]? = some true)
    ∧ (500 ≤ (500#64 : DWord).toNat ∧ (3200#64 : DWord).toNat ≤ 3200 ∧ (499#64 : DWord).toNat < 500 ∧ 3200 < (3201#64 : DWord).toNat) := by decide +kernel

theorem witness_PackageActs :
    (2 ≤ (2#2 : BitVec 2).toNat ∧ (1#2 : BitVec 2).toNat < 2 ∧ State.reset.hst.pstate ≠ 3)
    ∧ (State.reset.sch.queues.all fun l => l.state != .running && l.state != .saved && l.state != .held) = true
    ∧ ((0#64 : DWord).toNat ≤ 1 ∧ (1#64 : DWord).toNat ≤ 1 ∧ 1 < (2#64 : DWord).toNat)
    ∧ (State.reset.hst.attest ≠ 1 ∧ State.reset.hst.counter < 2 ^ 20 ∧ 2 ^ 20 ≤ 1048576 ∧ State.reset.jobsHere = [])
    ∧ ({ State.reset.hst with pstate := 3 }.pstate = 3 ∧ { State.reset.hst with attest := 1, index := some 0 }.index = some 0)
    ∧ (let h (b : BitVec 8) (f : Nat) : Hst := { State.reset.hst with brstat := b, bring := some ⟨0x3FFF, 2, f, 64⟩ }
       ([0, 0x10, 0x20, 0x30, 0x40, 0x50, 0x60].map fun b => (h b 0).brstat.toNat / 16 + 1) = [1, 2, 3, 4, 5, 6, 7]
       ∧ (h 0x40 5).bring = some ⟨0x3FFF, 2, 5, 64⟩ ∧ (h 0x40 5).brstat.toNat / 16 + 1 = 5 ∧ 5 ≤ 6 ∧ State.reset.clock < 64 ∧ State.reset.tokenLost = false) := by
  decide +kernel

/-- Whether an image is genuine is the model's free value; either case is one of the clauses. -/
theorem witness_PackageActs_image : (∃ b, State.reset.hst.genuine 0 = b) ∧ (∃ b, State.reset.hst.genuine 1 = b) := ⟨⟨_, rfl⟩, _, rfl⟩

theorem witness_SupervisorEntry :
    (tIn.k.priv = false ∧ tIn.rgn = some tRgn ∧ Cause.budget.class_ ≠ 3 ∧ tOut.seq.dueTrap = none ∧ tOut.seq.pend = none ∧ tOut.sch.preempt = none)
    ∧ (⟨.hostInterrupt, 0, 0, false, none⟩ : Notice).urgent = false := by decide

theorem witness_TrapsAreTaken :
    (Cause.pageNotPresent.class_ ≠ 3 ∧ Cause.privilege.class_ = 2 ∧ tIn.k.priv = false ∧ tIn.rgn = some tRgn ∧ tIn.sch.running = some 0 ∧ 0 < tIn.sch.queues.length)
    ∧ (tIn.k.retrace < 5 ∧ ¬ tIn.k.retrace < 4)
    ∧ (tOut.k.priv = false ∧ tOut.rgn = none ∧ tSup.k.priv = true) := by decide +kernel

theorem witness_QueuesAge :
    (State.reset.regs.q.length = 16 ∧ 0 + 15 < 16 ∧ 14 < 15)
    ∧ (let w : Wait := ⟨7, 0, 0, true, false, some (.reg 1), none, 0, none, 0, true, .no, .direct 5⟩
       let s : State := { State.reset with pipe := ⟨[], [w], []⟩, regs := { Regs.reset with q := .pending 7 :: List.replicate 15 .empty } }
       w.sd ≠ none ∧ s.pipe.waits.find? (fun x => x.id == w.id && x.outstanding) = some w ∧ s.regs.q[0]? = some (.pending w.id) ∧ s.regs.q[1]? ≠ some (.pending w.id))
    ∧ (let w : Wait := ⟨7, 0, 0, true, false, none, some (.reg 1), 1, none, 0, true, .no, .direct 5⟩
       let s : State := { State.reset with pipe := ⟨[], [w], []⟩, regs := { Regs.reset with qv := .pending 7 :: List.replicate 15 .empty } }
       s.pipe.waits.find? (fun x => x.id == w.id && x.outstanding) = some w ∧ s.regs.qv.length = 16 ∧ s.regs.qv[0]? = some (.pending w.id)
       ∧ s.regs.qv[1]? ≠ some (.pending w.id)) := by decide +kernel

/-! The whole machine -/

theorem witness_StepKeepsInvariant : State.reset.Inv :=
  ⟨rfl, rfl, rfl, rfl, by intro y h; rw [List.eq_of_mem_replicate h]; decide, by decide, by decide, by decide⟩

/-- The words of a bundle with MOVI S7, −5 in slot s0, at the program counter after reset. -/
def pStep : State := State.reset.withFetchWord 32 0x107FFFFB

theorem witness_StepRunsBundle_fetches : pStep.fetches := by
  refine ⟨rfl, by decide +kernel, by decide +kernel, rfl, rfl, rfl, rfl, rfl, rfl, rfl, .inl rfl, rfl, ?_, rfl, by decide +kernel, by decide +kernel, by decide +kernel, rfl, rfl,
    .inl rfl, ?_, fun _ => .inl rfl⟩
  · intro e h
    cases h
  · intro r h
    cases h

theorem witness_StepRunsBundle :
    (pStep.fetchAt pStep.seq.pc).toOption.map (·.loc) = some (.here 0x17FE000040)
    ∧ (let ws := pStep.wordsAt 0x17FE000040
       ws = [0x107FFFFB, 0, 0, 0] ∧ fMaj 0x107FFFFB ≠ 0x3F ∧ decodeSlot 0x107FFFFB .none = .ok ⟨0, false, .movi (.reg 7) (-5)⟩
       ∧ pStep.gate ws = .go [(0, ⟨0, false, .movi (.reg 7) (-5)⟩), (1, ⟨0, false, .nop⟩), (2, ⟨0, false, .nop⟩), (3, ⟨0, false, .nop⟩)])
    ∧ pStep.gate [0xE0000000, 0, 0, 0] = .trap 0 { cause := .illegalEncoding }
    ∧ { pStep with pipe := ⟨[], [⟨7, 0, 0, true, false, some (.reg 7), none, 0, none, 3, false, .no, .direct 5⟩], []⟩ }.gate [0x107FFFFB, 0, 0, 0] ≠ pStep.gate [0x107FFFFB, 0, 0, 0]
    ∧ (pStep.storePending (.here 0x17FE000040) pStep.seq.pc 16 = false ∧ pStep.codeMoves pStep.seq.pc.toNat = false ∧ pStep.mustWait ⟨.hostInterrupt, {}⟩ = false
      ∧ { tOut with buf := [⟨0, 0, 0, 1, 5, tOut.k.cube, 0, .draining, [], 0, .reduce (.here 0x10000) physAttr 0x10000000 .add false 1 0, false⟩] }.codeMoves
          tOut.seq.pc.toNat = true)
    ∧ ({ State.reset with inbox := [⟨.hostInterrupt, {}⟩] }.inbox = [⟨.hostInterrupt, {}⟩] ∧ (pIdle .ready).forced = some ⟨.queueStart, { num := 1 }⟩) := by
  decide +kernel

theorem witness_DecodeOfEncode : (⟨15, true, .add (.reg 63) (.reg 63) (.q 15) .z64⟩ : Slot).wf = true ∧ (⟨0, false, .movi .queue (-134217728)⟩ : Slot).wf = true
    ∧ (⟨0, false, .amx .cas (.reg 47) 46 (.q 15) 7 .z64⟩ : Slot).wf = true := by decide +kernel

/-! ## Steps on small states: what one instruction leaves, against values worked out from the spec by hand -/

/-- The scalar value that the newest result in flight carries, its latency (R38), and its flags. -/
def tValue (o : Host.Outcome State Fault Refusal) : Option (DWord × Nat × Flags) :=
  match o with
  | .next s => s.pipe.inflight.getLast?.bind fun f => match f.what with | .scalar _ v => some (v, f.left, f.flags) | _ => none
  | _ => none

def tPred (o : Host.Outcome State Fault Refusal) : Option Bool :=
  match o with
  | .next s => s.pipe.inflight.getLast?.bind fun f => match f.what with | .pred _ v => some v | _ => none
  | _ => none

/-- Lane `i` of `w` bytes of the newest vector result. -/
def tLaneOf (w i : Nat) (o : Host.Outcome State Fault Refusal) : Option Nat :=
  match o with
  | .next s => s.pipe.inflight.getLast?.bind fun f => match f.what with | .vector _ v _ => some (laneVal w v i) | _ => none
  | _ => none

def tNext (o : Host.Outcome State Fault Refusal) : State := match o with | .next s => s | _ => .reset

/-- S1, S2 and S3 at the given values, outside region mode. -/
def tS (a b c : DWord) : State := withS tOut [(1, a), (2, b), (3, c)]
def tV (a b : Nat) : State := { tOut with regs := { tOut.regs with v := (tOut.regs.v.set 1 (BitVec.ofNat 65536 a)).set 2 (BitVec.ofNat 65536 b) } }

/-- R53, R72: an i32 result wraps and is sign-extended, a z32 result zero-extended. -/
theorem test_add_wraps : tValue (exec (.add (.reg 4) (.reg 1) (.reg 2) .i32) (tS 0x7FFFFFFF 1 0)) = some (0xFFFFFFFF80000000, 1, 0)
    ∧ tValue (exec (.add (.reg 4) (.reg 1) (.reg 2) .z32) (tS 0xFFFFFFFF 0x80000001 0)) = some (0x80000000, 1, 0) := by decide +kernel
theorem test_mulh_signs : tValue (exec (.mulh (.reg 4) (.reg 1) (.reg 2) .i32) (tS 0x80000000 2 0)) = some (0xFFFFFFFFFFFFFFFF, 3, 0)
    ∧ tValue (exec (.mulh (.reg 4) (.reg 1) (.reg 2) .z32) (tS 0x80000000 2 0)) = some (1, 3, 0) := by decide +kernel
/-- R73. -/
theorem test_div_corners : tValue (exec (.div (.reg 4) (.reg 1) (.reg 2) .i32) (tS 7 0 0)) = some (0xFFFFFFFFFFFFFFFF, 18, 1)
    ∧ tValue (exec (.div (.reg 4) (.reg 1) (.reg 2) .i32) (tS 0x80000000 0xFFFFFFFF 0)) = some (0xFFFFFFFF80000000, 18, 0) := by decide +kernel
theorem test_rem_sign : tValue (exec (.rem (.reg 4) (.reg 1) (.reg 2) .i64) (tS (-7) 2 0)) = some (-1, 18, 0) := by decide +kernel
/-- R74: a shift counts with the low five bits at 32 bits. -/
theorem test_shift_counts : tValue (exec (.shl (.reg 4) (.reg 1) (.reg 2) .z32) (tS 1 33 0)) = some (2, 1, 0)
    ∧ tValue (exec (.rot (.reg 4) (.reg 1) (.reg 2) .z64) (tS 0x8000000000000001 65 0)) = some (3, 1, 0) := by decide +kernel
theorem test_bits : tValue (exec (.bexs (.reg 4) (.reg 1) 4 4) (tS 0xF5 0 0)) = some (0xFFFFFFFFFFFFFFFF, 1, 0)
    ∧ tValue (exec (.bins 3 (.reg 1) 8 4) (tS 0x1F 0 0)) = some (0xF00, 1, 0) := by decide +kernel
theorem test_clz : tValue (exec (.clz (.reg 4) (.reg 1) .z32) (tS 0x1FFFF 0 0)) = some (15, 1, 0)
    ∧ tValue (exec (.popc (.reg 4) (.reg 1) .i64) (tS 0xFF00 0 0)) = some (8, 1, 0) := by decide +kernel
theorem test_movk : tValue (exec (.movk 1 1 0x0178) (tS 0x122 0 0)) = some (0x01780122, 1, 0) := by decide +kernel
theorem test_lea : tValue (exec (.lea (.reg 4) (.reg 1) (.reg 2) 3 (-8)) (tS 0x100 4 0)) = some (0x118, 1, 0) := by decide +kernel

/-- R80: -0 equals +0; a NaN is unordered. -/
theorem test_cmp_float : tPred (exec (.cmpEq .set 1 (.reg 1) (.reg 2) .f32) (tS 0x80000000 0 0)) = some true
    ∧ tPred (exec (.cmpNe .set 1 (.reg 1) (.reg 2) .f32) (tS 0x7FC00000 0 0)) = some true := by decide +kernel
theorem test_cmp_signed : tPred (exec (.cmpLt .set 1 (.reg 1) (.reg 2) .i32) (tS 0xFFFFFFFF 0 0)) = some true
    ∧ tPred (exec (.cmpLt .set 1 (.reg 1) (.reg 2) .z32) (tS 0xFFFFFFFF 0 0)) = some false := by decide +kernel

/-- IEEE 754: 1 + 2^-24 is a tie, which goes to the even neighbour, inexact (R150: the flags INEXACT 0x010). -/
theorem test_sfadd_tie : (tValue (exec (.sfadd (.reg 4) (.reg 1) (.reg 2)) (tS 0x3F800000 0x33800000 0))).map (·.1) = some 0x3F800000 := by decide +kernel
/-- 3 × 5 + (-15) is +0 exactly. -/
theorem test_sfma_exact : tValue (exec (.sfma 3 (.reg 1) (.reg 2)) (tS 0x40400000 0x40A00000 0xC1700000)) = some (0, 4, 0) := by decide +kernel
theorem test_sfmax_nan : (tValue (exec (.sfmax (.reg 4) (.reg 1) (.reg 2)) (tS 0x7FC00001 0x40000000 0))).map (·.2) = some (4, 0) := by decide +kernel

/-- R88, R92: a taken BRA goes to PC + 16 × offset after two delay bundles; a misaligned BRI raises cause 0x054 at once, fatal outside region mode. -/
theorem test_bra : (tNext (exec (.bra 0 false (-2)) tOut)).seq.redirects.map (·.target) = [0xFFFFFE0#48] := by decide +kernel
theorem test_bri_misaligned : (tNext (exec (.bri (.reg 1)) (tS 0x10000008 0 0))).k.priv = true := by decide +kernel
theorem test_call_link : tValue (exec (.call 4) tOut) = some (0x10000040, 1, 0) := by decide +kernel

/-- R250: an access that is no multiple of its width discards the region, and EVA holds its address. -/
theorem test_ld_misaligned : let t := tNext (exec (.ld (.reg 4) (.reg 1) 0 0 .i32) (withS tIn [(1, 0x400000000002)]))
    t.k.priv = true ∧ t.k.eva = 0x400000000002#48 ∧ t.k.epc = 0x10000000#48 := by decide +kernel
theorem test_st_buffered : (tNext (exec (.st (.reg 2) (.reg 1) 1 0 .i32) (withS tIn [(1, 0x400000000000), (2, 5)]))).buf.map (·.op) =
    [.store (.here 0x20004) ⟨1, false, .normal, false⟩ 0x400000000004 4 5] := by decide +kernel

/-- R169: 1.5 + 2.25 = 3.75 in lane 0, 1 + 1 = 2 in lane 1. -/
theorem test_vadd_lanes : let o := exec (.vadd (.reg 3) (.reg 1) (.reg 2) .f32) (tV (0x3FC00000 + 0x3F800000 * 2 ^ 32) (0x40100000 + 0x3F800000 * 2 ^ 32))
    tLaneOf 4 0 o = some 0x40700000 ∧ tLaneOf 4 1 o = some 0x40000000 ∧ tLaneOf 4 2 o = some 0 := by decide +kernel
theorem test_visub_wraps : tLaneOf 4 0 (exec (.visub (.reg 3) (.reg 1) (.reg 2) false) (tV 0 1)) = some 0xFFFFFFFF := by decide +kernel
theorem test_vcvt_narrow : tLaneOf 2 0 (exec (.vcvt (.reg 3) (.reg 1) 0 1 0 none) (tV 0x3FC00000 0)) = some 0x3FC0 := by decide +kernel

/-- "A long cell worked to the bit": the three products at anchor 94, and the drain of 5 × 0.25 to bf. -/
theorem test_long_cell : let p (a b : Nat) : Cell → Cell := fun c => (stepCell 94 1 (some [fmtE4.decode a]) (some [fmtE4.decode b]) c).1
    let c := p 0xA0 0x38 (p 0x2C 0x38 (p 0x39 0x32 .zero))
    c.n = 5#128 ∧ c.count = 3 ∧ c.toFloat fmtBf 94 .rne false 0 = (0x3FA0, 0) := by decide +kernel
/-- The same at the anchor −14 that MANCH gives: exact. -/
theorem test_long_cell_exact : let p (a b : Nat) : Cell → Cell := fun c => (stepCell (-14) 1 (some [fmtE4.decode a]) (some [fmtE4.decode b]) c).1
    let c := p 0xA0 0x38 (p 0x2C 0x38 (p 0x39 0x32 .zero))
    c.n = 0x00003D00000000000000000000000000#128 ∧ c.toFloat fmtBf (-14) .rne false 0 = (0x3F74, 0) := by decide +kernel
/-- The clamp of that section: 448 × 448 at anchor 1 adds 2^112. -/
theorem test_long_cell_clamp : (stepCell 1 1 (some [fmtE4.decode 0x7E]) (some [fmtE4.decode 0x7E]) .zero).1.n = 0x10000000000000000000000000000#128 := by
  decide +kernel

/-- R231: a mask with a reserved bit is the engine-mask fault; of idle engines WAITE goes on. -/
theorem test_waite : (tNext (exec (.waite (.reg 1)) (withS tIn [(1, 0xF)]))).k.priv = false
    ∧ (tNext (exec (.waite (.reg 1)) (withS tIn [(1, 0x10)]))).k.priv = true := by decide +kernel
/-- R399: RFT in program mode is the privilege fault; in the supervisor with no program held it leaves the supervisor. -/
theorem test_rft : (tNext (exec .rft tSup)).k.priv = false ∧ (tNext (exec .rft tIn)).k.priv = true
    ∧ (tNext (exec .rft tIn)).k.cause &&& 0xFFF#16 = Cause.privilege.code := by decide +kernel
/-- A step runs the bundle: MOVI S7, −5 is in flight, to land at the end of it (R38). -/
theorem test_step_movi : (tNext (step pStep)).pipe.inflight.map (·.what) = [.scalar (.reg 7) 0xFFFFFFFFFFFFFFFB] := by decide +kernel

end Sys2Proof.Tests
end

section
/-! # O60: every well-formed slot decodes from its encoding

The proof goes from the bits up: what a packed word holds in each field, what each selector reads there, what a header lends, and then one
theorem for each family of encodings of the opcode map (R41). -/

/- The decoders' match equations are shared by many proofs, and each proof that waits for one holds a thread: these are checked one by one. -/
set_option Elab.async false

namespace Sys2Proof

/-! ## Fields of packed numbers -/

theorem fld_add_mul_pow {lo a n k : Nat} (hi : Nat) (h : a + n ≤ k) : fld (hi * 2 ^ k + lo) a n = fld lo a n := by
  obtain ⟨j, rfl⟩ : ∃ j, k = a + (n + j) := ⟨k - (a + n), by omega⟩
  have e : hi * 2 ^ (a + (n + j)) + lo = lo + 2 ^ a * (2 ^ n * (2 ^ j * hi)) := by ring
  rw [fld, fld, e, Nat.add_mul_div_left _ _ (Nat.two_pow_pos a), Nat.add_mul_mod_self_left]

theorem fld_fld {w a b m n : Nat} (h : a + n ≤ m) : fld (fld w b m) a n = fld w (b + a) n := by
  obtain ⟨j, rfl⟩ : ∃ j, m = a + (n + j) := ⟨m - (a + n), by omega⟩
  simp only [fld, pow_add, Nat.mod_mul_right_div_self, Nat.mod_mul_right_mod, Nat.div_div_eq_div_mul]

theorem fBit_of_fld {w a : Nat} {b : Bool} (h : fld w a 1 = bit b) : fBit w a = b := by
  rw [fBit, h]; cases b <;> rfl

theorem bit_lt (b : Bool) : bit b < 2 := by cases b <;> decide

theorem fld_minor {k m n lo : Nat} (h : lo < 2 ^ k) (hm : m < 2 ^ n) : fld (m * 2 ^ k + lo) k n = m := by
  rw [fld, Nat.mul_comm, Nat.mul_add_div (Nat.two_pow_pos k), Nat.div_eq_of_lt h, Nat.add_zero, Nat.mod_eq_of_lt hm]

theorem fld_min {m c : Nat} (hm : m < 32) (hc : c < 8) : fld (m * 8 + c) 3 5 = m := by simp only [fld]; omega
theorem fld_ty {m c : Nat} (hc : c < 8) : fld (m * 8 + c) 0 3 = c := by simp only [fld]; omega

/-! ## What a header lends (R16 to R18) -/

/-- The byte that immediate mode must lend, if any, is the one that `e` lends. -/
def Ext.Gives (e : Ext) : Option Nat → Prop
  | some b => e = .imm b
  | .none => e.isImm = false

/-- `e` lends a slot the high bits and the byte of its raw encoding. -/
structure Ext.Lends (e : Ext) (r : Raw) : Prop where
  dh : e.dh = r.dh
  xh : e.xh = r.xh
  yh : e.yh = r.yh
  gives : e.Gives r.ib

@[simp] theorem need_true (x : DecodeErr) : need true x = .ok () := rfl
@[simp] theorem decoded_bind {α β : Type} (a : α) (f : α → Except DecodeErr β) : (Except.ok a >>= f) = f a := rfl

theorem Ext.Gives.plain {e : Ext} (h : e.Gives .none) : e.plain = .ok () := by
  cases e with
  | imm b => exact absurd h (by simp [Ext.Gives, Ext.isImm])
  | none | guard => rfl

theorem Ext.Gives.isImm {e : Ext} {b : Nat} (h : e.Gives (some b)) : e.isImm = true ∧ e.byte = b := by
  obtain rfl : e = .imm b := h; exact ⟨rfl, rfl⟩

/-- R31: the byte of an exchange's signal, lent only where it is not zero. -/
theorem Ext.Gives.signal {e : Ext} {s : Nat} (h : e.Gives (if s = 0 then .none else some s)) : e.byte = s := by
  split at h
  next hs => cases e with
    | imm b => exact absurd h (by simp [Ext.Gives, Ext.isImm])
    | none | guard => exact hs.symm
  next => exact h.isImm.2

theorem toSigned_emod {n : Nat} {v : Int} (hn : 0 < n) (h : wfInt n v = true) : toSigned n (v % 2 ^ n).toNat = v := by
  obtain ⟨k, rfl⟩ : ∃ k, n = k + 1 := ⟨n - 1, by omega⟩
  simp only [wfInt, decide_eq_true_eq, Nat.add_sub_cancel] at h
  obtain ⟨hlo, hhi⟩ := h
  have hk : (2 : Int) ^ (k + 1) = 2 * 2 ^ k := by ring
  have hc : ((2 ^ k : Nat) : Int) = 2 ^ k := by push_cast; rfl
  rw [toSigned, Nat.add_sub_cancel, hk]
  by_cases hv : 0 ≤ v
  · rw [Int.emod_eq_of_lt hv (by omega), if_pos (by omega)]; omega
  · have e : v % (2 * 2 ^ k) = v + 2 * 2 ^ k := by
      rw [← Int.add_mul_emod_self_left v _ 1, mul_one]; exact Int.emod_eq_of_lt (by omega) (by omega)
    rw [e, if_neg (by omega)]; omega

/-- R17: the byte above a field and the field together are the wider field. -/
theorem byte_mul_add_immF (n : Nat) (v : Int) : (v / 2 ^ n % 256).toNat * 2 ^ n + immF n v = (v % 2 ^ (n + 8)).toNat := by
  have hP : (0 : Int) < 2 ^ n := by positivity
  have hb := Int.emod_nonneg (v / 2 ^ n) (show (256 : Int) ≠ 0 by decide)
  have hb' := Int.emod_lt_of_pos (v / 2 ^ n) (show (0 : Int) < 256 by decide)
  have hf := Int.emod_nonneg v hP.ne'
  have hf' := Int.emod_lt_of_pos v hP
  have hv : v = (v / 2 ^ n % 256 * 2 ^ n + v % 2 ^ n) + 2 ^ (n + 8) * (v / 2 ^ n / 256) := by
    have h1 := Int.mul_ediv_add_emod v (2 ^ n)
    have h2 := Int.mul_ediv_add_emod (v / 2 ^ n) 256
    rw [pow_add]; linear_combination -h1 - 2 ^ n * h2
  have e : v % 2 ^ (n + 8) = v / 2 ^ n % 256 * 2 ^ n + v % 2 ^ n := by
    conv_lhs => rw [hv]
    rw [Int.add_mul_emod_self_left, Int.emod_eq_of_lt (by positivity)]
    rw [pow_add]; nlinarith
  zify [immF]
  rw [Int.toNat_of_nonneg hb, Int.toNat_of_nonneg hf, e, Int.toNat_of_nonneg (by positivity)]

/-- R17: a signed field, with the byte above it where the value does not fit the field, reads back. -/
theorem extS_of_eq_immF {n f : Nat} {v : Int} {e : Ext} (hn : 0 < n) (hv : wfInt (n + 8) v = true) (he : e.Gives (immB n v)) (hf : f = immF n v) :
    extS n f e = v := by
  subst hf
  unfold immB at he
  split at he
  next hs =>
    cases e with
    | imm b => exact absurd he (by simp [Ext.Gives, Ext.isImm])
    | none | guard => exact toSigned_emod hn hs
  next =>
    obtain rfl : e = .imm _ := he
    exact (congrArg _ (byte_mul_add_immF n v)).trans (toSigned_emod (by omega) hv)

/-- The same for an unsigned field. -/
theorem extU_of_eq_mod {n f v : Nat} {e : Ext} (he : e.Gives (immBU n v)) (hf : f = v % 2 ^ n) : extU n f e = v := by
  subst hf
  unfold immBU at he
  split at he
  next hs =>
    cases e with
    | imm b => exact absurd he (by simp [Ext.Gives, Ext.isImm])
    | none | guard => exact Nat.mod_eq_of_lt hs
  next =>
    obtain rfl : e = .imm _ := he
    exact Nat.div_add_mod' v (2 ^ n)

theorem immF_lt (n : Nat) (v : Int) : immF n v < 2 ^ n := by
  have h := Int.emod_lt_of_pos v (show (0 : Int) < 2 ^ n by positivity)
  have := Int.emod_nonneg v (show (2 : Int) ^ n ≠ 0 by positivity)
  have hc : ((2 ^ n : Nat) : Int) = 2 ^ n := by push_cast; rfl
  unfold immF; omega


/-! ## Register selectors (R51, R52) -/

theorem regOpr_lt {n : Nat} (h : n < 80) : (regOpr n).f < 64 := by
  unfold regOpr; split <;> simp only [] <;> omega

@[simp] theorem SSrc.opr_lt {x : SSrc} (h : x.wf = true) : x.opr.f < 64 := by
  cases x with
  | reg n => exact regOpr_lt (by simp [SSrc.wf] at h; omega)
  | q n => simp only [SSrc.wf, decide_eq_true_eq] at h; simp only [SSrc.opr]; omega

@[simp] theorem SDst.opr_lt {d : SDst} (h : d.wf = true) : d.opr.f < 64 := by
  cases d with
  | reg n => exact regOpr_lt (by simp [SDst.wf] at h; omega)
  | queue => decide

@[simp] theorem VSrc.opr_lt {x : VSrc} (h : x.wf = true) : x.opr.f < 64 := by
  cases x with
  | reg n => exact regOpr_lt (by simpa [VSrc.wf] using h)
  | q n => simp only [VSrc.wf, decide_eq_true_eq] at h; simp only [VSrc.opr]; omega

@[simp] theorem VDst.opr_lt {d : VDst} (h : d.wf = true) : d.opr.f < 64 := by
  cases d with
  | reg n => exact regOpr_lt (by simpa [VDst.wf] using h)
  | queue => decide

@[simp] theorem regOpr_lt_sreg {n : Nat} (h : wfSReg n = true) : (regOpr n).f < 64 := regOpr_lt (by simp [wfSReg] at h; omega)
@[simp] theorem regOpr_lt_vreg {n : Nat} (h : wfVReg n = true) : (regOpr n).f < 64 := regOpr_lt (by simpa [wfVReg] using h)

theorem sBoth_regOpr {n : Nat} (h : wfSReg n = true) : sBoth (regOpr n).h (regOpr n).f = .ok n := by
  simp only [wfSReg, decide_eq_true_eq] at h
  by_cases hn : n < 48
  · simp [regOpr, sBoth, hn]
  · simp [regOpr, sBoth, hn, show n - 48 < 16 by omega, show 48 + (n - 48) = n by omega]

theorem vBoth_regOpr {n : Nat} (h : wfVReg n = true) : vBoth (regOpr n).h (regOpr n).f = .ok n := by
  simp only [wfVReg, decide_eq_true_eq] at h
  by_cases hn : n < 48
  · simp [regOpr, vBoth, hn]
  · simp [regOpr, vBoth, hn, show n - 48 < 32 by omega, show 48 + (n - 48) = n by omega]

theorem sSrc_opr {x : SSrc} (h : x.wf = true) : sSrc x.opr.h x.opr.f = .ok x := by
  cases x with
  | reg n =>
    have e := sBoth_regOpr h
    unfold sBoth at e
    unfold sSrc SSrc.opr
    split at e <;> split at e <;> simp_all
  | q n => simp [SSrc.opr, sSrc]

theorem sDst_opr {d : SDst} (h : d.wf = true) : sDst d.opr.h d.opr.f = .ok d := by
  cases d with
  | reg n =>
    have e := sBoth_regOpr h
    unfold sBoth at e
    unfold sDst SDst.opr
    split at e <;> split at e <;> simp_all
  | queue => rfl

theorem vSrc_opr {x : VSrc} (h : x.wf = true) : vSrc x.opr.h x.opr.f = .ok x := by
  cases x with
  | reg n =>
    have e := vBoth_regOpr h
    unfold vBoth at e
    unfold vSrc VSrc.opr
    split at e <;> split at e <;> simp_all
  | q n => simp [VSrc.opr, vSrc]

theorem vDst_opr {d : VDst} (h : d.wf = true) : vDst d.opr.h d.opr.f = .ok d := by
  cases d with
  | reg n =>
    have e := vBoth_regOpr h
    unfold vBoth at e
    unfold vDst VDst.opr
    split at e <;> split at e <;> simp_all
  | queue => rfl

/-- R197, R198: a source whose field alone names it. -/
theorem SSrc.opr_low {x : SSrc} (h : x.wfLow = true) : x.opr.h = false ∧ x.wf = true := by
  cases x with
  | reg n =>
    simp only [SSrc.wfLow, decide_eq_true_eq] at h
    exact ⟨by simp [SSrc.opr, regOpr, h], by simp only [SSrc.wf, decide_eq_true_eq]; omega⟩
  | q n => exact ⟨rfl, h⟩

theorem pSel_of_wf {n : Nat} (h : wfPred n = true) : pSel n = .ok n := if_pos (of_decide_eq_true h)
@[simp] theorem pSel_zero : pSel 0 = .ok 0 := rfl
theorem numOpr_pred_lt {n : Nat} (h : wfPred n = true) : (numOpr n).f < 64 := Nat.lt_trans (of_decide_eq_true h : n < 16) (by decide)
theorem pairSel_of_wf {n : Nat} (h : wfPair n = true) : pairSel n = .ok n := if_pos (of_decide_eq_true h)

/-! ## Codes of types and operands (R21, R29 to R32, R254) -/

@[simp] theorem ityOf_code (t : ITy) : ityOf t.code = .ok t := by cases t <;> rfl
@[simp] theorem tyOf_code (t : Ty) : tyOf t.code = .ok t := by cases t <;> rfl
@[simp] theorem ftyOf_code (t : FTy) : ftyOf t.code = .ok t := by cases t <;> rfl
@[simp] theorem ctyOf_code (t : CTy) : ctyOf t.code = .ok t := by cases t <;> rfl
@[simp] theorem vtyOf_code (t : VTy) : vtyOf t.code = .ok t := by cases t <;> rfl
@[simp] theorem ptyOf_code (t : PTy) : ptyOf t.code = .ok t := by cases t <;> rfl
@[simp] theorem atyOf_code (t : ATy) : atyOf t.code = .ok t := by cases t <;> rfl
@[simp] theorem sgOf_sgCode (g : Bool) : sgOf (sgCode g) = .ok g := by cases g <;> rfl
@[simp] theorem ewOf_code (t : EW) : ewOf t.code = .ok t := by cases t <;> rfl
@[simp] theorem cmpiTyOf_cmpiTyCode (t : ITy) : cmpiTyOf (cmpiTyCode t) = t := by cases t <;> rfl
@[simp] theorem combOf_code (c : Combine) : combOf c.code = .ok c := by cases c <;> rfl
@[simp] theorem lfmtOf_code (f : LFmt) : lfmtOf f.code = .ok f := by cases f <;> rfl
@[simp] theorem wcondOf_code (c : WCond) : wcondOf c.code = .ok c := by cases c <;> rfl
@[simp] theorem amoOf_code (op : AmoOp) : amoOf op.code = .ok op := by cases op <;> rfl
@[simp] theorem dirOf_code (d : Dir) : dirOf d.code = d := by cases d <;> rfl

@[simp] theorem ITy.code_lt (t : ITy) : t.code < 8 := by cases t <;> decide
@[simp] theorem Ty.code_lt (t : Ty) : t.code < 8 := by cases t <;> decide
@[simp] theorem FTy.code_lt (t : FTy) : t.code < 8 := by cases t <;> decide
@[simp] theorem CTy.code_lt (t : CTy) : t.code < 8 := by cases t <;> decide
@[simp] theorem VTy.code_lt (t : VTy) : t.code < 8 := by cases t <;> decide
@[simp] theorem PTy.code_lt (t : PTy) : t.code < 8 := by cases t <;> decide
@[simp] theorem ATy.code_lt (t : ATy) : t.code < 8 := by cases t <;> decide
@[simp] theorem sgCode_lt (g : Bool) : sgCode g < 8 := by cases g <;> decide
@[simp] theorem EW.code_lt (t : EW) : t.code < 3 := by cases t <;> decide
@[simp] theorem cmpiTyCode_lt (t : ITy) : cmpiTyCode t < 4 := by cases t <;> decide
@[simp] theorem Combine.code_lt (c : Combine) : c.code < 3 := by cases c <;> decide
@[simp] theorem LFmt.code_lt (f : LFmt) : f.code < 3 := by cases f <;> decide
@[simp] theorem WCond.code_lt (c : WCond) : c.code < 4 := by cases c <;> decide
@[simp] theorem AmoOp.code_lt (op : AmoOp) : op.code < 13 := by cases op <;> decide
@[simp] theorem Dir.code_lt (d : Dir) : d.code < 2 := by cases d <;> decide

/-! ## A register position of a word, with its high bit -/

def AtD (w : Nat) (e : Ext) (o : Opr) : Prop := fD w = o.f ∧ e.dh = o.h
def AtX (w : Nat) (e : Ext) (o : Opr) : Prop := fX w = o.f ∧ e.xh = o.h
def AtY (w : Nat) (e : Ext) (o : Opr) : Prop := fY w = o.f ∧ e.yh = o.h

section
variable {w n : Nat} {e : Ext} {o : Opr}

theorem AtD.sDst {d : SDst} (p : AtD w e d.opr) (h : d.wf = true) : sDst e.dh (fD w) = .ok d := by rw [p.1, p.2, sDst_opr h]
theorem AtD.sSrc {x : SSrc} (p : AtD w e x.opr) (h : x.wf = true) : sSrc e.dh (fD w) = .ok x := by rw [p.1, p.2, sSrc_opr h]
theorem AtX.sSrc {x : SSrc} (p : AtX w e x.opr) (h : x.wf = true) : sSrc e.xh (fX w) = .ok x := by rw [p.1, p.2, sSrc_opr h]
theorem AtY.sSrc {x : SSrc} (p : AtY w e x.opr) (h : x.wf = true) : sSrc e.yh (fY w) = .ok x := by rw [p.1, p.2, sSrc_opr h]
theorem AtD.vDst {d : VDst} (p : AtD w e d.opr) (h : d.wf = true) : vDst e.dh (fD w) = .ok d := by rw [p.1, p.2, vDst_opr h]
theorem AtD.vSrc {x : VSrc} (p : AtD w e x.opr) (h : x.wf = true) : vSrc e.dh (fD w) = .ok x := by rw [p.1, p.2, vSrc_opr h]
theorem AtX.vSrc {x : VSrc} (p : AtX w e x.opr) (h : x.wf = true) : vSrc e.xh (fX w) = .ok x := by rw [p.1, p.2, vSrc_opr h]
theorem AtY.vSrc {x : VSrc} (p : AtY w e x.opr) (h : x.wf = true) : vSrc e.yh (fY w) = .ok x := by rw [p.1, p.2, vSrc_opr h]
theorem AtD.sBoth (p : AtD w e (regOpr n)) (h : wfSReg n = true) : sBoth e.dh (fD w) = .ok n := by rw [p.1, p.2, sBoth_regOpr h]
theorem AtY.sBoth (p : AtY w e (regOpr n)) (h : wfSReg n = true) : sBoth e.yh (fY w) = .ok n := by rw [p.1, p.2, sBoth_regOpr h]
theorem AtD.vBoth (p : AtD w e (regOpr n)) (h : wfVReg n = true) : vBoth e.dh (fD w) = .ok n := by rw [p.1, p.2, vBoth_regOpr h]

theorem AtD.pSel (p : AtD w e (numOpr n)) (h : wfPred n = true) : pSel (fD w) = .ok n := by rw [p.1]; exact pSel_of_wf h
theorem AtX.pSel (p : AtX w e (numOpr n)) (h : wfPred n = true) : pSel (fX w) = .ok n := by rw [p.1]; exact pSel_of_wf h
theorem AtY.pSel (p : AtY w e (numOpr n)) (h : wfPred n = true) : pSel (fY w) = .ok n := by rw [p.1]; exact pSel_of_wf h
theorem AtX.pairSel (p : AtX w e (numOpr n)) (h : wfPair n = true) : pairSel (fX w) = .ok n := by rw [p.1]; exact pairSel_of_wf h
theorem AtY.pairSel (p : AtY w e (numOpr n)) (h : wfPair n = true) : pairSel (fY w) = .ok n := by rw [p.1]; exact pairSel_of_wf h

theorem AtD.noD (p : AtD w e o) (h : o.h = false) : e.noD = .ok () := by rw [Ext.noD, p.2, h]; rfl
theorem AtX.noX (p : AtX w e o) (h : o.h = false) : e.noX = .ok () := by rw [Ext.noX, p.2, h]; rfl
theorem AtY.noY (p : AtY w e o) (h : o.h = false) : e.noY = .ok () := by rw [Ext.noY, p.2, h]; rfl
theorem AtD.zero (p : AtD w e .zero) : zeroD w e = .ok () := by rw [zeroD, p.1, p.noD rfl]; rfl
theorem AtX.zero (p : AtX w e .zero) : zeroX w e = .ok () := by rw [zeroX, p.1, p.noX rfl]; rfl
theorem AtY.zero (p : AtY w e .zero) : zeroY w e = .ok () := by rw [zeroY, p.1, p.noY rfl]; rfl
end

/-- Fields inside a register position of a word. -/
theorem AtD.eq {w f v : Nat} {e : Ext} (p : AtD w e (numOpr f)) (a n : Nat) (h : f / 2 ^ a % 2 ^ n = v) (han : a + n ≤ 6 := by decide) :
    fld w (20 + a) n = v := by
  have hf : fD w = f := p.1
  rw [← h, ← hf]
  exact (fld_fld han).symm

theorem AtX.eq {w f v : Nat} {e : Ext} (p : AtX w e (numOpr f)) (a n : Nat) (h : f / 2 ^ a % 2 ^ n = v) (han : a + n ≤ 6 := by decide) :
    fld w (14 + a) n = v := by
  have hf : fX w = f := p.1
  rw [← h, ← hf]
  exact (fld_fld han).symm

theorem AtY.eq {w f v : Nat} {e : Ext} (p : AtY w e (numOpr f)) (a n : Nat) (h : f / 2 ^ a % 2 ^ n = v) (han : a + n ≤ 6 := by decide) :
    fld w (8 + a) n = v := by
  have hf : fY w = f := p.1
  rw [← h, ← hf]
  exact (fld_fld han).symm

/-! ## The shapes of a word -/

/-- A word of major `maj` whose low `k` bits are `lo`. -/
structure Packs (w maj k lo : Nat) : Prop where
  maj : fMaj w = maj
  low : ∀ a n, a + n ≤ k → fld w a n = fld lo a n

theorem Packs.eq {w maj k lo v : Nat} (p : Packs w maj k lo) (a n : Nat) (h : lo / 2 ^ a % 2 ^ n = v) (han : a + n ≤ k := by decide) : fld w a n = v :=
  (p.low a n han).trans h

structure Packs3 (w : Nat) (e : Ext) (maj : Nat) (d x y : Opr) (lo : Nat) : Prop extends Packs w maj 8 lo where
  d : AtD w e d
  x : AtX w e x
  y : AtY w e y

structure Packs2 (w : Nat) (e : Ext) (maj : Nat) (d x : Opr) (lo : Nat) : Prop extends Packs w maj 14 lo where
  d : AtD w e d
  x : AtX w e x
  noY : e.noY = .ok ()

structure Packs1 (w : Nat) (e : Ext) (maj : Nat) (d : Opr) (lo : Nat) : Prop extends Packs w maj 20 lo where
  d : AtD w e d
  noX : e.noX = .ok ()
  noY : e.noY = .ok ()

structure Packs0 (w : Nat) (e : Ext) (maj lo : Nat) : Prop extends Packs w maj 26 lo where
  noD : e.noD = .ok ()
  noX : e.noX = .ok ()
  noY : e.noY = .ok ()

/-- The word of `r` fits 32 bits, and `i` is what it decodes to under whatever a header lends `r`. -/
def Raw.DecodesTo (r : Raw) (i : Instr) : Prop := r.word < 2 ^ 32 ∧ ∀ e : Ext, e.Lends r → decodeWord r.word e = .ok i

section
variable {i : Instr} {maj lo : Nat} {d x y : Opr} {ib : Option Nat}

theorem decodesTo_raw3_ib (hm : maj < 64) (hd : d.f < 64) (hx : x.f < 64) (hy : y.f < 64) (hlo : lo < 256)
    (h : ∀ w e, Packs3 w e maj d x y lo → e.Gives ib → decodeWord w e = .ok i) : { raw3 maj d x y lo with ib := ib }.DecodesTo i := by
  refine ⟨?_, fun e he => h _ _ ⟨⟨?_, fun a n han => ?_⟩, ⟨?_, he.dh⟩, ⟨?_, he.xh⟩, ⟨?_, he.yh⟩⟩ he.gives⟩
  case refine_3 =>
    have ew : (raw3 maj d x y lo).word = (maj * 2 ^ 18 + d.f * 2 ^ 12 + x.f * 2 ^ 6 + y.f) * 2 ^ 8 + lo := by simp only [raw3]; ring
    exact ew ▸ fld_add_mul_pow _ han
  all_goals simp only [raw3, fMaj, fD, fX, fY, fld]; omega

theorem decodesTo_raw3 {m c : Nat} (hm : maj < 64) (hd : d.f < 64) (hx : x.f < 64) (hy : y.f < 64) (hmin : m < 32) (hc : c < 8)
    (h : ∀ w e, Packs3 w e maj d x y (m * 8 + c) → fMin w = m → fTy w = c → e.plain = .ok () → decodeWord w e = .ok i) :
    (raw3 maj d x y (m * 8 + c)).DecodesTo i :=
  decodesTo_raw3_ib (ib := none) hm hd hx hy (by omega) fun w e p g =>
    h w e p ((p.low 3 5 (by decide)).trans (fld_min hmin hc)) ((p.low 0 3 (by decide)).trans (fld_ty hc)) g.plain

/-- The same where the type field is zero. -/
theorem decodesTo_raw3_minor {m : Nat} (hm : maj < 64) (hd : d.f < 64) (hx : x.f < 64) (hy : y.f < 64) (hmin : m < 32)
    (h : ∀ w e, Packs3 w e maj d x y (m * 8) → fMin w = m → zeroT w = .ok () → e.plain = .ok () → decodeWord w e = .ok i) :
    (raw3 maj d x y (m * 8)).DecodesTo i :=
  decodesTo_raw3 (c := 0) hm hd hx hy hmin (by decide) fun w e p hmin hty hp => h w e p hmin (by rw [zeroT, hty]; rfl) hp

/-- A word that holds a minor alone. -/
theorem decodesTo_raw0_minor {m : Nat} (hm : maj < 64) (hmin : m < 32)
    (h : ∀ w e, Packs3 w e maj .zero .zero .zero (m * 8) → fMin w = m → zeroT w = .ok () → e.plain = .ok () → decodeWord w e = .ok i) :
    (raw0 maj (m * 8)).DecodesTo i := by
  have e : raw0 maj (m * 8) = raw3 maj .zero .zero .zero (m * 8) := by simp [raw0, raw3, Opr.zero]
  exact e ▸ decodesTo_raw3_minor hm (by decide) (by decide) (by decide) hmin h

theorem decodesTo_raw2 (hm : maj < 64) (hd : d.f < 64) (hx : x.f < 64) (hlo : lo < 2 ^ 14)
    (h : ∀ w e, Packs2 w e maj d x lo → e.Gives ib → decodeWord w e = .ok i) : (raw2 maj d x lo ib).DecodesTo i := by
  refine ⟨?_, fun e he => h _ _ ⟨⟨?_, fun a n han => ?_⟩, ⟨?_, he.dh⟩, ⟨?_, he.xh⟩, by rw [Ext.noY, he.yh]; rfl⟩ he.gives⟩
  case refine_3 =>
    have ew : (raw2 maj d x lo ib).word = (maj * 2 ^ 12 + d.f * 2 ^ 6 + x.f) * 2 ^ 14 + lo := by simp only [raw2]; ring
    exact ew ▸ fld_add_mul_pow _ han
  all_goals simp only [raw2, fMaj, fD, fX, fld]; omega

theorem decodesTo_raw1 (hm : maj < 64) (hd : d.f < 64) (hlo : lo < 2 ^ 20)
    (h : ∀ w e, Packs1 w e maj d lo → e.Gives ib → decodeWord w e = .ok i) : (raw1 maj d lo ib).DecodesTo i := by
  refine ⟨?_, fun e he => h _ _ ⟨⟨?_, fun a n han => ?_⟩, ⟨?_, he.dh⟩, by rw [Ext.noX, he.xh]; rfl, by rw [Ext.noY, he.yh]; rfl⟩ he.gives⟩
  case refine_3 =>
    have ew : (raw1 maj d lo ib).word = (maj * 2 ^ 6 + d.f) * 2 ^ 20 + lo := by simp only [raw1]; ring
    exact ew ▸ fld_add_mul_pow _ han
  all_goals simp only [raw1, fMaj, fD, fld]; omega

theorem decodesTo_raw0 (hm : maj < 64) (hlo : lo < 2 ^ 26)
    (h : ∀ w e, Packs0 w e maj lo → e.Gives ib → decodeWord w e = .ok i) : (raw0 maj lo ib).DecodesTo i := by
  refine ⟨?_, fun e he => h _ _ ⟨⟨?_, fun a n han => fld_add_mul_pow _ han⟩,
    by rw [Ext.noD, he.dh]; rfl, by rw [Ext.noX, he.xh]; rfl, by rw [Ext.noY, he.yh]; rfl⟩ he.gives⟩
  all_goals simp only [raw0, fMaj, fld]; omega

end

/-- Every word that `i` encodes to decodes to `i`. -/
def Instr.Roundtrips (i : Instr) : Prop := i.wf = true → ∀ r, encodeInstr i = some r → r.DecodesTo i

theorem Instr.Roundtrips.intro {i : Instr} {r : Raw} (hr : encodeInstr i = some r) (h : i.wf = true → r.DecodesTo i) : i.Roundtrips :=
  fun hi _ hr' => Option.some.inj (hr.symm.trans hr') ▸ h hi

theorem and3_true {a b c : Bool} (h : (a && b && c) = true) : a = true ∧ b = true ∧ c = true := by simpa [and_assoc] using h
theorem and4_true {a b c d : Bool} (h : (a && b && c && d) = true) : a = true ∧ b = true ∧ c = true ∧ d = true := by simpa [and_assoc] using h


/-! ## The opcode map (R41): the decoder of each major -/

section
variable {w : Nat} {e : Ext}

theorem decodeWord_alu (h : fMaj w = 0x01) : decodeWord w e = decAlu w e := by rw [decodeWord, h]; rfl
theorem decodeWord_addi (h : fMaj w = 0x02) : decodeWord w e = decAddi w e := by rw [decodeWord, h]; rfl
theorem decodeWord_logi (h : fMaj w = 0x03) : decodeWord w e = decLogi w e := by rw [decodeWord, h]; rfl
theorem decodeWord_movi (h : fMaj w = 0x04) : decodeWord w e = decMovi w e := by rw [decodeWord, h]; rfl
theorem decodeWord_movk (h : fMaj w = 0x05) : decodeWord w e = decMovk w e := by rw [decodeWord, h]; rfl
theorem decodeWord_bitf (h : fMaj w = 0x06) : decodeWord w e = decBitf w e := by rw [decodeWord, h]; rfl
theorem decodeWord_lea (h : fMaj w = 0x07) : decodeWord w e = decLea w e := by rw [decodeWord, h]; rfl
theorem decodeWord_cmp (h : fMaj w = 0x08) : decodeWord w e = decCmp w e := by rw [decodeWord, h]; rfl
theorem decodeWord_cmpi (h : fMaj w = 0x09) : decodeWord w e = decCmpi w e := by rw [decodeWord, h]; rfl
theorem decodeWord_plog (h : fMaj w = 0x0A) : decodeWord w e = decPlog w e := by rw [decodeWord, h]; rfl
theorem decodeWord_sel (h : fMaj w = 0x0B) : decodeWord w e = decSel w e := by rw [decodeWord, h]; rfl
theorem decodeWord_sfp (h : fMaj w = 0x0C) : decodeWord w e = decSfp w e := by rw [decodeWord, h]; rfl
theorem decodeWord_kreg (h : fMaj w = 0x0D) : decodeWord w e = decKreg w e := by rw [decodeWord, h]; rfl
theorem decodeWord_loopq (h : fMaj w = 0x0E) : decodeWord w e = decLoopq w e := by rw [decodeWord, h]; rfl
theorem decodeWord_bra (h : fMaj w = 0x10) : decodeWord w e = decBra w e := by rw [decodeWord, h]; rfl
theorem decodeWord_call (h : fMaj w = 0x11) : decodeWord w e = decCall w e := by rw [decodeWord, h]; rfl
theorem decodeWord_jmpr (h : fMaj w = 0x12) : decodeWord w e = decJmpr w e := by rw [decodeWord, h]; rfl
theorem decodeWord_loop (h : fMaj w = 0x13) : decodeWord w e = decLoop w e := by rw [decodeWord, h]; rfl
theorem decodeWord_loopi (h : fMaj w = 0x14) : decodeWord w e = decLoopi w e := by rw [decodeWord, h]; rfl
theorem decodeWord_loopc (h : fMaj w = 0x15) : decodeWord w e = decLoopc w e := by rw [decodeWord, h]; rfl
theorem decodeWord_brm (h : fMaj w = 0x16) : decodeWord w e = decBrm w e := by rw [decodeWord, h]; rfl
theorem decodeWord_sys (h : fMaj w = 0x17) : decodeWord w e = decSys w e := by rw [decodeWord, h]; rfl
theorem decodeWord_ld (h : fMaj w = 0x18) : decodeWord w e = decLd w e := by rw [decodeWord, h]; rfl
theorem decodeWord_st (h : fMaj w = 0x19) : decodeWord w e = decSt w e := by rw [decodeWord, h]; rfl
theorem decodeWord_amo (h : fMaj w = 0x1A) : decodeWord w e = decAmo w e := by rw [decodeWord, h]; rfl
theorem decodeWord_red (h : fMaj w = 0x1B) : decodeWord w e = decRed w e := by rw [decodeWord, h]; rfl
theorem decodeWord_remote (h : fMaj w = 0x1C) : decodeWord w e = decRemote w e := by rw [decodeWord, h]; rfl
theorem decodeWord_memc (h : fMaj w = 0x1D) : decodeWord w e = decMemc w e := by rw [decodeWord, h]; rfl
theorem decodeWord_vfa (h : fMaj w = 0x1E) : decodeWord w e = decVfa w e := by rw [decodeWord, h]; rfl
theorem decodeWord_vfx (h : fMaj w = 0x1F) : decodeWord w e = decVfx w e := by rw [decodeWord, h]; rfl
theorem decodeWord_via (h : fMaj w = 0x20) : decodeWord w e = decVia w e := by rw [decodeWord, h]; rfl
theorem decodeWord_vcs (h : fMaj w = 0x21) : decodeWord w e = decVcs w e := by rw [decodeWord, h]; rfl
theorem decodeWord_vcvt (h : fMaj w = 0x22) : decodeWord w e = decVcvt w e := by rw [decodeWord, h]; rfl
theorem decodeWord_vred (h : fMaj w = 0x23) : decodeWord w e = decVred w e := by rw [decodeWord, h]; rfl
theorem decodeWord_vprm (h : fMaj w = 0x24) : decodeWord w e = decVprm w e := by rw [decodeWord, h]; rfl
theorem decodeWord_msk (h : fMaj w = 0x25) : decodeWord w e = decMsk w e := by rw [decodeWord, h]; rfl
theorem decodeWord_vmem (h : fMaj w = 0x26) : decodeWord w e = decVmem w e := by rw [decodeWord, h]; rfl
theorem decodeWord_vgs (h : fMaj w = 0x27) : decodeWord w e = decVgs w e := by rw [decodeWord, h]; rfl
theorem decodeWord_mmac (h : fMaj w = 0x28) : decodeWord w e = decMmac w e := by rw [decodeWord, h]; rfl
theorem decodeWord_mctl (h : fMaj w = 0x29) : decodeWord w e = decMctl w e := by rw [decodeWord, h]; rfl
theorem decodeWord_txp (h : fMaj w = 0x2A) : decodeWord w e = decTxp w e := by rw [decodeWord, h]; rfl
theorem decodeWord_fmtq (h : fMaj w = 0x2B) : decodeWord w e = decFmtq w e := by rw [decodeWord, h]; rfl
theorem decodeWord_exg (h : fMaj w = 0x2C) : decodeWord w e = decExg w e := by rw [decodeWord, h]; rfl
theorem decodeWord_excc (h : fMaj w = 0x2D) : decodeWord w e = decExcc w e := by rw [decodeWord, h]; rfl
theorem decodeWord_exmd (h : fMaj w = 0x2E) : decodeWord w e = decExmd w e := by rw [decodeWord, h]; rfl
theorem decodeWord_fab (h : fMaj w = 0x2F) : decodeWord w e = decFab w e := by rw [decodeWord, h]; rfl
theorem decodeWord_cpy (h : fMaj w = 0x30) : decodeWord w e = decCpy w e := by rw [decodeWord, h]; rfl
theorem decodeWord_sync (h : fMaj w = 0x31) : decodeWord w e = decSync w e := by rw [decodeWord, h]; rfl
theorem decodeWord_grm (h : fMaj w = 0x32) : decodeWord w e = decGrm w e := by rw [decodeWord, h]; rfl
theorem decodeWord_smp (h : fMaj w = 0x33) : decodeWord w e = decSmp w e := by rw [decodeWord, h]; rfl
theorem decodeWord_rgn (h : fMaj w = 0x34) : decodeWord w e = decRgn w e := by rw [decodeWord, h]; rfl
theorem decodeWord_grp (h : fMaj w = 0x35) : decodeWord w e = decGrp w e := by rw [decodeWord, h]; rfl
theorem decodeWord_lch (h : fMaj w = 0x36) : decodeWord w e = decLch w e := by rw [decodeWord, h]; rfl
theorem decodeWord_sup (h : fMaj w = 0x37) : decodeWord w e = decSup w e := by rw [decodeWord, h]; rfl

end


/-! ## Scalar integers (R71 to R78) -/

theorem roundtrips_alu (d : SDst) (x y : SSrc) (t : ITy) :
    (Instr.add d x y t).Roundtrips ∧ (Instr.sub d x y t).Roundtrips ∧ (Instr.mul d x y t).Roundtrips ∧ (Instr.mulh d x y t).Roundtrips
    ∧ (Instr.and d x y t).Roundtrips ∧ (Instr.or d x y t).Roundtrips ∧ (Instr.xor d x y t).Roundtrips ∧ (Instr.andn d x y t).Roundtrips
    ∧ (Instr.shl d x y t).Roundtrips ∧ (Instr.shr d x y t).Roundtrips ∧ (Instr.sar d x y t).Roundtrips ∧ (Instr.rot d x y t).Roundtrips
    ∧ (Instr.min d x y t).Roundtrips ∧ (Instr.max d x y t).Roundtrips ∧ (Instr.div d x y t).Roundtrips ∧ (Instr.rem d x y t).Roundtrips := by
  and_intros <;> refine .intro rfl fun h => ?_ <;> obtain ⟨hd, hx, hy⟩ := and3_true h
  all_goals
    refine decodesTo_raw3 (by decide) (SDst.opr_lt hd) (SSrc.opr_lt hx) (SSrc.opr_lt hy) (by decide) t.code_lt fun w e p hmin hty hp => ?_
    simp [decodeWord_alu p.maj, decAlu, hp, hmin, hty, p.d.sDst hd, p.x.sSrc hx, p.y.sSrc hy]

theorem roundtrips_alu1 (d : SDst) (x : SSrc) (t : ITy) :
    (Instr.clz d x t).Roundtrips ∧ (Instr.popc d x t).Roundtrips ∧ (Instr.brev d x t).Roundtrips := by
  and_intros <;> refine .intro rfl fun h => ?_ <;> obtain ⟨hd, hx⟩ := Bool.and_eq_true_iff.1 h
  all_goals
    refine decodesTo_raw3 (by decide) (SDst.opr_lt hd) (SSrc.opr_lt hx) (by decide) (by decide) t.code_lt fun w e p hmin hty hp => ?_
    simp [decodeWord_alu p.maj, decAlu, hp, hmin, hty, p.d.sDst hd, p.x.sSrc hx, p.y.zero]

theorem roundtrips_addi (d : SDst) (x : SSrc) (v : Int) : (Instr.addi d x v).Roundtrips := by
  refine .intro rfl fun h => ?_
  obtain ⟨hd, hx, hv⟩ := and3_true h
  have hi := immF_lt 14 v
  refine decodesTo_raw2 (by decide) (SDst.opr_lt hd) (SSrc.opr_lt hx) hi fun w e p g => ?_
  have hf : extS 14 (fld w 0 14) e = v := extS_of_eq_immF (by decide) hv g (p.eq 0 14 (by omega))
  simp [decodeWord_addi p.maj, decAddi, p.noY, p.d.sDst hd, p.x.sSrc hx, hf]

theorem roundtrips_logi (d : SDst) (x : SSrc) (v : Int) :
    (Instr.andi d x v).Roundtrips ∧ (Instr.ori d x v).Roundtrips ∧ (Instr.xori d x v).Roundtrips := by
  and_intros <;> refine .intro rfl fun h => ?_ <;> obtain ⟨hd, hx, hv⟩ := and3_true h <;> have hi := immF_lt 11 v
  all_goals
    refine decodesTo_raw2 (by decide) (SDst.opr_lt hd) (SSrc.opr_lt hx) (by omega) fun w e p g => ?_
    have hm := (p.low 11 3 (by decide)).trans (fld_minor hi (by decide))
    have hf : extS 11 (fld w 0 11) e = v := extS_of_eq_immF (by decide) hv g (p.eq 0 11 (by omega))
    simp [decodeWord_logi p.maj, decLogi, p.noY, p.d.sDst hd, p.x.sSrc hx, hm, hf]

theorem roundtrips_shifti (d : SDst) (x : SSrc) (n : Nat) :
    (Instr.shli d x n).Roundtrips ∧ (Instr.shri d x n).Roundtrips ∧ (Instr.sari d x n).Roundtrips ∧ (Instr.roti d x n).Roundtrips := by
  and_intros <;> refine .intro rfl fun h => ?_ <;> obtain ⟨hd, hx, hn⟩ := and3_true h <;> have hn : n < 2 ^ 6 := of_decide_eq_true hn
  all_goals
    refine decodesTo_raw2 (by decide) (SDst.opr_lt hd) (SSrc.opr_lt hx) (by omega) fun w e p g => ?_
    have hm := (p.low 11 3 (by decide)).trans (fld_minor (by omega) (by decide))
    have hz : fld w 6 5 = 0 := p.eq 6 5 (by omega)
    have hf : fld w 0 6 = n := p.eq 0 6 (by omega)
    simp [decodeWord_logi p.maj, decLogi, p.noY, p.d.sDst hd, p.x.sSrc hx, hm, hz, hf, g.plain]

theorem roundtrips_movi (d : SDst) (v : Int) : (Instr.movi d v).Roundtrips := by
  refine .intro rfl fun h => ?_
  obtain ⟨hd, hv⟩ := Bool.and_eq_true_iff.1 h
  have hi := immF_lt 20 v
  refine decodesTo_raw1 (by decide) (SDst.opr_lt hd) hi fun w e p g => ?_
  have hf : extS 20 (fld w 0 20) e = v := extS_of_eq_immF (by decide) hv g (p.eq 0 20 (by omega))
  simp [decodeWord_movi p.maj, decMovi, p.noX, p.noY, p.d.sDst hd, hf]

theorem roundtrips_movk (d pos v : Nat) : (Instr.movk d pos v).Roundtrips := by
  refine .intro rfl fun h => ?_
  obtain ⟨hd, hpos, hv⟩ := and3_true h
  have hpos : pos < 2 ^ 2 := of_decide_eq_true hpos
  have hv : v < 2 ^ 16 := of_decide_eq_true hv
  refine decodesTo_raw1 (by decide) (regOpr_lt_sreg hd) (by omega) fun w e p g => ?_
  have hz : fld w 16 2 = 0 := p.eq 16 2 (by omega)
  have hp : fld w 18 2 = pos := p.eq 18 2 (by omega)
  have hf : fld w 0 16 = v := p.eq 0 16 (by omega)
  simp [decodeWord_movk p.maj, decMovk, p.noX, p.noY, g.plain, hz, p.d.sBoth hd, hp, hf]

/-- The bounds of a field of `len` bits from `lo`, and that its low two bits are the minor. -/
theorem bitField_bounds {lo len : Nat} (h : (decide (1 ≤ len ∧ lo + len ≤ 64 ∧ lo < 64)) = true) :
    (1 ≤ len ∧ lo + len ≤ 64 ∧ lo < 64) ∧ ∀ c < 4, (lo * 2 ^ 8 + (len - 1) * 4 + c) / 2 ^ 0 % 2 ^ 2 = c :=
  ⟨of_decide_eq_true h, fun c hc => by omega⟩

theorem roundtrips_bext (d : SDst) (x : SSrc) (lo len : Nat) : (Instr.bext d x lo len).Roundtrips ∧ (Instr.bexs d x lo len).Roundtrips := by
  and_intros <;> refine .intro rfl fun h => ?_ <;> obtain ⟨hd, hx, hb⟩ := and3_true h
    <;> obtain ⟨⟨hlen, hsum, hlo⟩, hkind⟩ := bitField_bounds hb
  all_goals
    refine decodesTo_raw2 (by decide) (SDst.opr_lt hd) (SSrc.opr_lt hx) (by omega) fun w e p g => ?_
    have h8 : fld w 8 6 = lo := p.eq 8 6 (by omega)
    have h2 : fld w 2 6 + 1 = len := by rw [p.eq 2 6 rfl]; omega
    have h0 := p.eq 0 2 (hkind _ (by decide))
    simp [decodeWord_bitf p.maj, decBitf, p.noY, g.plain, p.x.sSrc hx, p.d.sDst hd, h8, h2, h0, hsum]

theorem roundtrips_bins (n : Nat) (x : SSrc) (lo len : Nat) : (Instr.bins n x lo len).Roundtrips := by
  refine .intro rfl fun h => ?_
  obtain ⟨hd, hx, hb⟩ := and3_true h
  obtain ⟨⟨hlen, hsum, hlo⟩, hkind⟩ := bitField_bounds hb
  refine decodesTo_raw2 (by decide) (regOpr_lt_sreg hd) (SSrc.opr_lt hx) (by omega) fun w e p g => ?_
  have h8 : fld w 8 6 = lo := p.eq 8 6 (by omega)
  have h2 : fld w 2 6 + 1 = len := by rw [p.eq 2 6 rfl]; omega
  have h0 := p.eq 0 2 (hkind _ (by decide))
  simp [decodeWord_bitf p.maj, decBitf, p.noY, g.plain, p.x.sSrc hx, p.d.sBoth hd, h8, h2, h0, hsum]


theorem roundtrips_lea (d : SDst) (x y : SSrc) (scale : Nat) (v : Int) : (Instr.lea d x y scale v).Roundtrips := by
  refine .intro rfl fun h => ?_
  obtain ⟨h, hs, hv⟩ := and3_true h
  obtain ⟨hd, hx, hy⟩ := and3_true h
  have hs : scale < 2 ^ 2 := of_decide_eq_true hs
  have hi := immF_lt 6 v
  refine decodesTo_raw3_ib (by decide) (SDst.opr_lt hd) (SSrc.opr_lt hx) (SSrc.opr_lt hy) (by omega) fun w e p g => ?_
  have h6 : fld w 6 2 = scale := p.eq 6 2 (by omega)
  have hf : extS 6 (fld w 0 6) e = v := extS_of_eq_immF (by decide) hv g (p.eq 0 6 (by omega))
  simp [decodeWord_lea p.maj, decLea, p.d.sDst hd, p.x.sSrc hx, p.y.sSrc hy, h6, hf]

/-! ## Predicates (R79 to R82) -/

/-- CMP and CMPI hold their combine and their predicate at D. -/
theorem AtD.combine {w q : Nat} {e : Ext} {c : Combine} (p : AtD w e (numOpr (c.code * 16 + q))) (hq : wfPred q = true) :
    fld w 24 2 = c.code ∧ fld w 20 4 = q := by
  have hq : q < 16 := of_decide_eq_true hq
  have hc := c.code_lt
  exact ⟨p.eq 4 2 (by omega), p.eq 0 4 (by omega)⟩

theorem numOpr_combine_lt {q : Nat} (c : Combine) (hq : wfPred q = true) : (numOpr (c.code * 16 + q)).f < 64 := by
  have hq : q < 16 := of_decide_eq_true hq
  have hc := c.code_lt
  simp only [numOpr]; omega

theorem roundtrips_cmp (c : Combine) (q : Nat) (x y : SSrc) (t : CTy) :
    (Instr.cmpEq c q x y t).Roundtrips ∧ (Instr.cmpNe c q x y t).Roundtrips ∧ (Instr.cmpLt c q x y t).Roundtrips
    ∧ (Instr.cmpLe c q x y t).Roundtrips ∧ (Instr.cmpGt c q x y t).Roundtrips ∧ (Instr.cmpGe c q x y t).Roundtrips := by
  and_intros <;> refine .intro rfl fun h => ?_ <;> obtain ⟨hq, hx, hy⟩ := and3_true h
  all_goals
    refine decodesTo_raw3 (by decide) (numOpr_combine_lt c hq) (SSrc.opr_lt hx) (SSrc.opr_lt hy) (by decide) t.code_lt fun w e p hmin hty hp => ?_
    obtain ⟨h24, h20⟩ := p.d.combine hq
    simp [decodeWord_cmp p.maj, decCmp, hp, p.d.noD rfl, h24, h20, p.x.sSrc hx, p.y.sSrc hy, hmin, hty]

theorem roundtrips_cmp_nan (c : Combine) (q : Nat) (x y : SSrc) : (Instr.cmpUn c q x y).Roundtrips ∧ (Instr.cmpOrd c q x y).Roundtrips := by
  and_intros <;> refine .intro rfl fun h => ?_ <;> obtain ⟨hq, hx, hy⟩ := and3_true h
  all_goals
    refine decodesTo_raw3 (by decide) (numOpr_combine_lt c hq) (SSrc.opr_lt hx) (SSrc.opr_lt hy) (by decide) (by decide) fun w e p hmin hty hp => ?_
    obtain ⟨h24, h20⟩ := p.d.combine hq
    simp [decodeWord_cmp p.maj, decCmp, hp, p.d.noD rfl, h24, h20, p.x.sSrc hx, p.y.sSrc hy, hmin, hty, ctyOf]

theorem roundtrips_cmpi (c : Combine) (q : Nat) (x : SSrc) (v : Int) (t : ITy) :
    (Instr.cmpiEq c q x v t).Roundtrips ∧ (Instr.cmpiNe c q x v t).Roundtrips ∧ (Instr.cmpiLt c q x v t).Roundtrips
    ∧ (Instr.cmpiLe c q x v t).Roundtrips ∧ (Instr.cmpiGt c q x v t).Roundtrips ∧ (Instr.cmpiGe c q x v t).Roundtrips := by
  have hi := immF_lt 9 v
  have ht := cmpiTyCode_lt t
  have hlow : ∀ m < 8, (m * 2 ^ 11 + cmpiTyCode t * 2 ^ 9 + immF 9 v) / 2 ^ 11 % 2 ^ 3 = m := by omega
  and_intros <;> refine .intro rfl fun h => ?_ <;> obtain ⟨hq, hx, hv⟩ := and3_true h
  all_goals
    refine decodesTo_raw2 (by decide) (numOpr_combine_lt c hq) (SSrc.opr_lt hx) (by omega) fun w e p g => ?_
    obtain ⟨h24, h20⟩ := p.d.combine hq
    have hm := p.eq 11 3 (hlow _ (by decide))
    have h9 : fld w 9 2 = cmpiTyCode t := p.eq 9 2 (by omega)
    have hf : extS 9 (fld w 0 9) e = v := extS_of_eq_immF (by decide) hv g (p.eq 0 9 (by omega))
    simp [decodeWord_cmpi p.maj, decCmpi, p.d.noD rfl, p.noY, h24, h20, p.x.sSrc hx, hm, h9, hf]

theorem roundtrips_plog (d x y : Nat) :
    (Instr.pand d x y).Roundtrips ∧ (Instr.por d x y).Roundtrips ∧ (Instr.pxor d x y).Roundtrips ∧ (Instr.pandn d x y).Roundtrips := by
  and_intros <;> refine .intro rfl fun h => ?_ <;> obtain ⟨hd, hx, hy⟩ := and3_true h
  all_goals
    refine decodesTo_raw3_minor (by decide) (numOpr_pred_lt hd) (numOpr_pred_lt hx) (numOpr_pred_lt hy) (by decide) fun w e p hmin ht hp => ?_
    simp [decodeWord_plog p.maj, decPlog, hp, p.d.noD rfl, p.x.noX rfl, p.y.noY rfl, ht, p.d.pSel hd, p.x.pSel hx, p.y.pSel hy, hmin]

theorem roundtrips_plog1 (d x : Nat) : (Instr.pnot d x).Roundtrips ∧ (Instr.pmov d x).Roundtrips := by
  and_intros <;> refine .intro rfl fun h => ?_ <;> obtain ⟨hd, hx⟩ := Bool.and_eq_true_iff.1 h
  all_goals
    refine decodesTo_raw3_minor (by decide) (numOpr_pred_lt hd) (numOpr_pred_lt hx) (by decide) (by decide) fun w e p hmin ht hp => ?_
    simp [decodeWord_plog p.maj, decPlog, hp, p.d.noD rfl, p.x.noX rfl, p.y.noY rfl, ht, p.d.pSel hd, p.x.pSel hx, p.y.1, Opr.zero, hmin]

theorem roundtrips_plog0 (d : Nat) : (Instr.pset d).Roundtrips ∧ (Instr.pclr d).Roundtrips := by
  and_intros <;> refine .intro rfl fun hd => ?_
  all_goals
    refine decodesTo_raw3_minor (by decide) (numOpr_pred_lt hd) (by decide) (by decide) (by decide) fun w e p hmin ht hp => ?_
    simp [decodeWord_plog p.maj, decPlog, hp, p.d.noD rfl, p.x.noX rfl, p.y.noY rfl, ht, p.d.pSel hd, p.x.1, p.y.1, Opr.zero, hmin]

theorem roundtrips_sel (d : SDst) (q : Nat) (neg : Bool) (x y : SSrc) : (Instr.sel d q neg x y).Roundtrips := by
  refine .intro rfl fun h => ?_
  obtain ⟨hd, hq, hx, hy⟩ := and4_true h
  have hq : q < 16 := of_decide_eq_true hq
  have hb := bit_lt neg
  refine decodesTo_raw3_ib (by decide) (SDst.opr_lt hd) (SSrc.opr_lt hx) (SSrc.opr_lt hy) (by omega) fun w e p g => ?_
  have ht : fTy w = 0 := p.eq 0 3 (by omega)
  have h4 : fld w 4 4 = q := p.eq 4 4 (by omega)
  have h3 : fBit w 3 = neg := fBit_of_fld (p.eq 3 1 (by omega))
  simp [decodeWord_sel p.maj, decSel, g.plain, zeroT, ht, p.d.sDst hd, p.x.sSrc hx, p.y.sSrc hy, h4, h3]

/-! ## Scalar floating point, state registers, loop levels (R83 to R86, R99) -/

theorem roundtrips_sfp (d : SDst) (x y : SSrc) :
    (Instr.sfadd d x y).Roundtrips ∧ (Instr.sfsub d x y).Roundtrips ∧ (Instr.sfmul d x y).Roundtrips ∧ (Instr.sfmin d x y).Roundtrips
    ∧ (Instr.sfmax d x y).Roundtrips := by
  and_intros <;> refine .intro rfl fun h => ?_ <;> obtain ⟨hd, hx, hy⟩ := and3_true h
  all_goals
    refine decodesTo_raw3 (by decide) (SDst.opr_lt hd) (SSrc.opr_lt hx) (SSrc.opr_lt hy) (by decide) (by decide) fun w e p hmin hty hp => ?_
    simp [decodeWord_sfp p.maj, decSfp, hp, hmin, hty, p.d.sDst hd, p.x.sSrc hx, p.y.sSrc hy]

theorem roundtrips_sfma (d : Nat) (x y : SSrc) : (Instr.sfma d x y).Roundtrips := by
  refine .intro rfl fun h => ?_
  obtain ⟨hd, hx, hy⟩ := and3_true h
  refine decodesTo_raw3 (by decide) (regOpr_lt_sreg hd) (SSrc.opr_lt hx) (SSrc.opr_lt hy) (by decide) (by decide) fun w e p hmin hty hp => ?_
  simp [decodeWord_sfp p.maj, decSfp, hp, hmin, hty, p.d.sBoth hd, p.x.sSrc hx, p.y.sSrc hy]

theorem roundtrips_sfcvt (d : SDst) (x : SSrc) (s : Nat) (t : Ty) : (Instr.sfcvt d x s t).Roundtrips := by
  refine .intro rfl fun h => ?_
  obtain ⟨hd, hx, hs⟩ := and3_true h
  have hs' : s < 16 := by simp [sfcvtSrc] at hs; omega
  refine decodesTo_raw3 (by decide) (SDst.opr_lt hd) (SSrc.opr_lt hx) (show s < 64 by omega) (by decide) t.code_lt fun w e p hmin hty hp => ?_
  have h12 : fld w 12 2 = 0 := p.y.eq 4 2 (by omega)
  have h8 : fld w 8 4 = s := p.y.eq 0 4 (by omega)
  simp [decodeWord_sfp p.maj, decSfp, hp, hmin, hty, p.d.sDst hd, p.x.sSrc hx, p.y.noY rfl, h12, h8, hs]

theorem roundtrips_sfp1 (d : SDst) (x : SSrc) : (Instr.sfabs d x).Roundtrips ∧ (Instr.sfneg d x).Roundtrips := by
  and_intros <;> refine .intro rfl fun h => ?_ <;> obtain ⟨hd, hx⟩ := Bool.and_eq_true_iff.1 h
  all_goals
    refine decodesTo_raw3 (by decide) (SDst.opr_lt hd) (SSrc.opr_lt hx) (by decide) (by decide) (by decide) fun w e p hmin hty hp => ?_
    simp [decodeWord_sfp p.maj, decSfp, hp, hmin, hty, p.d.sDst hd, p.x.sSrc hx, p.y.zero]

theorem kAssigned_lt {k : Nat} (h : kAssigned k = true) : k < 2 ^ 12 := by
  simp only [kAssigned, decide_eq_true_eq] at h; omega

theorem roundtrips_getk (d : SDst) (k : Nat) : (Instr.getk d k).Roundtrips := by
  refine .intro rfl fun h => ?_
  obtain ⟨hd, hk⟩ := Bool.and_eq_true_iff.1 h
  have hk' := kAssigned_lt hk
  refine decodesTo_raw1 (by decide) (SDst.opr_lt hd) (by omega) fun w e p g => ?_
  have hmin : fMin w = 0 := p.eq 3 5 (by omega)
  have ht : fTy w = 0 := p.eq 0 3 (by omega)
  have h8 : fld w 8 12 = k := p.eq 8 12 (by omega)
  simp [decodeWord_kreg p.maj, decKreg, g.plain, p.noX, p.noY, zeroT, ht, hmin, p.d.sDst hd, h8, hk]

theorem roundtrips_setk (k : Nat) (x : SSrc) : (Instr.setk k x).Roundtrips := by
  refine .intro rfl fun h => ?_
  obtain ⟨hk, hx⟩ := Bool.and_eq_true_iff.1 h
  have hk' := kAssigned_lt hk
  refine decodesTo_raw1 (by decide) (SSrc.opr_lt hx) (by omega) fun w e p g => ?_
  have hmin : fMin w = 1 := p.eq 3 5 (by omega)
  have ht : fTy w = 0 := p.eq 0 3 (by omega)
  have h8 : fld w 8 12 = k := p.eq 8 12 (by omega)
  simp [decodeWord_kreg p.maj, decKreg, g.plain, p.noX, p.noY, zeroT, ht, hmin, p.d.sSrc hx, h8, hk]

theorem roundtrips_loopq (d : SDst) (n : Nat) : (Instr.lidx d n).Roundtrips ∧ (Instr.lcnt d n).Roundtrips := by
  refine ⟨.intro rfl fun h => ?_, .intro rfl fun h => ?_⟩ <;> obtain ⟨hd, hn⟩ := Bool.and_eq_true_iff.1 h
    <;> have hn : n < 6 := of_decide_eq_true hn
  · refine decodesTo_raw3_minor (m := 0) (by decide) (SDst.opr_lt hd) (show n < 64 by omega) (by decide) (by decide) fun w e p hmin ht hp => ?_
    simp [decodeWord_loopq p.maj, decLoopq, hp, p.d.sDst hd, p.x.noX rfl, p.x.1, numOpr, hn, p.y.zero, ht, hmin]
  · refine decodesTo_raw3_minor (m := 1) (by decide) (SDst.opr_lt hd) (show n < 64 by omega) (by decide) (by decide) fun w e p hmin ht hp => ?_
    simp [decodeWord_loopq p.maj, decLoopq, hp, p.d.sDst hd, p.x.noX rfl, p.x.1, numOpr, hn, p.y.zero, ht, hmin]

/-! ## Branches, loops, traps (R25) -/

theorem roundtrips_bra (q : Nat) (neg : Bool) (v : Int) : (Instr.bra q neg v).Roundtrips := by
  refine .intro rfl fun h => ?_
  obtain ⟨hq, hv⟩ := Bool.and_eq_true_iff.1 h
  have hq : q < 16 := of_decide_eq_true hq
  have hb := bit_lt neg
  have hi := immF_lt 21 v
  refine decodesTo_raw0 (by decide) (by omega) fun w e p g => ?_
  have h22 : fld w 22 4 = q := p.eq 22 4 (by omega)
  have h21 : fBit w 21 = neg := fBit_of_fld (p.eq 21 1 (by omega))
  have hf : extS 21 (fld w 0 21) e = v := extS_of_eq_immF (by decide) hv g (p.eq 0 21 (by omega))
  simp [decodeWord_bra p.maj, decBra, p.noD, p.noX, p.noY, h22, h21, hf]

theorem roundtrips_call (v : Int) : (Instr.call v).Roundtrips := by
  refine .intro rfl fun hv => ?_
  have hi := immF_lt 26 v
  refine decodesTo_raw0 (by decide) hi fun w e p g => ?_
  have hf : extS 26 (fld w 0 26) e = v := extS_of_eq_immF (by decide) hv g (p.eq 0 26 (by omega))
  simp [decodeWord_call p.maj, decCall, p.noD, p.noX, p.noY, hf]

theorem roundtrips_jmpr (x : SSrc) : (Instr.bri x).Roundtrips ∧ (Instr.ret x).Roundtrips := by
  refine ⟨.intro rfl fun h => ?_, .intro rfl fun h => ?_⟩
  · refine decodesTo_raw3_minor (m := 0) (by decide) (by decide) (SSrc.opr_lt h) (by decide) (by decide) fun w e p hmin ht hp => ?_
    simp [decodeWord_jmpr p.maj, decJmpr, hp, p.d.zero, p.x.sSrc h, p.y.zero, ht, hmin]
  · refine decodesTo_raw3_minor (m := 2) (by decide) (by decide) (SSrc.opr_lt h) (by decide) (by decide) fun w e p hmin ht hp => ?_
    simp [decodeWord_jmpr p.maj, decJmpr, hp, p.d.zero, p.x.sSrc h, p.y.zero, ht, hmin]

theorem roundtrips_calli (d : SDst) (x : SSrc) : (Instr.calli d x).Roundtrips := by
  refine .intro rfl fun h => ?_
  obtain ⟨hd, hx⟩ := Bool.and_eq_true_iff.1 h
  refine decodesTo_raw3_minor (m := 1) (by decide) (SDst.opr_lt hd) (SSrc.opr_lt hx) (by decide) (by decide) fun w e p hmin ht hp => ?_
  simp [decodeWord_jmpr p.maj, decJmpr, hp, p.d.sDst hd, p.x.sSrc hx, p.y.zero, ht, hmin]

theorem roundtrips_loop (x : SSrc) (v : Nat) : (Instr.loop x v).Roundtrips := by
  refine .intro rfl fun h => ?_
  obtain ⟨hx, hv⟩ := Bool.and_eq_true_iff.1 h
  obtain ⟨hv, -⟩ : 1 ≤ v ∧ v < 2 ^ 28 := of_decide_eq_true hv
  refine decodesTo_raw1 (by decide) (SSrc.opr_lt hx) (by omega) fun w e p g => ?_
  have hf : extU 20 (fld w 0 20) e = v := extU_of_eq_mod g (p.eq 0 20 (by omega))
  simp [decodeWord_loop p.maj, decLoop, p.noX, p.noY, p.d.sSrc hx, hf, hv]

theorem roundtrips_loopi (n v : Nat) : (Instr.loopi n v).Roundtrips := by
  refine .intro rfl fun h => ?_
  obtain ⟨hn, hv⟩ := Bool.and_eq_true_iff.1 h
  have hn : n < 2 ^ 14 := of_decide_eq_true hn
  obtain ⟨hv, -⟩ : 1 ≤ v ∧ v < 2 ^ 20 := of_decide_eq_true hv
  refine decodesTo_raw0 (by decide) (by omega) fun w e p g => ?_
  have h12 : fld w 12 14 = n := p.eq 12 14 (by omega)
  have hf : extU 12 (fld w 0 12) e = v := extU_of_eq_mod g (p.eq 0 12 (by omega))
  simp [decodeWord_loopi p.maj, decLoopi, p.noD, p.noX, p.noY, h12, hf, hv]

theorem roundtrips_leave : Instr.leave.Roundtrips := by
  refine .intro rfl fun _ => decodesTo_raw0_minor (m := 0) (by decide) (by decide) fun w e p hmin ht hp => ?_
  simp [decodeWord_loopc p.maj, decLoopc, hp, p.d.zero, p.x.zero, p.y.zero, ht, hmin]

theorem roundtrips_brm (v : Int) : (Instr.brmNone v).Roundtrips ∧ (Instr.brmAll v).Roundtrips ∧ (Instr.brmAny v).Roundtrips := by
  have hi := immF_lt 21 v
  have hk : ∀ c < 4, (c * 2 ^ 24 + immF 21 v) / 2 ^ 24 % 2 ^ 2 = c := by omega
  and_intros <;> refine .intro rfl fun hv => decodesTo_raw0 (by decide) (by omega) fun w e p g => ?_
  all_goals
    have h21 : fld w 21 3 = 0 := p.eq 21 3 (by omega)
    have h24 := p.eq 24 2 (hk _ (by decide))
    have hf : extS 21 (fld w 0 21) e = v := extS_of_eq_immF (by decide) hv g (p.eq 0 21 (by omega))
    simp [decodeWord_brm p.maj, decBrm, p.noD, p.noX, p.noY, h21, h24, hf]

theorem roundtrips_sys (v : Nat) : (Instr.trap v).Roundtrips ∧ (Instr.delay v).Roundtrips ∧ (Instr.brk v).Roundtrips := by
  have hk : ∀ m < 32, (v % 2 ^ 18 * 2 ^ 8 + m * 8) / 2 ^ 3 % 2 ^ 5 = m := by omega
  and_intros <;> refine .intro rfl fun _ => decodesTo_raw0 (by decide) (by omega) fun w e p g => ?_
  all_goals
    have hmin : fMin w = _ := p.eq 3 5 (hk _ (by decide))
    have ht : fTy w = 0 := p.eq 0 3 (by omega)
    have hf : extU 18 (fld w 8 18) e = v := extU_of_eq_mod g (p.eq 8 18 (by omega))
    simp [decodeWord_sys p.maj, decSys, p.noD, p.noX, p.noY, zeroT, ht, hmin, hf]


/-! ## Memory (R26, R27) -/

/-- R26: a word of LD or ST, with its policy register, its offset and its type. -/
theorem decodesTo_ldst {i : Instr} {maj q : Nat} {d x : Opr} {v : Int} {t : Ty} (hm : maj < 64) (hd : d.f < 64) (hx : x.f < 64)
    (hv : wfInt 16 v = true) (hq : wfPol q = true)
    (h : ∀ w e, Packs2 w e maj d x (q * 2 ^ 11 + immF 8 v * 8 + t.code) → fld w 11 3 = q → extS 8 (fld w 3 8) e = v → fTy w = t.code →
      decodeWord w e = .ok i) : (raw2 maj d x (q * 2 ^ 11 + immF 8 v * 8 + t.code) (immB 8 v)).DecodesTo i := by
  have hq : q < 8 := of_decide_eq_true hq
  have hi := immF_lt 8 v
  have ht := t.code_lt
  exact decodesTo_raw2 hm hd hx (by omega) fun w e p g =>
    h w e p (p.eq 11 3 (by omega)) (extS_of_eq_immF (by decide) hv g (p.eq 3 8 (by omega))) (p.eq 0 3 (by omega))

theorem roundtrips_ld (d : SDst) (x : SSrc) (v : Int) (q : Nat) (t : Ty) : (Instr.ld d x v q t).Roundtrips := by
  refine .intro rfl fun h => ?_
  obtain ⟨hd, hx, hv, hq⟩ := and4_true h
  refine decodesTo_ldst (by decide) (SDst.opr_lt hd) (SSrc.opr_lt hx) hv hq fun w e p h11 hf hty => ?_
  simp [decodeWord_ld p.maj, decLd, p.noY, p.d.sDst hd, p.x.sSrc hx, hty, h11, hf]

theorem roundtrips_st (d x : SSrc) (v : Int) (q : Nat) (t : Ty) : (Instr.st d x v q t).Roundtrips := by
  refine .intro rfl fun h => ?_
  obtain ⟨hd, hx, hv, hq⟩ := and4_true h
  refine decodesTo_ldst (by decide) (SSrc.opr_lt hd) (SSrc.opr_lt hx) hv hq fun w e p h11 hf hty => ?_
  simp [decodeWord_st p.maj, decSt, p.noY, p.d.sSrc hd, p.x.sSrc hx, hty, h11, hf]

/-- R26: a word of AMO or RED, with its operation, its policy register and its width bit. -/
theorem decodesTo_rawAmo {i : Instr} {maj op q : Nat} {d x y : Opr} {w64 : Bool} (hm : maj < 64) (hd : d.f < 64) (hx : x.f < 64)
    (hy : y.f < 64) (hop : op < 16) (hq : wfPol q = true)
    (h : ∀ w e, Packs3 w e maj d x y (op * 16 + q * 2 + bit w64) → fld w 4 4 = op → fld w 1 3 = q → fBit w 0 = w64 → e.plain = .ok () →
      decodeWord w e = .ok i) : (rawAmo maj d x y op q w64).DecodesTo i := by
  have hq : q < 8 := of_decide_eq_true hq
  have hb := bit_lt w64
  exact decodesTo_raw3_ib (ib := none) hm hd hx hy (by omega) fun w e p g =>
    h w e p (p.eq 4 4 (by omega)) (p.eq 1 3 (by omega)) (fBit_of_fld (p.eq 0 1 (by omega))) g.plain

theorem roundtrips_amo (d : SDst) (x y : SSrc) (q : Nat) (w64 : Bool) :
    (Instr.amoAdd d x y q w64).Roundtrips ∧ (Instr.amoSmin d x y q w64).Roundtrips ∧ (Instr.amoSmax d x y q w64).Roundtrips
    ∧ (Instr.amoZmin d x y q w64).Roundtrips ∧ (Instr.amoZmax d x y q w64).Roundtrips ∧ (Instr.amoAnd d x y q w64).Roundtrips
    ∧ (Instr.amoOr d x y q w64).Roundtrips ∧ (Instr.amoXor d x y q w64).Roundtrips ∧ (Instr.amoSwap d x y q w64).Roundtrips := by
  and_intros <;> refine .intro rfl fun h => ?_ <;> obtain ⟨hd, hx, hy, hq⟩ := and4_true h
  all_goals
    refine decodesTo_rawAmo (by decide) (SDst.opr_lt hd) (SSrc.opr_lt hx) (SSrc.opr_lt hy) (by decide) hq fun w e p h4 h1 h0 hp => ?_
    simp [decodeWord_amo p.maj, decAmo, hp, p.d.sDst hd, p.x.sSrc hx, p.y.sSrc hy, h4, h1, h0]

theorem roundtrips_amo_float (d : SDst) (x y : SSrc) (q : Nat) :
    (Instr.amoFadd d x y q).Roundtrips ∧ (Instr.amoFmin d x y q).Roundtrips ∧ (Instr.amoFmax d x y q).Roundtrips := by
  and_intros <;> refine .intro rfl fun h => ?_ <;> obtain ⟨hd, hx, hy, hq⟩ := and4_true h
  all_goals
    refine decodesTo_rawAmo (by decide) (SDst.opr_lt hd) (SSrc.opr_lt hx) (SSrc.opr_lt hy) (by decide) hq fun w e p h4 h1 h0 hp => ?_
    simp [decodeWord_amo p.maj, decAmo, hp, p.d.sDst hd, p.x.sSrc hx, p.y.sSrc hy, h4, h1, h0]

/-- R26: CAS names an even register. -/
theorem evenReg_wf {n : Nat} (h : decide (n % 2 = 0 ∧ n < 64) = true) : wfSReg n = true ∧ n % 2 = 0 :=
  ⟨decide_eq_true (of_decide_eq_true h).2, (of_decide_eq_true h).1⟩

theorem roundtrips_amoCas (d : SDst) (x : SSrc) (n q : Nat) (w64 : Bool) : (Instr.amoCas d x n q w64).Roundtrips := by
  refine .intro rfl fun h => ?_
  obtain ⟨hd, hx, hn, hq⟩ := and4_true h
  obtain ⟨hn, heven⟩ := evenReg_wf hn
  refine decodesTo_rawAmo (by decide) (SDst.opr_lt hd) (SSrc.opr_lt hx) (regOpr_lt_sreg hn) (by decide) hq fun w e p h4 h1 h0 hp => ?_
  simp [decodeWord_amo p.maj, decAmo, hp, p.d.sDst hd, p.x.sSrc hx, p.y.sBoth hn, h4, h1, h0, heven]

theorem roundtrips_red (x y : SSrc) (q : Nat) (w64 : Bool) :
    (Instr.redAdd x y q w64).Roundtrips ∧ (Instr.redSmin x y q w64).Roundtrips ∧ (Instr.redSmax x y q w64).Roundtrips
    ∧ (Instr.redZmin x y q w64).Roundtrips ∧ (Instr.redZmax x y q w64).Roundtrips ∧ (Instr.redAnd x y q w64).Roundtrips
    ∧ (Instr.redOr x y q w64).Roundtrips ∧ (Instr.redXor x y q w64).Roundtrips ∧ (Instr.redSwap x y q w64).Roundtrips := by
  and_intros <;> refine .intro rfl fun h => ?_ <;> obtain ⟨hx, hy, hq⟩ := and3_true h
  all_goals
    refine decodesTo_rawAmo (by decide) (by decide) (SSrc.opr_lt hx) (SSrc.opr_lt hy) (by decide) hq fun w e p h4 h1 h0 hp => ?_
    simp [decodeWord_red p.maj, decRed, hp, p.d.zero, p.x.sSrc hx, p.y.sSrc hy, h4, h1, h0]

theorem roundtrips_red_float (x y : SSrc) (q : Nat) :
    (Instr.redFadd x y q).Roundtrips ∧ (Instr.redFmin x y q).Roundtrips ∧ (Instr.redFmax x y q).Roundtrips := by
  and_intros <;> refine .intro rfl fun h => ?_ <;> obtain ⟨hx, hy, hq⟩ := and3_true h
  all_goals
    refine decodesTo_rawAmo (by decide) (by decide) (SSrc.opr_lt hx) (SSrc.opr_lt hy) (by decide) hq fun w e p h4 h1 h0 hp => ?_
    simp [decodeWord_red p.maj, decRed, hp, p.d.zero, p.x.sSrc hx, p.y.sSrc hy, h4, h1, h0]

theorem roundtrips_redCas (x : SSrc) (n q : Nat) (w64 : Bool) : (Instr.redCas x n q w64).Roundtrips := by
  refine .intro rfl fun h => ?_
  obtain ⟨hx, hn, hq⟩ := and3_true h
  obtain ⟨hn, heven⟩ := evenReg_wf hn
  refine decodesTo_rawAmo (by decide) (by decide) (SSrc.opr_lt hx) (regOpr_lt_sreg hn) (by decide) hq fun w e p h4 h1 h0 hp => ?_
  simp [decodeWord_red p.maj, decRed, hp, p.d.zero, p.x.sSrc hx, p.y.sBoth hn, h4, h1, h0, heven]

/-- R27: a word of the remote major, with its kind, its policy register and its type. -/
theorem decodesTo_remote {i : Instr} {kind q c : Nat} {d x y : Opr} {ib : Option Nat} (hd : d.f < 64) (hx : x.f < 64) (hy : y.f < 64)
    (hk : kind < 4) (hq : wfPol q = true) (hc : c < 8)
    (h : ∀ w e, Packs3 w e 0x1C d x y (kind * 64 + q * 8 + c) → fld w 6 2 = kind → fld w 3 3 = q → fTy w = c → e.Gives ib →
      decodeWord w e = .ok i) : { raw3 0x1C d x y (kind * 64 + q * 8 + c) with ib := ib }.DecodesTo i := by
  have hq : q < 8 := of_decide_eq_true hq
  exact decodesTo_raw3_ib (by decide) hd hx hy (by omega) fun w e p g =>
    h w e p (p.eq 6 2 (by omega)) (p.eq 3 3 (by omega)) (p.eq 0 3 (by omega)) g

theorem roundtrips_ldx (d : SDst) (x y : SSrc) (q : Nat) (t : Ty) : (Instr.ldx d x y q t).Roundtrips := by
  refine .intro rfl fun h => ?_
  obtain ⟨hd, hx, hy, hq⟩ := and4_true h
  refine decodesTo_remote (ib := none) (SDst.opr_lt hd) (SSrc.opr_lt hx) (SSrc.opr_lt hy) (by decide) hq t.code_lt fun w e p h6 h3 hty g => ?_
  simp [decodeWord_remote p.maj, decRemote, g.plain, p.d.sDst hd, p.x.sSrc hx, p.y.sSrc hy, h6, h3, hty]

theorem roundtrips_stx (d x y : SSrc) (q : Nat) (t : Ty) : (Instr.stx d x y q t).Roundtrips := by
  refine .intro rfl fun h => ?_
  obtain ⟨hd, hx, hy, hq⟩ := and4_true h
  refine decodesTo_remote (ib := none) (SSrc.opr_lt hd) (SSrc.opr_lt hx) (SSrc.opr_lt hy) (by decide) hq t.code_lt fun w e p h6 h3 hty g => ?_
  simp [decodeWord_remote p.maj, decRemote, g.plain, p.d.sSrc hd, p.x.sSrc hx, p.y.sSrc hy, h6, h3, hty]

theorem numOpr_pair_lt {n : Nat} (h : wfPair n = true) : (numOpr n).f < 64 := by
  simp only [wfPair, decide_eq_true_eq] at h; simp only [numOpr]; omega

/-- Immediate mode lends no high bit: a destination of AMX has none of its own, and CAS has a register (R256). -/
theorem amx_dst_low {op : AmoOp} {d : SDst} (h : (match d with | .reg n => decide (n < 48) | .queue => decide (op ≠ .cas)) = true) :
    d.opr.h = false ∧ (!decide (op = .cas) || !decide (d = .queue)) = true := by
  cases d with
  | reg n => exact ⟨by simp [SDst.opr, regOpr, of_decide_eq_true h], by simp⟩
  | queue => exact ⟨rfl, by simpa using h⟩

theorem roundtrips_amx (op : AmoOp) (d : SDst) (n : Nat) (y : SSrc) (q : Nat) (t : ATy) : (Instr.amx op d n y q t).Roundtrips := by
  refine .intro rfl fun h => ?_
  obtain ⟨h, hy, hq, ht⟩ := and4_true h
  obtain ⟨hd, hlow, hn⟩ := and3_true h
  obtain ⟨hdh, hcas⟩ := amx_dst_low hlow
  obtain ⟨hyh, hy⟩ := SSrc.opr_low hy
  refine decodesTo_remote (SDst.opr_lt hd) (numOpr_pair_lt hn) (SSrc.opr_lt hy) (by decide) hq t.code_lt fun w e p h6 h3 hty g => ?_
  have hdst : sDst false (fD w) = .ok d := by rw [← hdh, p.d.1, sDst_opr hd]
  have hsrc : sSrc false (fY w) = .ok y := by rw [← hyh, p.y.1, sSrc_opr hy]
  simp [decodeWord_remote p.maj, decRemote, g.isImm.1, g.isImm.2, hdst, p.x.pairSel hn, hsrc, hcas, h6, h3, hty, ht]

theorem roundtrips_redx (op : AmoOp) (n : Nat) (y : SSrc) (q : Nat) (t : ATy) : (Instr.redx op n y q t).Roundtrips := by
  refine .intro rfl fun h => ?_
  obtain ⟨hn, hy, hq, ht⟩ := and4_true h
  obtain ⟨hyh, hy⟩ := SSrc.opr_low hy
  refine decodesTo_remote (by decide) (numOpr_pair_lt hn) (SSrc.opr_lt hy) (by decide) hq t.code_lt fun w e p h6 h3 hty g => ?_
  have hsrc : sSrc false (fY w) = .ok y := by rw [← hyh, p.y.1, sSrc_opr hy]
  have hz : fD w = 0 := p.d.1
  simp [decodeWord_remote p.maj, decRemote, g.isImm.1, g.isImm.2, hz, p.x.pairSel hn, hsrc, h6, h3, hty, ht]

theorem roundtrips_fence (mask scope : Nat) : (Instr.fence mask scope).Roundtrips := by
  refine .intro rfl fun h => ?_
  obtain ⟨hm, hs⟩ := Bool.and_eq_true_iff.1 h
  have hm : mask < 2 ^ 16 := of_decide_eq_true hm
  have hs : scope < 2 ^ 2 := of_decide_eq_true hs
  refine decodesTo_raw0 (by decide) (by omega) fun w e p g => ?_
  have hmin : fMin w = 0 := p.eq 3 5 (by omega)
  have ht : fTy w = 0 := p.eq 0 3 (by omega)
  have h10 : fld w 10 16 = mask := p.eq 10 16 (by omega)
  have h8 : fld w 8 2 = scope := p.eq 8 2 (by omega)
  simp [decodeWord_memc p.maj, decMemc, g.plain, hmin, p.noD, p.noX, p.noY, zeroT, ht, h10, h8]

theorem roundtrips_cacheOp (x y : SSrc) (q : Nat) :
    (Instr.pref x y q).Roundtrips ∧ (Instr.pin x y q).Roundtrips ∧ (Instr.unpin x y q).Roundtrips ∧ (Instr.flush x y q).Roundtrips
    ∧ (Instr.inval x y q).Roundtrips := by
  and_intros <;> refine .intro rfl fun h => ?_ <;> obtain ⟨hx, hy, hq⟩ := and3_true h
  all_goals
    refine decodesTo_raw3 (by decide) (by decide) (SSrc.opr_lt hx) (SSrc.opr_lt hy) (by decide) (of_decide_eq_true hq) fun w e p hmin hty hp => ?_
    simp [decodeWord_memc p.maj, decMemc, hp, hmin, hty, p.d.zero, p.x.sSrc hx, p.y.sSrc hy]

/-! ## Vectors (R168 to R182) -/

theorem roundtrips_vfa (d : VDst) (x y : VSrc) (t : FTy) :
    (Instr.vadd d x y t).Roundtrips ∧ (Instr.vsub d x y t).Roundtrips ∧ (Instr.vmul d x y t).Roundtrips ∧ (Instr.vmin d x y t).Roundtrips
    ∧ (Instr.vmax d x y t).Roundtrips ∧ (Instr.vcpys d x y t).Roundtrips := by
  and_intros <;> refine .intro rfl fun h => ?_ <;> obtain ⟨hd, hx, hy⟩ := and3_true h
  all_goals
    refine decodesTo_raw3 (by decide) (VDst.opr_lt hd) (VSrc.opr_lt hx) (VSrc.opr_lt hy) (by decide) t.code_lt fun w e p hmin hty hp => ?_
    simp [decodeWord_vfa p.maj, decVfa, hp, hmin, hty, p.d.vDst hd, p.x.vSrc hx, p.y.vSrc hy]

theorem roundtrips_vfma (d : Nat) (x y : VSrc) (t : FTy) : (Instr.vfma d x y t).Roundtrips ∧ (Instr.vfms d x y t).Roundtrips := by
  and_intros <;> refine .intro rfl fun h => ?_ <;> obtain ⟨hd, hx, hy⟩ := and3_true h
  all_goals
    refine decodesTo_raw3 (by decide) (regOpr_lt_vreg hd) (VSrc.opr_lt hx) (VSrc.opr_lt hy) (by decide) t.code_lt fun w e p hmin hty hp => ?_
    simp [decodeWord_vfa p.maj, decVfa, hp, hmin, hty, p.d.vBoth hd, p.x.vSrc hx, p.y.vSrc hy]

theorem roundtrips_vfa1 (d : VDst) (x : VSrc) (t : FTy) : (Instr.vabs d x t).Roundtrips ∧ (Instr.vneg d x t).Roundtrips := by
  and_intros <;> refine .intro rfl fun h => ?_ <;> obtain ⟨hd, hx⟩ := Bool.and_eq_true_iff.1 h
  all_goals
    refine decodesTo_raw3 (by decide) (VDst.opr_lt hd) (VSrc.opr_lt hx) (by decide) (by decide) t.code_lt fun w e p hmin hty hp => ?_
    simp [decodeWord_vfa p.maj, decVfa, hp, hmin, hty, p.d.vDst hd, p.x.vSrc hx, p.y.zero]

theorem roundtrips_vfx (d : VDst) (x : VSrc) (t : FTy) :
    (Instr.vrcp d x t).Roundtrips ∧ (Instr.vrsq d x t).Roundtrips ∧ (Instr.vsqrt d x t).Roundtrips ∧ (Instr.vexp2 d x t).Roundtrips
    ∧ (Instr.vlog2 d x t).Roundtrips ∧ (Instr.vflr d x t).Roundtrips ∧ (Instr.vrnd d x t).Roundtrips := by
  and_intros <;> refine .intro rfl fun h => ?_ <;> obtain ⟨hd, hx⟩ := Bool.and_eq_true_iff.1 h
  all_goals
    refine decodesTo_raw3 (by decide) (VDst.opr_lt hd) (VSrc.opr_lt hx) (by decide) (by decide) t.code_lt fun w e p hmin hty hp => ?_
    simp [decodeWord_vfx p.maj, decVfx, hp, hmin, hty, p.d.vDst hd, p.x.vSrc hx, p.y.zero]

theorem roundtrips_vdiv (d : VDst) (x y : VSrc) (t : FTy) : (Instr.vdiv d x y t).Roundtrips := by
  refine .intro rfl fun h => ?_
  obtain ⟨hd, hx, hy⟩ := and3_true h
  refine decodesTo_raw3 (by decide) (VDst.opr_lt hd) (VSrc.opr_lt hx) (VSrc.opr_lt hy) (by decide) t.code_lt fun w e p hmin hty hp => ?_
  simp [decodeWord_vfx p.maj, decVfx, hp, hmin, hty, p.d.vDst hd, p.x.vSrc hx, p.y.vSrc hy]

theorem roundtrips_via (d : VDst) (x y : VSrc) (sg : Bool) :
    (Instr.viadd d x y sg).Roundtrips ∧ (Instr.visub d x y sg).Roundtrips ∧ (Instr.vimul d x y sg).Roundtrips ∧ (Instr.vand d x y sg).Roundtrips
    ∧ (Instr.vor d x y sg).Roundtrips ∧ (Instr.vxor d x y sg).Roundtrips ∧ (Instr.vshl d x y sg).Roundtrips ∧ (Instr.vshr d x y sg).Roundtrips
    ∧ (Instr.vimin d x y sg).Roundtrips ∧ (Instr.vimax d x y sg).Roundtrips := by
  and_intros <;> refine .intro rfl fun h => ?_ <;> obtain ⟨hd, hx, hy⟩ := and3_true h
  all_goals
    refine decodesTo_raw3 (by decide) (VDst.opr_lt hd) (VSrc.opr_lt hx) (VSrc.opr_lt hy) (by decide) (sgCode_lt sg) fun w e p hmin hty hp => ?_
    simp [decodeWord_via p.maj, decVia, hp, hmin, hty, p.d.vDst hd, p.x.vSrc hx, p.y.vSrc hy]

theorem roundtrips_viabs (d : VDst) (x : VSrc) : (Instr.viabs d x).Roundtrips := by
  refine .intro rfl fun h => ?_
  obtain ⟨hd, hx⟩ := Bool.and_eq_true_iff.1 h
  refine decodesTo_raw3 (m := 10) (c := 0) (by decide) (VDst.opr_lt hd) (VSrc.opr_lt hx) (by decide) (by decide) (by decide) fun w e p hmin hty hp => ?_
  simp [decodeWord_via p.maj, decVia, hp, hmin, hty, sgOf, p.d.vDst hd, p.x.vSrc hx, p.y.zero]

theorem roundtrips_vcmp (x y : VSrc) (t : VTy) :
    (Instr.vcmpeq x y t).Roundtrips ∧ (Instr.vcmpne x y t).Roundtrips ∧ (Instr.vcmplt x y t).Roundtrips ∧ (Instr.vcmple x y t).Roundtrips
    ∧ (Instr.vcmpgt x y t).Roundtrips ∧ (Instr.vcmpge x y t).Roundtrips := by
  and_intros <;> refine .intro rfl fun h => ?_ <;> obtain ⟨hx, hy⟩ := Bool.and_eq_true_iff.1 h
  all_goals
    refine decodesTo_raw3 (by decide) (by decide) (VSrc.opr_lt hx) (VSrc.opr_lt hy) (by decide) t.code_lt fun w e p hmin hty hp => ?_
    simp [decodeWord_vcs p.maj, decVcs, hp, hmin, hty, p.d.zero, p.x.vSrc hx, p.y.vSrc hy]

theorem roundtrips_vcmpun (x y : VSrc) (t : FTy) : (Instr.vcmpun x y t).Roundtrips := by
  refine .intro rfl fun h => ?_
  obtain ⟨hx, hy⟩ := Bool.and_eq_true_iff.1 h
  refine decodesTo_raw3 (by decide) (by decide) (VSrc.opr_lt hx) (VSrc.opr_lt hy) (by decide) t.code_lt fun w e p hmin hty hp => ?_
  simp [decodeWord_vcs p.maj, decVcs, hp, hmin, hty, p.d.zero, p.x.vSrc hx, p.y.vSrc hy]

theorem roundtrips_vsel (d : VDst) (x y : VSrc) (t : VTy) : (Instr.vsel d x y t).Roundtrips := by
  refine .intro rfl fun h => ?_
  obtain ⟨hd, hx, hy⟩ := and3_true h
  refine decodesTo_raw3 (by decide) (VDst.opr_lt hd) (VSrc.opr_lt hx) (VSrc.opr_lt hy) (by decide) t.code_lt fun w e p hmin hty hp => ?_
  simp [decodeWord_vcs p.maj, decVcs, hp, hmin, hty, p.d.vDst hd, p.x.vSrc hx, p.y.vSrc hy]

theorem fmtBits_ne_zero {n : Nat} (h : fmtBits n ≠ 0) : n < 16 := by
  by_contra hn
  exact h (by unfold fmtBits; split <;> omega)

theorem wfCvt_codes {src dst part : Nat} (h : wfCvt src dst part = true) : src < 16 ∧ dst < 16 := by
  obtain ⟨hs, hd, -⟩ := of_decide_eq_true h
  exact ⟨fmtBits_ne_zero hs, fmtBits_ne_zero hd⟩

/-- R28: a word of VCVT: `b` says that it names a rounding mode, `r` which. -/
theorem decodesTo_vcvt {i : Instr} {src dst part r : Nat} {d x : Opr} (b : Bool) (hd : d.f < 64) (hx : x.f < 64) (hc : wfCvt src dst part = true)
    (hr : r < 8)
    (h : ∀ w e, Packs2 w e 0x22 d x (src * 2 ^ 10 + dst * 2 ^ 6 + part % 4 * 2 ^ 4 + (bit b * 8 + r)) → fld w 10 4 = src → fld w 6 4 = dst →
      extU 2 (fld w 4 2) e = part → fBit w 3 = b → fTy w = r → decodeWord w e = .ok i) :
    (raw2 0x22 d x (src * 2 ^ 10 + dst * 2 ^ 6 + part % 4 * 2 ^ 4 + (bit b * 8 + r)) (immBU 2 part)).DecodesTo i := by
  obtain ⟨hs, ht⟩ := wfCvt_codes hc
  have hb := bit_lt b
  exact decodesTo_raw2 (by decide) hd hx (by omega) fun w e p g => h w e p (p.eq 10 4 (by omega)) (p.eq 6 4 (by omega))
    (extU_of_eq_mod g (p.eq 4 2 (by omega))) (fBit_of_fld (p.eq 3 1 (by omega))) (p.eq 0 3 (by omega))

theorem roundtrips_vcvt (d : VDst) (x : VSrc) (src dst part : Nat) (mode : Option Nat) : (Instr.vcvt d x src dst part mode).Roundtrips := by
  refine .intro rfl fun h => ?_
  obtain ⟨hd, hx, hc, hm⟩ := and4_true h
  cases mode with
  | none =>
    refine decodesTo_vcvt (r := 0) false (VDst.opr_lt hd) (VSrc.opr_lt hx) hc (by decide) fun w e p h10 h6 hf h3 hty => ?_
    simp [decodeWord_vcvt p.maj, decVcvt, p.noY, p.d.vDst hd, p.x.vSrc hx, h10, h6, hf, hc, h3, hty]
  | some r =>
    have hr : r ≤ 4 := of_decide_eq_true hm
    refine decodesTo_vcvt (r := r) true (VDst.opr_lt hd) (VSrc.opr_lt hx) hc (by omega) fun w e p h10 h6 hf h3 hty => ?_
    simp [decodeWord_vcvt p.maj, decVcvt, p.noY, p.d.vDst hd, p.x.vSrc hx, h10, h6, hf, hc, h3, hty, hr]

theorem roundtrips_vred (d : VDst) (x : VSrc) (t : FTy) :
    (Instr.vxsum d x t).Roundtrips ∧ (Instr.vscan d x t).Roundtrips ∧ (Instr.vrmax d x t).Roundtrips ∧ (Instr.vrmin d x t).Roundtrips
    ∧ (Instr.vargmax d x t).Roundtrips := by
  and_intros <;> refine .intro rfl fun h => ?_ <;> obtain ⟨hd, hx⟩ := Bool.and_eq_true_iff.1 h
  all_goals
    refine decodesTo_raw3 (by decide) (VDst.opr_lt hd) (VSrc.opr_lt hx) (by decide) (by decide) t.code_lt fun w e p hmin hty hp => ?_
    simp [decodeWord_vred p.maj, decVred, hp, hmin, hty, p.d.vDst hd, p.x.vSrc hx, p.y.zero]

theorem roundtrips_visum (d : VDst) (x : VSrc) (sg : Bool) : (Instr.visum d x sg).Roundtrips := by
  refine .intro rfl fun h => ?_
  obtain ⟨hd, hx⟩ := Bool.and_eq_true_iff.1 h
  refine decodesTo_raw3 (by decide) (VDst.opr_lt hd) (VSrc.opr_lt hx) (by decide) (by decide) (sgCode_lt sg) fun w e p hmin hty hp => ?_
  simp [decodeWord_vred p.maj, decVred, hp, hmin, hty, p.d.vDst hd, p.x.vSrc hx, p.y.zero]

theorem roundtrips_vpopm (d : VDst) : (Instr.vpopm d).Roundtrips := by
  refine .intro rfl fun hd => ?_
  refine decodesTo_raw3_minor (by decide) (VDst.opr_lt hd) (by decide) (by decide) (by decide) fun w e p hmin ht hp => ?_
  simp [decodeWord_vred p.maj, decVred, hp, hmin, ht, p.d.vDst hd, p.x.zero, p.y.zero]

theorem roundtrips_vbcst (d : VDst) (x : SSrc) (t : PTy) : (Instr.vbcst d x t).Roundtrips := by
  refine .intro rfl fun h => ?_
  obtain ⟨hd, hx⟩ := Bool.and_eq_true_iff.1 h
  refine decodesTo_raw3 (by decide) (VDst.opr_lt hd) (SSrc.opr_lt hx) (by decide) (by decide) t.code_lt fun w e p hmin hty hp => ?_
  simp [decodeWord_vprm p.maj, decVprm, hp, hmin, hty, p.d.vDst hd, p.x.sSrc hx, p.y.zero]

theorem roundtrips_vext (d : SDst) (x : VSrc) (y : SSrc) (t : PTy) : (Instr.vext d x y t).Roundtrips := by
  refine .intro rfl fun h => ?_
  obtain ⟨hd, hx, hy⟩ := and3_true h
  refine decodesTo_raw3 (by decide) (SDst.opr_lt hd) (VSrc.opr_lt hx) (SSrc.opr_lt hy) (by decide) t.code_lt fun w e p hmin hty hp => ?_
  simp [decodeWord_vprm p.maj, decVprm, hp, hmin, hty, p.d.sDst hd, p.x.vSrc hx, p.y.sSrc hy]

theorem roundtrips_vins (d : Nat) (x y : SSrc) (t : PTy) : (Instr.vins d x y t).Roundtrips := by
  refine .intro rfl fun h => ?_
  obtain ⟨hd, hx, hy⟩ := and3_true h
  refine decodesTo_raw3 (by decide) (regOpr_lt_vreg hd) (SSrc.opr_lt hx) (SSrc.opr_lt hy) (by decide) t.code_lt fun w e p hmin hty hp => ?_
  simp [decodeWord_vprm p.maj, decVprm, hp, hmin, hty, p.d.vBoth hd, p.x.sSrc hx, p.y.sSrc hy]

theorem roundtrips_vrot (d : VDst) (x : VSrc) (y : SSrc) (t : PTy) : (Instr.vrot d x y t).Roundtrips := by
  refine .intro rfl fun h => ?_
  obtain ⟨hd, hx, hy⟩ := and3_true h
  refine decodesTo_raw3 (by decide) (VDst.opr_lt hd) (VSrc.opr_lt hx) (SSrc.opr_lt hy) (by decide) t.code_lt fun w e p hmin hty hp => ?_
  simp [decodeWord_vprm p.maj, decVprm, hp, hmin, hty, p.d.vDst hd, p.x.vSrc hx, p.y.sSrc hy]

theorem roundtrips_vperm (d : VDst) (x y : VSrc) (t : PTy) : (Instr.vperm d x y t).Roundtrips := by
  refine .intro rfl fun h => ?_
  obtain ⟨hd, hx, hy⟩ := and3_true h
  refine decodesTo_raw3 (by decide) (VDst.opr_lt hd) (VSrc.opr_lt hx) (VSrc.opr_lt hy) (by decide) t.code_lt fun w e p hmin hty hp => ?_
  simp [decodeWord_vprm p.maj, decVprm, hp, hmin, hty, p.d.vDst hd, p.x.vSrc hx, p.y.vSrc hy]

theorem roundtrips_viota (d : VDst) (t : PTy) : (Instr.viota d t).Roundtrips := by
  refine .intro rfl fun hd => ?_
  refine decodesTo_raw3 (by decide) (VDst.opr_lt hd) (by decide) (by decide) (by decide) t.code_lt fun w e p hmin hty hp => ?_
  simp [decodeWord_vprm p.maj, decVprm, hp, hmin, hty, p.d.vDst hd, p.x.zero, p.y.zero]

theorem roundtrips_msk (x : VSrc) : (Instr.mpush x).Roundtrips ∧ (Instr.mset x).Roundtrips := by
  refine ⟨.intro rfl fun hx => ?_, .intro rfl fun hx => ?_⟩
  · refine decodesTo_raw3_minor (m := 0) (by decide) (by decide) (VSrc.opr_lt hx) (by decide) (by decide) fun w e p hmin ht hp => ?_
    simp [decodeWord_msk p.maj, decMsk, hp, hmin, ht, p.d.zero, p.x.vSrc hx, p.y.zero]
  · refine decodesTo_raw3_minor (by decide) (by decide) (VSrc.opr_lt hx) (by decide) (by decide) fun w e p hmin ht hp => ?_
    simp [decodeWord_msk p.maj, decMsk, hp, hmin, ht, p.d.zero, p.x.vSrc hx, p.y.zero]

theorem roundtrips_msk0 : Instr.minv.Roundtrips ∧ Instr.mpop.Roundtrips ∧ Instr.mall.Roundtrips := by
  and_intros <;> refine .intro rfl fun _ => decodesTo_raw0_minor (by decide) (by decide) fun w e p hmin ht hp => ?_
  all_goals simp [decodeWord_msk p.maj, decMsk, hp, hmin, ht, p.d.zero, p.x.zero, p.y.zero]

theorem roundtrips_mget (d : VDst) : (Instr.mget d).Roundtrips := by
  refine .intro rfl fun hd => ?_
  refine decodesTo_raw3_minor (by decide) (VDst.opr_lt hd) (by decide) (by decide) (by decide) fun w e p hmin ht hp => ?_
  simp [decodeWord_msk p.maj, decMsk, hp, hmin, ht, p.d.vDst hd, p.x.zero, p.y.zero]

theorem roundtrips_vload (d : VDst) (x : SSrc) (v : Int) : (Instr.vld d x v).Roundtrips ∧ (Instr.vldn d x v).Roundtrips := by
  have hi := immF_lt 9 v
  have hk : ∀ m < 4, (immF 9 v * 2 ^ 5 + m * 8) / 2 ^ 3 % 2 ^ 2 = m := by omega
  and_intros <;> refine .intro rfl fun h => ?_ <;> obtain ⟨hd, hx, hv⟩ := and3_true h
  all_goals
    refine decodesTo_raw2 (by decide) (VDst.opr_lt hd) (SSrc.opr_lt hx) (by omega) fun w e p g => ?_
    have ht : fTy w = 0 := p.eq 0 3 (by omega)
    have hm := p.eq 3 2 (hk _ (by decide))
    have hf : extS 9 (fld w 5 9) e = v := extS_of_eq_immF (by decide) hv g (p.eq 5 9 (by omega))
    simp [decodeWord_vmem p.maj, decVmem, p.noY, zeroT, ht, p.d.vDst hd, p.x.sSrc hx, hm, hf]

theorem roundtrips_vstore (d : VSrc) (x : SSrc) (v : Int) : (Instr.vst d x v).Roundtrips ∧ (Instr.vstn d x v).Roundtrips := by
  have hi := immF_lt 9 v
  have hk : ∀ m < 4, (immF 9 v * 2 ^ 5 + m * 8) / 2 ^ 3 % 2 ^ 2 = m := by omega
  and_intros <;> refine .intro rfl fun h => ?_ <;> obtain ⟨hd, hx, hv⟩ := and3_true h
  all_goals
    refine decodesTo_raw2 (by decide) (VSrc.opr_lt hd) (SSrc.opr_lt hx) (by omega) fun w e p g => ?_
    have ht : fTy w = 0 := p.eq 0 3 (by omega)
    have hm := p.eq 3 2 (hk _ (by decide))
    have hf : extS 9 (fld w 5 9) e = v := extS_of_eq_immF (by decide) hv g (p.eq 5 9 (by omega))
    simp [decodeWord_vmem p.maj, decVmem, p.noY, zeroT, ht, p.d.vSrc hd, p.x.sSrc hx, hm, hf]

/-- R29: a word of VGS, with its minor, its resumable bit and its width. -/
theorem decodesTo_vgs {i : Instr} {m : Nat} {d x y : Opr} {res : Bool} {t : EW} (hd : d.f < 64) (hx : x.f < 64) (hy : y.f < 64) (hm : m < 32)
    (h : ∀ w e, Packs3 w e 0x27 d x y (m * 8 + bit res * 4 + t.code) → fMin w = m → fBit w 2 = res → fld w 0 2 = t.code → e.plain = .ok () →
      decodeWord w e = .ok i) : (raw3 0x27 d x y (m * 8 + bit res * 4 + t.code)).DecodesTo i := by
  have hb := bit_lt res
  have ht := t.code_lt
  exact decodesTo_raw3_ib (ib := none) (by decide) hd hx hy (by omega) fun w e p g =>
    h w e p (p.eq 3 5 (by omega)) (fBit_of_fld (p.eq 2 1 (by omega))) (p.eq 0 2 (by omega)) g.plain

theorem roundtrips_vgath (d : VDst) (x : SSrc) (y : VSrc) (res : Bool) (t : EW) : (Instr.vgath d x y res t).Roundtrips := by
  refine .intro rfl fun h => ?_
  obtain ⟨hd, hx, hy⟩ := and3_true h
  refine decodesTo_vgs (VDst.opr_lt hd) (SSrc.opr_lt hx) (VSrc.opr_lt hy) (by decide) fun w e p hmin h2 h0 hp => ?_
  simp [decodeWord_vgs p.maj, decVgs, hp, hmin, h2, h0, p.d.vDst hd, p.x.sSrc hx, p.y.vSrc hy]

theorem roundtrips_vscat (d : VSrc) (x : SSrc) (y : VSrc) (res : Bool) (t : EW) : (Instr.vscat d x y res t).Roundtrips := by
  refine .intro rfl fun h => ?_
  obtain ⟨hd, hx, hy⟩ := and3_true h
  refine decodesTo_vgs (VSrc.opr_lt hd) (SSrc.opr_lt hx) (VSrc.opr_lt hy) (by decide) fun w e p hmin h2 h0 hp => ?_
  simp [decodeWord_vgs p.maj, decVgs, hp, hmin, h2, h0, p.d.vSrc hd, p.x.sSrc hx, p.y.vSrc hy]

theorem roundtrips_vlds (d : VDst) (x y : SSrc) (t : EW) : (Instr.vlds d x y t).Roundtrips := by
  refine .intro rfl fun h => ?_
  obtain ⟨hd, hx, hy⟩ := and3_true h
  refine decodesTo_vgs (m := 2) (res := false) (VDst.opr_lt hd) (SSrc.opr_lt hx) (SSrc.opr_lt hy) (by decide) fun w e p hmin h2 h0 hp => ?_
  simp [decodeWord_vgs p.maj, decVgs, hp, hmin, h2, h0, p.d.vDst hd, p.x.sSrc hx, p.y.sSrc hy]


/-! ## Matrix and transposer (R30, R204) -/

theorem TileSel.code_lt {c : TileSel} (h : c.wf = true) : c.code < 16 := by
  cases c with
  | tile n => exact Nat.lt_trans (of_decide_eq_true h : n < 8) (by decide)
  | ring => decide

theorem tileOf_code {w : Nat} {c : TileSel} (hc : c.wf = true) (h : fld w 22 4 = c.code) : tileOf w = .ok c := by
  have h25 : fld w 25 1 = fld c.code 3 1 := h ▸ (fld_fld (w := w) (a := 3) (b := 22) (by decide)).symm
  have h22 : fld w 22 3 = fld c.code 0 3 := h ▸ (fld_fld (w := w) (a := 0) (b := 22) (by decide)).symm
  cases c with
  | tile n =>
    have hn : n < 8 := of_decide_eq_true hc
    have e25 : fld w 25 1 = 0 := h25.trans (by simp only [fld, TileSel.code]; omega)
    have e22 : fld w 22 3 = n := h22.trans (by simp only [fld, TileSel.code]; omega)
    simp [tileOf, fBit, e25, e22]
  | ring =>
    have e25 : fld w 25 1 = 1 := h25
    have e22 : fld w 22 3 = 0 := h22
    simp [tileOf, fBit, e25, e22]

theorem AOperand.num_bounds {a : AOperand} (h : a.wf = true) : 1 ≤ a.num ∧ a.num < 32 ∧ a.av < 2 := by
  cases a with
  | pair p => exact ⟨(of_decide_eq_true h).1, (of_decide_eq_true h).2, Nat.zero_lt_two⟩
  | vec p => exact ⟨(of_decide_eq_true h).1, (of_decide_eq_true h).2, Nat.one_lt_two⟩

theorem aOperandOf_num {w : Nat} {a : AOperand} (ha : a.wf = true) (hn : fld w 17 5 = a.num) (hv : fld w 5 1 = a.av) : aOperandOf w = .ok a := by
  have h0 : a.num ≠ 0 := by have := (AOperand.num_bounds ha).1; omega
  cases a with
  | pair p => simp [aOperandOf, fBit, hn, hv, h0, AOperand.av]; rfl
  | vec p => simp [aOperandOf, fBit, hn, hv, h0, AOperand.av]; rfl

theorem roundtrips_mmac (c : TileSel) (a : AOperand) (b : Nat) (k : SSrc) (res : Bool) :
    (Instr.mmac c a b k res).Roundtrips ∧ (Instr.mmul c a b k res).Roundtrips := by
  and_intros <;> refine .intro rfl fun h => ?_ <;> obtain ⟨hc, ha, hb, hk⟩ := and4_true h
  all_goals
    obtain ⟨hb, hb'⟩ : 1 ≤ b ∧ b < 32 := of_decide_eq_true hb
    obtain ⟨hkh, hk⟩ := SSrc.opr_low hk
    have hc' := TileSel.code_lt hc
    obtain ⟨ha1, ha2, ha3⟩ := AOperand.num_bounds ha
    have hk' := SSrc.opr_lt hk
    have hr := bit_lt res
    refine decodesTo_raw0 (by decide) (by omega) fun w e p g => ?_
    have ht : fTy w = 0 := p.eq 0 3 (by omega)
    have htile : tileOf w = .ok c := tileOf_code hc (p.eq 22 4 (by omega))
    have haop : aOperandOf w = .ok a := aOperandOf_num ha (p.eq 17 5 (by omega)) (p.eq 5 1 (by omega))
    have h12 : fld w 12 5 = b := p.eq 12 5 (by omega)
    have h6 : fld w 6 6 = k.opr.f := p.eq 6 6 (by omega)
    have hsrc : sSrc false k.opr.f = .ok k := hkh ▸ sSrc_opr hk
    have h4 : fBit w 4 = res := fBit_of_fld (p.eq 4 1 (by omega))
    have hne : (b != 0) = true := bne_iff_ne.2 (by omega)
    have hop : ∀ v < 2, (c.code * 2 ^ 22 + a.num * 2 ^ 17 + b * 2 ^ 12 + k.opr.f * 2 ^ 6 + a.av * 32 + bit res * 16 + v * 8) / 2 ^ 3 % 2 ^ 1 = v := by omega
    have h3 : fBit w 3 = _ := congrArg (· == 1) (p.eq 3 1 (hop _ (by decide)))
    simp [decodeWord_mmac p.maj, decMmac, g.plain, p.noD, p.noX, p.noY, zeroT, ht, htile, haop, h12, hne, h6, hsrc, h4, h3]

theorem roundtrips_mzero (c : TileSel) : (Instr.mzero c).Roundtrips := by
  refine .intro rfl fun hc => ?_
  have hc' := TileSel.code_lt hc
  refine decodesTo_raw0 (by decide) (by omega) fun w e p g => ?_
  have ht : fTy w = 0 := p.eq 0 3 (by omega)
  have hmin : fMin w = 0 := p.eq 3 5 (by omega)
  have hx : fX w = 0 := p.eq 14 6 (by omega)
  have hy : fY w = 0 := p.eq 8 6 (by omega)
  have h20 : fld w 20 2 = 0 := p.eq 20 2 (by omega)
  have htile : tileOf w = .ok c := tileOf_code hc (p.eq 22 4 (by omega))
  simp [decodeWord_mctl p.maj, decMctl, g.plain, zeroT, ht, hmin, p.noD, zeroX, hx, p.noX, zeroY, hy, p.noY, h20, htile]

theorem roundtrips_mloadc (c : TileSel) (f : LFmt) (x : SSrc) : (Instr.mloadc c f x).Roundtrips := by
  refine .intro rfl fun h => ?_
  obtain ⟨hc, hx⟩ := Bool.and_eq_true_iff.1 h
  have hc' := TileSel.code_lt hc
  have hf := f.code_lt
  refine decodesTo_raw2 (by decide) (show _ < 64 by simp only [numOpr]; omega) (SSrc.opr_lt hx) (by decide) fun w e p g => ?_
  have ht : fTy w = 0 := p.eq 0 3 (by decide)
  have hmin : fMin w = 1 := p.eq 3 5 (by decide)
  have hy : fY w = 0 := p.eq 8 6 (by decide)
  have h20 : fld w 20 2 = f.code := p.d.eq 0 2 (by omega)
  have htile : tileOf w = .ok c := tileOf_code hc (p.d.eq 2 4 (by omega))
  simp [decodeWord_mctl p.maj, decMctl, g.plain, zeroT, ht, hmin, p.d.noD rfl, zeroY, hy, p.noY, h20, htile, p.x.sSrc hx]

theorem roundtrips_mdrain (c : TileSel) (x : SSrc) : (Instr.mdrain c x).Roundtrips := by
  refine .intro rfl fun h => ?_
  obtain ⟨hc, hx⟩ := Bool.and_eq_true_iff.1 h
  have hc' := TileSel.code_lt hc
  refine decodesTo_raw2 (by decide) (show _ < 64 by simp only [numOpr]; omega) (SSrc.opr_lt hx) (by decide) fun w e p g => ?_
  have ht : fTy w = 0 := p.eq 0 3 (by decide)
  have hmin : fMin w = 2 := p.eq 3 5 (by decide)
  have hy : fY w = 0 := p.eq 8 6 (by decide)
  have h20 : fld w 20 2 = 0 := p.d.eq 0 2 (by omega)
  have htile : tileOf w = .ok c := tileOf_code hc (p.d.eq 2 4 (by omega))
  simp [decodeWord_mctl p.maj, decMctl, g.plain, zeroT, ht, hmin, p.d.noD rfl, zeroY, hy, p.noY, h20, htile, p.x.sSrc hx]

theorem roundtrips_mwait : Instr.mwait.Roundtrips := by
  refine .intro rfl fun _ => decodesTo_raw0_minor (by decide) (by decide) fun w e p hmin ht hp => ?_
  simp [decodeWord_mctl p.maj, decMctl, hp, hmin, ht, p.d.zero, p.x.zero, p.y.zero]

theorem roundtrips_mstat (d : SDst) (clr : Bool) (c : Nat) : (Instr.mstat d clr c).Roundtrips := by
  refine .intro rfl fun h => ?_
  obtain ⟨hd, hc⟩ := Bool.and_eq_true_iff.1 h
  have hc : c < 8 := of_decide_eq_true hc
  have hb := bit_lt clr
  refine decodesTo_raw3_minor (by decide) (SDst.opr_lt hd) (show bit clr < 64 by omega) (show c < 64 by omega) (by decide) fun w e p hmin ht hp => ?_
  have hx : fX w = bit clr := p.x.1
  have hy : fY w = c := p.y.1
  have h14 : fBit w 14 = clr := fBit_of_fld (p.x.eq 0 1 (by omega))
  simp [decodeWord_mctl p.maj, decMctl, hp, hmin, ht, p.x.noX rfl, p.y.noY rfl, p.d.sDst hd, hx, hy, h14, hc, Nat.le_of_lt_succ hb]

theorem roundtrips_manch (k : SSrc) (a b : Nat) : (Instr.manch k a b).Roundtrips := by
  refine .intro rfl fun h => ?_
  obtain ⟨hk, ha, hb⟩ := and3_true h
  obtain ⟨hkh, hk⟩ := SSrc.opr_low hk
  refine decodesTo_raw3_minor (by decide) (show k.opr.f < 64 from SSrc.opr_lt hk) (numOpr_pair_lt ha) (numOpr_pair_lt hb) (by decide) fun w e p hmin ht hp => ?_
  have hsrc : sSrc false (fD w) = .ok k := by rw [← hkh, p.d.1]; exact sSrc_opr hk
  simp [decodeWord_mctl p.maj, decMctl, hp, hmin, ht, p.d.noD rfl, p.x.noX rfl, p.y.noY rfl, hsrc, p.x.pairSel ha, p.y.pairSel hb]

/-- R204: a word of TXPI or TXPO, with its minor, its block and its group. -/
theorem decodesTo_txp {i : Instr} {n m : Nat} {v : Opr} {b : Bool} (hv : v.f < 64) (hn : decide (n < 8) = true) (hm : m < 32)
    (h : ∀ w e, Packs1 w e 0x2A v (bit b * 2 ^ 19 + n * 2 ^ 16 + m * 8) → fMin w = m → zeroT w = .ok () → fld w 8 8 = 0 → fld w 16 3 = n →
      fBit w 19 = b → e.plain = .ok () → decodeWord w e = .ok i) : (raw1 0x2A v (bit b * 2 ^ 19 + n * 2 ^ 16 + m * 8)).DecodesTo i := by
  have hn : n < 8 := of_decide_eq_true hn
  have hb := bit_lt b
  refine decodesTo_raw1 (ib := none) (by decide) hv (by omega) fun w e p g => ?_
  have ht : fTy w = 0 := p.eq 0 3 (by omega)
  exact h w e p (p.eq 3 5 (by omega)) (by rw [zeroT, ht]; rfl) (p.eq 8 8 (by omega)) (p.eq 16 3 (by omega)) (fBit_of_fld (p.eq 19 1 (by omega))) g.plain

theorem roundtrips_txpi (v : VSrc) (b : Bool) (n : Nat) : (Instr.txpi v b n).Roundtrips := by
  refine .intro rfl fun h => ?_
  obtain ⟨hv, hn⟩ := Bool.and_eq_true_iff.1 h
  refine decodesTo_txp (m := 0) (VSrc.opr_lt hv) hn (by decide) fun w e p hmin ht h8 h16 h19 hp => ?_
  simp [decodeWord_txp p.maj, decTxp, hp, p.noX, p.noY, ht, hmin, h8, h16, h19, p.d.vSrc hv]

theorem roundtrips_txpo (v : VDst) (b : Bool) (n : Nat) : (Instr.txpo v b n).Roundtrips := by
  refine .intro rfl fun h => ?_
  obtain ⟨hv, hn⟩ := Bool.and_eq_true_iff.1 h
  refine decodesTo_txp (m := 1) (VDst.opr_lt hv) hn (by decide) fun w e p hmin ht h8 h16 h19 hp => ?_
  simp [decodeWord_txp p.maj, decTxp, hp, p.noX, p.noY, ht, hmin, h8, h16, h19, p.d.vDst hv]

theorem roundtrips_txpc (b : Bool) : (Instr.txpc b).Roundtrips := by
  have hb := bit_lt b
  refine .intro rfl fun _ => decodesTo_raw0 (by decide) (by omega) fun w e p g => ?_
  have ht : fTy w = 0 := p.eq 0 3 (by omega)
  have hmin : fMin w = 2 := p.eq 3 5 (by omega)
  have h8 : fld w 8 8 = 0 := p.eq 8 8 (by omega)
  have hd : fD w = 0 := p.eq 20 6 (by omega)
  have h16 : fld w 16 3 = 0 := p.eq 16 3 (by omega)
  have h19 : fBit w 19 = b := fBit_of_fld (p.eq 19 1 (by omega))
  simp [decodeWord_txp p.maj, decTxp, g.plain, p.noX, p.noY, zeroT, ht, hmin, h8, zeroD, hd, p.noD, h16, h19]

theorem roundtrips_setf (x : SSrc) : (Instr.setf x).Roundtrips := by
  refine .intro rfl fun hx => ?_
  refine decodesTo_raw3_minor (m := 0) (by decide) (by decide) (SSrc.opr_lt hx) (by decide) (by decide) fun w e p hmin ht hp => ?_
  simp [decodeWord_fmtq p.maj, decFmtq, hp, hmin, ht, p.d.zero, p.x.sSrc hx, p.y.zero]

theorem roundtrips_getf (d : SDst) : (Instr.getf d).Roundtrips := by
  refine .intro rfl fun hd => ?_
  refine decodesTo_raw3_minor (m := 1) (by decide) (SDst.opr_lt hd) (by decide) (by decide) (by decide) fun w e p hmin ht hp => ?_
  simp [decodeWord_fmtq p.maj, decFmtq, hp, hmin, ht, p.d.sDst hd, p.x.zero, p.y.zero]

/-! ## Exchange and fabric (R31) -/

/-- A word of EXCH, EXSB or EXCC: its dimension, its minor and the byte of its signal value. -/
theorem decodesTo_rawExg {i : Instr} {maj dim m s : Nat} {x y : SSrc} (hm : maj < 64) (hdim : wfDim dim = true) (hx : x.wf = true)
    (hy : y.wf = true) (hmin : m < 32)
    (h : ∀ w e, Packs3 w e maj (numOpr (dim * 4)) x.opr y.opr (m * 8) → fMin w = m → zeroT w = .ok () → fld w 22 4 = dim → dim < 14 →
      fld w 20 2 = 0 → e.byte = s → decodeWord w e = .ok i) : (rawExg maj dim x y m s).DecodesTo i := by
  have hdim : dim < 14 := of_decide_eq_true hdim
  refine decodesTo_raw3_ib hm (show dim * 4 < 64 by omega) (SSrc.opr_lt hx) (SSrc.opr_lt hy) (by omega) fun w e p g => ?_
  have ht : fTy w = 0 := p.eq 0 3 (by omega)
  exact h w e p (p.eq 3 5 (by omega)) (by rw [zeroT, ht]; rfl) (p.d.eq 2 4 (by omega)) hdim (p.d.eq 0 2 (by omega)) g.signal

theorem roundtrips_exg (dim : Nat) (x y : SSrc) (s : Nat) : (Instr.exch dim x y s).Roundtrips ∧ (Instr.exsb dim x y s).Roundtrips := by
  and_intros <;> refine .intro rfl fun h => ?_ <;> obtain ⟨hdim, hx, hy, -⟩ := and4_true h
  all_goals
    refine decodesTo_rawExg (by decide) hdim hx hy (by decide) fun w e p hmin ht h22 hlt h20 hs => ?_
    simp [decodeWord_exg p.maj, decExg, hmin, ht, p.d.noD rfl, p.x.sSrc hx, p.y.sSrc hy, h22, hlt, h20, hs]

theorem roundtrips_excc (dim : Nat) (x y : SSrc) (s : Nat) :
    (Instr.exccFsum dim x y s).Roundtrips ∧ (Instr.exccIsum dim x y s).Roundtrips ∧ (Instr.exccLsum dim x y s).Roundtrips
    ∧ (Instr.exccFmax dim x y s).Roundtrips ∧ (Instr.exccFmin dim x y s).Roundtrips ∧ (Instr.exccImax dim x y s).Roundtrips
    ∧ (Instr.exccImin dim x y s).Roundtrips ∧ (Instr.exccBand dim x y s).Roundtrips ∧ (Instr.exccBor dim x y s).Roundtrips := by
  and_intros <;> refine .intro rfl fun h => ?_ <;> obtain ⟨hdim, hx, hy, -⟩ := and4_true h
  all_goals
    refine decodesTo_rawExg (by decide) hdim hx hy (by decide) fun w e p hmin ht h22 hlt h20 hs => ?_
    simp [decodeWord_excc p.maj, decExcc, hmin, ht, p.d.noD rfl, p.x.sSrc hx, p.y.sSrc hy, h22, hlt, h20, hs]

theorem roundtrips_trav (g x y : SSrc) (d : Dir) (s : Nat) : (Instr.trav g x y d s).Roundtrips := by
  refine .intro rfl fun h => ?_
  obtain ⟨hg, hx, hy, -⟩ := and4_true h
  have hd := d.code_lt
  refine decodesTo_raw3_ib (by decide) (SSrc.opr_lt hg) (SSrc.opr_lt hx) (SSrc.opr_lt hy) (by omega) fun w e p gv => ?_
  have hmin : fMin w = 2 := p.eq 3 5 (by omega)
  have h1 : fld w 1 2 = 0 := p.eq 1 2 (by omega)
  have h0 : fld w 0 1 = d.code := p.eq 0 1 (by omega)
  simp [decodeWord_exg p.maj, decExg, hmin, p.d.sSrc hg, p.x.sSrc hx, p.y.sSrc hy, h1, h0, gv.signal]

/-- R31: a word of EXMD, with its kind, its operation and its resumable bit. -/
theorem decodesTo_exmd {i : Instr} {kind op s : Nat} {g x y : SSrc} {res : Bool} (hg : g.wf = true) (hx : x.wf = true) (hy : y.wf = true)
    (hk : kind < 4) (hop : op < 16)
    (h : ∀ w e, Packs3 w e 0x2E g.opr x.opr y.opr (kind * 64 + op * 4 + bit res * 2) → fld w 6 2 = kind → fld w 2 4 = op → fBit w 1 = res →
      fld w 0 1 = 0 → e.byte = s → decodeWord w e = .ok i) :
    (withSig (raw3 0x2E g.opr x.opr y.opr (kind * 64 + op * 4 + bit res * 2)) s).DecodesTo i := by
  have hr := bit_lt res
  exact decodesTo_raw3_ib (by decide) (SSrc.opr_lt hg) (SSrc.opr_lt hx) (SSrc.opr_lt hy) (by omega) fun w e p gv =>
    h w e p (p.eq 6 2 (by omega)) (p.eq 2 4 (by omega)) (fBit_of_fld (p.eq 1 1 (by omega))) (p.eq 0 1 (by omega)) gv.signal

theorem roundtrips_exmd (g x y : SSrc) (k : XKind) (res : Bool) (s : Nat) : (Instr.exmd g x y k res s).Roundtrips := by
  refine .intro rfl fun h => ?_
  obtain ⟨h, hk, -⟩ := and3_true h
  obtain ⟨hg, hx, hy⟩ := and3_true h
  cases k with
  | exch =>
    refine decodesTo_exmd (kind := 0) (op := 0) hg hx hy (by decide) (by decide) fun w e p h6 h2 h1 h0 hs => ?_
    simp [decodeWord_exmd p.maj, decExmd, p.d.sSrc hg, p.x.sSrc hx, p.y.sSrc hy, h6, h2, h1, h0, hs]
  | exsb =>
    refine decodesTo_exmd (kind := 1) (op := 0) hg hx hy (by decide) (by decide) fun w e p h6 h2 h1 h0 hs => ?_
    simp [decodeWord_exmd p.maj, decExmd, p.d.sSrc hg, p.x.sSrc hx, p.y.sSrc hy, h6, h2, h1, h0, hs]
  | excc op =>
    have hop : op < 9 := of_decide_eq_true hk
    refine decodesTo_exmd (kind := 2) (op := op) hg hx hy (by decide) (by omega) fun w e p h6 h2 h1 h0 hs => ?_
    simp [decodeWord_exmd p.maj, decExmd, p.d.sSrc hg, p.x.sSrc hx, p.y.sSrc hy, h6, h2, h1, h0, hs, hop]

theorem roundtrips_mcast (g x y : SSrc) (q : Nat) : (Instr.mcast g x y q).Roundtrips ∧ (Instr.mcasto g x y q).Roundtrips := by
  and_intros <;> refine .intro rfl fun h => ?_ <;> obtain ⟨hg, hx, hy, hq⟩ := and4_true h
  all_goals
    refine decodesTo_raw3 (by decide) (SSrc.opr_lt hg) (SSrc.opr_lt hx) (SSrc.opr_lt hy) (by decide) (of_decide_eq_true hq) fun w e p hmin hty hp => ?_
    simp [decodeWord_fab p.maj, decFab, hp, hmin, hty, p.d.sSrc hg, p.x.sSrc hx, p.y.sSrc hy]

theorem roundtrips_probe (x y : SSrc) : (Instr.probe x y).Roundtrips := by
  refine .intro rfl fun h => ?_
  obtain ⟨hx, hy⟩ := Bool.and_eq_true_iff.1 h
  refine decodesTo_raw3_minor (by decide) (by decide) (SSrc.opr_lt hx) (SSrc.opr_lt hy) (by decide) fun w e p hmin ht hp => ?_
  simp [decodeWord_fab p.maj, decFab, hp, hmin, ht, p.d.zero, p.x.sSrc hx, p.y.sSrc hy]

theorem roundtrips_lstat (d : SDst) (x : SSrc) : (Instr.lstat d x).Roundtrips := by
  refine .intro rfl fun h => ?_
  obtain ⟨hd, hx⟩ := Bool.and_eq_true_iff.1 h
  refine decodesTo_raw3_minor (by decide) (SDst.opr_lt hd) (SSrc.opr_lt hx) (by decide) (by decide) fun w e p hmin ht hp => ?_
  simp [decodeWord_fab p.maj, decFab, hp, hmin, ht, p.d.sDst hd, p.x.sSrc hx, p.y.zero]

/-! ## Copies, synchronisation, grammar, sampling (R32) -/

/-- R32: a word of CPY, with its minor and its resumable bit. -/
theorem decodesTo_cpy {i : Instr} {m : Nat} {x y : Opr} {res : Bool} (hx : x.f < 64) (hy : y.f < 64) (hm : m < 32)
    (h : ∀ w e, Packs3 w e 0x30 .zero x y (m * 8 + bit res * 4) → fMin w = m → fBit w 2 = res → fld w 0 2 = 0 → e.plain = .ok () →
      decodeWord w e = .ok i) : (raw3 0x30 .zero x y (m * 8 + bit res * 4)).DecodesTo i := by
  have hb := bit_lt res
  exact decodesTo_raw3_ib (ib := none) (by decide) (by decide) hx hy (by omega) fun w e p g =>
    h w e p (p.eq 3 5 (by omega)) (fBit_of_fld (p.eq 2 1 (by omega))) (p.eq 0 2 (by omega)) g.plain

theorem roundtrips_cpy (x : SSrc) (res : Bool) : (Instr.cpyl x res).Roundtrips ∧ (Instr.cpy2 x res).Roundtrips ∧ (Instr.cpyw x res).Roundtrips := by
  and_intros <;> refine .intro rfl fun hx => decodesTo_cpy (SSrc.opr_lt hx) (by decide) (by decide) fun w e p hmin h2 h0 hp => ?_
  all_goals simp [decodeWord_cpy p.maj, decCpy, hp, hmin, h2, h0, p.d.zero, p.x.sSrc hx, p.y.zero]

theorem roundtrips_cpyx (x y : SSrc) (res : Bool) : (Instr.cpyx x y res).Roundtrips := by
  refine .intro rfl fun h => ?_
  obtain ⟨hx, hy⟩ := Bool.and_eq_true_iff.1 h
  refine decodesTo_cpy (SSrc.opr_lt hx) (SSrc.opr_lt hy) (by decide) fun w e p hmin h2 h0 hp => ?_
  simp [decodeWord_cpy p.maj, decCpy, hp, hmin, h2, h0, p.d.zero, p.x.sSrc hx, p.y.sSrc hy]

theorem roundtrips_waita (c : WCond) (x y : SSrc) : (Instr.waita c x y).Roundtrips := by
  refine .intro rfl fun h => ?_
  obtain ⟨hx, hy⟩ := Bool.and_eq_true_iff.1 h
  have hc := c.code_lt
  refine decodesTo_raw3 (by decide) (by decide) (SSrc.opr_lt hx) (SSrc.opr_lt hy) (by decide) (by omega) fun w e p hmin _ hp => ?_
  have h2 : fld w 2 1 = 0 := p.eq 2 1 (by omega)
  have h0 : fld w 0 2 = c.code := p.eq 0 2 (by omega)
  simp [decodeWord_sync p.maj, decSync, hp, hmin, p.d.zero, p.x.sSrc hx, p.y.sSrc hy, h2, h0]

theorem roundtrips_sigw (g x y : SSrc) (q : Nat) : (Instr.sigw g x y q).Roundtrips := by
  refine .intro rfl fun h => ?_
  obtain ⟨hg, hx, hy, hq⟩ := and4_true h
  refine decodesTo_raw3 (by decide) (SSrc.opr_lt hg) (SSrc.opr_lt hx) (SSrc.opr_lt hy) (by decide) (of_decide_eq_true hq) fun w e p hmin hty hp => ?_
  simp [decodeWord_sync p.maj, decSync, hp, hmin, hty, p.d.sSrc hg, p.x.sSrc hx, p.y.sSrc hy]

theorem roundtrips_sync1 (x : SSrc) : (Instr.bacq x).Roundtrips ∧ (Instr.brel x).Roundtrips ∧ (Instr.waite x).Roundtrips := by
  and_intros <;> refine .intro rfl fun hx => ?_
  all_goals
    refine decodesTo_raw3_minor (by decide) (by decide) (SSrc.opr_lt hx) (by decide) (by decide) fun w e p hmin ht hp => ?_
    simp [decodeWord_sync p.maj, decSync, hp, hmin, ht, p.d.zero, p.x.sSrc hx, p.y.zero]

theorem roundtrips_gbind (x y : SSrc) : (Instr.gbind x y).Roundtrips := by
  refine .intro rfl fun h => ?_
  obtain ⟨hx, hy⟩ := Bool.and_eq_true_iff.1 h
  refine decodesTo_raw3_minor (m := 0) (by decide) (by decide) (SSrc.opr_lt hx) (SSrc.opr_lt hy) (by decide) fun w e p hmin ht hp => ?_
  simp [decodeWord_grm p.maj, decGrm, hp, hmin, ht, p.d.zero, p.x.sSrc hx, p.y.sSrc hy]

theorem roundtrips_gmask (q : Nat) (x : SSrc) : (Instr.gmask q x).Roundtrips := by
  refine .intro rfl fun h => ?_
  obtain ⟨hq, hx⟩ := Bool.and_eq_true_iff.1 h
  refine decodesTo_raw3_minor (m := 1) (by decide) (numOpr_pred_lt hq) (SSrc.opr_lt hx) (by decide) (by decide) fun w e p hmin ht hp => ?_
  simp [decodeWord_grm p.maj, decGrm, hp, hmin, ht, p.d.noD rfl, p.d.pSel hq, p.x.sSrc hx, p.y.zero]

theorem roundtrips_gstep (d : SDst) (x : SSrc) : (Instr.gstep d x).Roundtrips := by
  refine .intro rfl fun h => ?_
  obtain ⟨hd, hx⟩ := Bool.and_eq_true_iff.1 h
  refine decodesTo_raw3_minor (m := 2) (by decide) (SDst.opr_lt hd) (SSrc.opr_lt hx) (by decide) (by decide) fun w e p hmin ht hp => ?_
  simp [decodeWord_grm p.maj, decGrm, hp, hmin, ht, p.d.sDst hd, p.x.sSrc hx, p.y.zero]

theorem roundtrips_gstat (d : SDst) : (Instr.gstat d).Roundtrips := by
  refine .intro rfl fun hd => ?_
  refine decodesTo_raw3_minor (m := 3) (by decide) (SDst.opr_lt hd) (by decide) (by decide) (by decide) fun w e p hmin ht hp => ?_
  simp [decodeWord_grm p.maj, decGrm, hp, hmin, ht, p.d.sDst hd, p.x.zero, p.y.zero]

theorem roundtrips_sample (d : SDst) (n q : Nat) : (Instr.sample d n q).Roundtrips := by
  refine .intro rfl fun h => ?_
  obtain ⟨hd, hn, hq⟩ := and3_true h
  refine decodesTo_raw3_minor (m := 0) (by decide) (SDst.opr_lt hd) (numOpr_pair_lt hn) (numOpr_pred_lt hq) (by decide) fun w e p hmin ht hp => ?_
  simp [decodeWord_smp p.maj, decSmp, hp, hmin, ht, p.x.noX rfl, p.y.noY rfl, p.d.sDst hd, p.x.pairSel hn, p.y.pSel hq]

theorem roundtrips_rand (d : VDst) (x : SSrc) : (Instr.rand d x).Roundtrips := by
  refine .intro rfl fun h => ?_
  obtain ⟨hd, hx⟩ := Bool.and_eq_true_iff.1 h
  refine decodesTo_raw3_minor (m := 1) (by decide) (VDst.opr_lt hd) (SSrc.opr_lt hx) (by decide) (by decide) fun w e p hmin ht hp => ?_
  simp [decodeWord_smp p.maj, decSmp, hp, hmin, ht, p.d.vDst hd, p.x.sSrc hx, p.y.zero]

theorem roundtrips_rands (d : SDst) (x : SSrc) : (Instr.rands d x).Roundtrips := by
  refine .intro rfl fun h => ?_
  obtain ⟨hd, hx⟩ := Bool.and_eq_true_iff.1 h
  refine decodesTo_raw3_minor (m := 2) (by decide) (SDst.opr_lt hd) (SSrc.opr_lt hx) (by decide) (by decide) fun w e p hmin ht hp => ?_
  simp [decodeWord_smp p.maj, decSmp, hp, hmin, ht, p.d.sDst hd, p.x.sSrc hx, p.y.zero]

/-! ## Regions, groups, launch, supervisor (R32) -/

theorem roundtrips_rgn (x y : SSrc) : (Instr.rgn x y).Roundtrips := by
  refine .intro rfl fun h => ?_
  obtain ⟨hx, hy⟩ := Bool.and_eq_true_iff.1 h
  refine decodesTo_raw3_minor (m := 0) (by decide) (by decide) (SSrc.opr_lt hx) (SSrc.opr_lt hy) (by decide) fun w e p hmin ht hp => ?_
  simp [decodeWord_rgn p.maj, decRgn, hp, hmin, ht, p.d.zero, p.x.sSrc hx, p.y.sSrc hy]

theorem roundtrips_rgn0 : Instr.cmt.Roundtrips ∧ Instr.rend.Roundtrips ∧ Instr.rabt.Roundtrips := by
  and_intros <;> refine .intro rfl fun _ => decodesTo_raw0_minor (by decide) (by decide) fun w e p hmin ht hp => ?_
  all_goals simp [decodeWord_rgn p.maj, decRgn, hp, hmin, ht, p.d.zero, p.x.zero, p.y.zero]

theorem roundtrips_rstat (d : SDst) : (Instr.rstat d).Roundtrips := by
  refine .intro rfl fun hd => ?_
  refine decodesTo_raw3_minor (m := 4) (by decide) (SDst.opr_lt hd) (by decide) (by decide) (by decide) fun w e p hmin ht hp => ?_
  simp [decodeWord_rgn p.maj, decRgn, hp, hmin, ht, p.d.sDst hd, p.x.zero, p.y.zero]

theorem roundtrips_grp (x : SSrc) : (Instr.bar x).Roundtrips ∧ (Instr.gsig x).Roundtrips ∧ (Instr.gwait x).Roundtrips := by
  and_intros <;> refine .intro rfl fun hx => ?_
  all_goals
    refine decodesTo_raw3_minor (by decide) (by decide) (SSrc.opr_lt hx) (by decide) (by decide) fun w e p hmin ht hp => ?_
    simp [decodeWord_grp p.maj, decGrp, hp, hmin, ht, p.d.zero, p.x.sSrc hx, p.y.zero]

theorem roundtrips_launch (d : SDst) (x : SSrc) : (Instr.launch d x).Roundtrips := by
  refine .intro rfl fun h => ?_
  obtain ⟨hd, hx⟩ := Bool.and_eq_true_iff.1 h
  refine decodesTo_raw3_minor (m := 0) (by decide) (SDst.opr_lt hd) (SSrc.opr_lt hx) (by decide) (by decide) fun w e p hmin ht hp => ?_
  simp [decodeWord_lch p.maj, decLch, hp, hmin, ht, p.d.sDst hd, p.x.sSrc hx, p.y.zero]

theorem roundtrips_exit (x : SSrc) : (Instr.exit x).Roundtrips := by
  refine .intro rfl fun hx => ?_
  refine decodesTo_raw3_minor (m := 1) (by decide) (by decide) (SSrc.opr_lt hx) (by decide) (by decide) fun w e p hmin ht hp => ?_
  simp [decodeWord_lch p.maj, decLch, hp, hmin, ht, p.d.zero, p.x.sSrc hx, p.y.zero]

theorem roundtrips_yield : Instr.yield.Roundtrips := by
  refine .intro rfl fun _ => decodesTo_raw0_minor (m := 2) (by decide) (by decide) fun w e p hmin ht hp => ?_
  simp [decodeWord_lch p.maj, decLch, hp, hmin, ht, p.d.zero, p.x.zero, p.y.zero]

theorem roundtrips_rft : Instr.rft.Roundtrips := by
  refine .intro rfl fun _ => decodesTo_raw0_minor (m := 0) (by decide) (by decide) fun w e p hmin ht hp => ?_
  simp [decodeWord_sup p.maj, decSup, hp, hmin, ht, p.d.zero, p.x.zero, p.y.zero]

theorem roundtrips_shoot (g x y : SSrc) : (Instr.shoot g x y).Roundtrips := by
  refine .intro rfl fun h => ?_
  obtain ⟨hg, hx, hy⟩ := and3_true h
  refine decodesTo_raw3_minor (m := 1) (by decide) (SSrc.opr_lt hg) (SSrc.opr_lt hx) (SSrc.opr_lt hy) (by decide) fun w e p hmin ht hp => ?_
  simp [decodeWord_sup p.maj, decSup, hp, hmin, ht, p.d.sSrc hg, p.x.sSrc hx, p.y.sSrc hy]

theorem roundtrips_selft (d : SDst) (x : SSrc) : (Instr.selft d x).Roundtrips := by
  refine .intro rfl fun h => ?_
  obtain ⟨hd, hx⟩ := Bool.and_eq_true_iff.1 h
  refine decodesTo_raw3_minor (m := 2) (by decide) (SDst.opr_lt hd) (SSrc.opr_lt hx) (by decide) (by decide) fun w e p hmin ht hp => ?_
  simp [decodeWord_sup p.maj, decSup, hp, hmin, ht, p.d.sDst hd, p.x.sSrc hx, p.y.zero]

theorem roundtrips_tlbp (d : SDst) (x y : SSrc) : (Instr.tlbp d x y).Roundtrips := by
  refine .intro rfl fun h => ?_
  obtain ⟨hd, hx, hy⟩ := and3_true h
  refine decodesTo_raw3_minor (m := 3) (by decide) (SDst.opr_lt hd) (SSrc.opr_lt hx) (SSrc.opr_lt hy) (by decide) fun w e p hmin ht hp => ?_
  simp [decodeWord_sup p.maj, decSup, hp, hmin, ht, p.d.sDst hd, p.x.sSrc hx, p.y.sSrc hy]

theorem roundtrips_sup2 (x y : SSrc) : (Instr.tlbi x y).Roundtrips ∧ (Instr.ctxs x y).Roundtrips := by
  refine ⟨.intro rfl fun h => ?_, .intro rfl fun h => ?_⟩ <;> obtain ⟨hx, hy⟩ := Bool.and_eq_true_iff.1 h
  · refine decodesTo_raw3_minor (m := 4) (by decide) (by decide) (SSrc.opr_lt hx) (SSrc.opr_lt hy) (by decide) fun w e p hmin ht hp => ?_
    simp [decodeWord_sup p.maj, decSup, hp, hmin, ht, p.d.zero, p.x.sSrc hx, p.y.sSrc hy]
  · refine decodesTo_raw3_minor (m := 6) (by decide) (by decide) (SSrc.opr_lt hx) (SSrc.opr_lt hy) (by decide) fun w e p hmin ht hp => ?_
    simp [decodeWord_sup p.maj, decSup, hp, hmin, ht, p.d.zero, p.x.sSrc hx, p.y.sSrc hy]

theorem roundtrips_qrst (x : SSrc) : (Instr.qrst x).Roundtrips := by
  refine .intro rfl fun hx => ?_
  refine decodesTo_raw3_minor (m := 5) (by decide) (by decide) (SSrc.opr_lt hx) (by decide) (by decide) fun w e p hmin ht hp => ?_
  simp [decodeWord_sup p.maj, decSup, hp, hmin, ht, p.d.zero, p.x.sSrc hx, p.y.zero]


/-! ## Every instruction, every slot -/

theorem roundtrips_of_none {i : Instr} (h : encodeInstr i = none) : i.Roundtrips := fun _ _ hr => nomatch h.symm.trans hr

theorem roundtrips {i : Instr} (hi : i ≠ .nop) : i.Roundtrips := by
  cases i
  case nop => exact absurd rfl hi
  case resultLanding | resultArrival | branchRedirectDue | outsideRegionLimit | regionCommit | chunkCommit | bufferEntryDrain | mmacExecute |
     manchExecute | mzeroExecute | mloadcExecute | mdrainExecute | scatterComplete | copyAdmission | copyComplete | engineError |
     vaultAcquisitionGrant | vaultReleaseComplete | scrubComplete | exchangePostArrival | exchangeDataArrival | exchangeAckArrival |
     linkPacketArrival | linkDown | linkRepair | route | flowPacketArrival | sequenceAckSend | sequenceAckArrival | retransmitTimeout | flowRetire |
     remoteResponseArrival | suspectTimeout | pilotTokenArrival | ejectionReportArrival | tokenLossTimeout | waitProbeArrival | probeTimeout |
     shootDownArrival | shootDownAcknowledge | shootDownAckArrival | gmaskExecute | sampleExecute | slotWrite | queueStart | graceExpiry |
     presenceNoticeArrival | serviceHoldTimeout | watchdogExpiry | barrierArrival | barrierStepArrival | fenceNoticeArrival | releaseNoticeArrival |
     quarantineNoticeArrival | uncorrectableError | correctableError | selftComplete | hostInterrupt | hostMemoryWrite | hostMemoryRead | nodeReset |
     traceOn | dataMode | breakpointHaltsEnabled | releaseHalt | trrdWrite | elrdWrite | fencerel | migrq | featack | hintClear | hintenWrite |
     msixUnmask | pstateWrite | powerStateChange | flashBlockWrite | flashWriteDone | flashSlotSelect | attestationRequest | attestationComplete |
     hostRegisterWrite | powerOn | throttle | thermalTrip | illegalEncoding | translationWalkComplete | telemetryRefresh | powerLoss => exact roundtrips_of_none rfl
  all_goals
    simp only [roundtrips_alu, roundtrips_alu1, roundtrips_addi, roundtrips_logi, roundtrips_shifti, roundtrips_movi, roundtrips_movk, roundtrips_bext, roundtrips_bins,
      roundtrips_lea, roundtrips_cmp, roundtrips_cmp_nan, roundtrips_cmpi, roundtrips_plog, roundtrips_plog1, roundtrips_plog0, roundtrips_sel,
      roundtrips_sfp, roundtrips_sfma, roundtrips_sfcvt, roundtrips_sfp1, roundtrips_getk, roundtrips_setk, roundtrips_loopq, roundtrips_bra,
      roundtrips_call, roundtrips_jmpr, roundtrips_calli, roundtrips_loop, roundtrips_loopi, roundtrips_leave, roundtrips_brm, roundtrips_sys, roundtrips_ld,
      roundtrips_st, roundtrips_amo, roundtrips_amo_float, roundtrips_amoCas, roundtrips_red, roundtrips_red_float, roundtrips_redCas,
      roundtrips_ldx, roundtrips_stx, roundtrips_amx, roundtrips_redx, roundtrips_fence, roundtrips_cacheOp, roundtrips_vfa, roundtrips_vfma,
      roundtrips_vfa1, roundtrips_vfx, roundtrips_vdiv, roundtrips_via, roundtrips_viabs, roundtrips_vcmp, roundtrips_vcmpun, roundtrips_vsel,
      roundtrips_vcvt, roundtrips_vred, roundtrips_visum, roundtrips_vpopm, roundtrips_vbcst, roundtrips_vext, roundtrips_vins, roundtrips_vrot,
      roundtrips_vperm, roundtrips_viota, roundtrips_msk, roundtrips_msk0, roundtrips_mget, roundtrips_vload, roundtrips_vstore, roundtrips_vgath,
      roundtrips_vscat, roundtrips_vlds, roundtrips_mmac, roundtrips_mzero, roundtrips_mloadc, roundtrips_mdrain, roundtrips_mwait, roundtrips_mstat,
      roundtrips_manch, roundtrips_txpi, roundtrips_txpo, roundtrips_txpc, roundtrips_setf, roundtrips_getf, roundtrips_exg, roundtrips_excc, roundtrips_trav,
      roundtrips_exmd, roundtrips_mcast, roundtrips_probe, roundtrips_lstat, roundtrips_cpy, roundtrips_cpyx, roundtrips_waita, roundtrips_sigw,
      roundtrips_sync1, roundtrips_gbind, roundtrips_gmask, roundtrips_gstep, roundtrips_gstat, roundtrips_sample, roundtrips_rand, roundtrips_rands,
      roundtrips_rgn, roundtrips_rgn0, roundtrips_rstat, roundtrips_grp, roundtrips_launch, roundtrips_exit, roundtrips_yield, roundtrips_rft,
      roundtrips_shoot, roundtrips_selft, roundtrips_tlbp, roundtrips_sup2, roundtrips_qrst]

/-- R16 to R18: a header lends a well-formed slot what its encoding needs, with the slot's guard. -/
theorem extFor_lends {s : Slot} {r : Raw} (hs : s.wf = true) (hr : encodeInstr s.instr = some r) :
    (extFor s.guard s.neg r).Lends r ∧ (extFor s.guard s.neg r).pred = s.guard ∧ (extFor s.guard s.neg r).neg = s.neg := by
  obtain ⟨g, n, i⟩ := s
  obtain ⟨word, dh, xh, yh, ib⟩ := r
  simp only at hr
  simp only [Slot.wf, hr, Bool.and_eq_true, Bool.or_eq_true] at hs
  obtain ⟨-, hib, -⟩ := hs
  cases ib with
  | some b =>
    simp only [Option.isNone_some, Bool.false_eq_true, false_or, decide_eq_true_eq, Bool.not_eq_true'] at hib
    obtain ⟨⟨⟨⟨rfl, rfl⟩, rfl⟩, rfl⟩, rfl⟩ := hib
    exact ⟨⟨rfl, rfl, rfl, rfl⟩, rfl, rfl⟩
  | none =>
    by_cases hz : g = 0 ∧ n = false ∧ dh = false ∧ xh = false ∧ yh = false
    · obtain ⟨rfl, rfl, rfl, rfl, rfl⟩ := hz
      exact ⟨⟨rfl, rfl, rfl, rfl⟩, rfl, rfl⟩
    · have e : extFor g n ⟨word, dh, xh, yh, none⟩ = .guard g n dh xh yh := if_neg (by simpa [and_assoc] using hz)
      rw [e]
      exact ⟨⟨rfl, rfl, rfl, rfl⟩, rfl, rfl⟩

/-- R14, R18: NOP stands without guard and byte, and is the zero word. -/
theorem decodeSlot_encode_nop {s : Slot} (hs : s.wf = true) (hi : s.instr = .nop) : encodeSlot s = some (0, .none) ∧ decodeSlot 0 .none = .ok s := by
  obtain ⟨g, n, i⟩ := s
  obtain rfl : i = .nop := hi
  have h : (decide (g = 0) && !n) = true := by
    have h := (Bool.and_eq_true_iff.1 (Bool.and_eq_true_iff.1 hs).2).2
    simpa using h
  obtain ⟨hg, hn⟩ := Bool.and_eq_true_iff.1 h
  obtain rfl : g = 0 := of_decide_eq_true hg
  obtain rfl : n = false := by simpa using hn
  exact ⟨rfl, rfl⟩

end Sys2Proof

namespace Sys2Proof.Proofs
open Sys2Proof

/-- Settles O60: what a header lends a well-formed slot is what its encoding needs, and each instruction's fields read back what they were packed from. -/
theorem decodeOfEncode : Obligations.DecodeOfEncode := by
  intro s hs
  by_cases hi : s.instr = .nop
  · obtain ⟨he, hd⟩ := decodeSlot_encode_nop hs hi
    exact ⟨0, .none, he, by decide, hd⟩
  · have hwf : s.instr.wf = true := by
      simp only [Slot.wf, Bool.and_eq_true] at hs
      obtain ⟨⟨h, -⟩, -⟩ := hs
      exact h
    obtain ⟨r, hr⟩ : ∃ r, encodeInstr s.instr = some r := by
      cases hr : encodeInstr s.instr with
      | some r => exact ⟨r, rfl⟩
      | none => simp [Slot.wf, hr] at hs
    obtain ⟨hlends, hpred, hneg⟩ := extFor_lends hs hr
    obtain ⟨hlt, hdec⟩ := roundtrips hi hwf r hr
    refine ⟨r.word, extFor s.guard s.neg r, by rw [encodeSlot, hr]; rfl, hlt, ?_⟩
    rw [decodeSlot, hdec _ hlends, decoded_bind, hpred, hneg]

end Sys2Proof.Proofs
end

section
/-! # O7, O8: the sequencer's instructions -/

namespace Sys2Proof.Machine

/-! ## Redirects (R88) -/

/-- No redirect beats one that issues with `k` delay bundles. -/
theorem redirectLoses_eq_false_iff {s : State} {k : Nat} :
    s.redirectLoses k = false ↔ ∀ r ∈ s.seq.redirects, r.seq ≠ s.seq.count ∧ r.left ≠ k + 1 := by
  simp [State.redirectLoses]

/-- R12: the low four bits are zero where 16 divides the address. -/
theorem and_fifteen_eq_zero_iff {t : VAddr} : t &&& 0xF#48 = 0 ↔ t.toNat % 16 = 0 := by
  rw [← BitVec.toNat_inj, BitVec.toNat_and]
  exact iff_of_eq (congrArg (· = 0) (Nat.and_two_pow_sub_one_eq_mod t.toNat 4))

theorem and_not_eq_self {t m : VAddr} (h : t &&& m = 0) : t &&& ~~~m = t := by
  calc t &&& ~~~m = (t &&& ~~~m) ||| (t &&& m) := by rw [h]; exact BitVec.or_zero.symm
    _ = t := by ext i hi; simp; grind

theorem branchTarget_aligned {s : State} (off : Int) (h : s.seq.pc &&& 0xF#48 = 0) : s.branchTarget off &&& 0xF#48 = 0 := by
  rw [and_fifteen_eq_zero_iff] at h ⊢
  have h16 : (BitVec.ofInt 48 (16 * off)).toNat % 16 = 0 := by
    rw [BitVec.toNat_ofInt]; omega
  rw [State.branchTarget, BitVec.toNat_add]; omega

section
variable {s : State} {k : Nat} {t : VAddr} {w : DWord}

theorem takeBranch_lost (link : List Effect) (h : s.redirectLoses k = true) : s.takeBranch k t w link = .done [] := if_pos h

theorem takeBranch_free (link : List Effect) (h : s.redirectLoses k = false) :
    s.takeBranch k t w link = .done ([.redirect (k + 1) t, .taken w] ++ link) := if_neg (by simp [h])

theorem settle_takeBranch_lost (link : List Effect) (h : s.redirectLoses k = true) : s.settle (s.takeBranch k t w link) = .next s := by
  rw [takeBranch_lost link h]; rfl

/-- An aligned target is the redirect's target; what links does so after. -/
theorem settle_takeBranch_free (link : List Effect) (h : s.redirectLoses k = false) (ht : t &&& 0xF#48 = 0) :
    s.settle (s.takeBranch k t w link) = .next (applyAll (s.redirected (k + 1) t w) link) := by
  rw [takeBranch_free link h, settle_done, applyAll_append, applyAll_cons, applyAll_cons, apply_redirect, and_not_eq_self ht]; rfl

/-- R12, R95: a register's aligned target goes the way of every taken branch. -/
theorem jumpIssue_aligned {x : SSrc} (link : List Effect) (h : (s.srcS x).setWidth 48 &&& 0xF#48 = 0) :
    s.jumpIssue x link = s.takeBranch 3 ((s.srcS x).setWidth 48) (((s.srcS x).setWidth 48 : VAddr).setWidth 64) link := by
  simp only [State.jumpIssue, h, beq_self_eq_true, check_true, ok_bind]
  cases hl : s.redirectLoses 3 with
  | true => rw [takeBranch_lost link hl]; rfl
  | false => rw [takeBranch_free link hl]; rfl

theorem settle_jumpIssue_misaligned {x : SSrc} (link : List Effect) (h : (s.srcS x).setWidth 48 &&& 0xF#48 ≠ 0) :
    s.settle (s.jumpIssue x link) = s.raises .misalignedTarget := by
  refine settle_of_cause ?_
  simp only [beq_eq_false_iff_ne.2 h, check_false, error_bind]

end

/-- A branch to an offset that is beaten does nothing, whatever its condition. -/
theorem settle_brmIssue_lost {s : State} (c : Bool) (off : Int) (h : s.redirectLoses 2 = true) : s.settle (s.brmIssue c off) = .next s := by
  cases c with
  | false => rfl
  | true => exact settle_takeBranch_lost [] h

theorem settle_brmIssue_free {s : State} (off : Int) (hpc : s.seq.pc &&& 0xF#48 = 0) (h : s.redirectLoses 2 = false) :
    s.settle (s.brmIssue true off) = .next (s.redirected 3 (s.branchTarget off) 0) :=
  settle_takeBranch_free [] h (branchTarget_aligned off hpc)

end Sys2Proof.Machine

namespace Sys2Proof.Proofs
open Sys2Proof Sys2Proof.Machine

/-- Settles O7: every branch is `takeBranch`, which does nothing when it is beaten, and redirects and links when it is not. -/
theorem branchesRedirect : Obligations.BranchesRedirect := by
  refine ⟨fun s p neg off x d => ?_, fun s x d h => ⟨settle_jumpIssue_misaligned [] h, settle_jumpIssue_misaligned [] h,
    settle_jumpIssue_misaligned (s.linkTo d) h⟩⟩
  intro free rel abs link top parent hpc
  have hfree (k : Nat) (h : free k) : s.redirectLoses k = false := redirectLoses_eq_false_iff.2 h
  have hlost (k : Nat) (h : ¬ free k) : s.redirectLoses k = true := by
    rw [← Bool.not_eq_false, redirectLoses_eq_false_iff]; exact h
  have hwhen {c b : Bool} (h : c = b) : s.settle (s.brmIssue c off) = s.settle (s.brmIssue b off) := congrArg (fun c => s.settle (s.brmIssue c off)) h
  have hnone : top = 0 → maskNone s.regs.masks = true := beq_iff_eq.2
  have hnone0 : top ≠ 0 → maskNone s.regs.masks = false := beq_eq_false_iff_ne.2
  have hall : parent &&& ~~~top = 0 → maskAll s.regs.masks = true := beq_iff_eq.2
  have hall0 : parent &&& ~~~top ≠ 0 → maskAll s.regs.masks = false := beq_eq_false_iff_ne.2
  have hbrm (hf : free 2) : s.settle (s.brmIssue true off) = .next (s.redirected 3 rel 0) := settle_brmIssue_free off hpc (hfree 2 hf)
  have hjump (hf : free 3) (ha : abs &&& 0xF#48 = 0) (es : List Effect) :
      s.settle (s.jumpIssue x es) = .next (applyAll (s.redirected 4 abs (abs.setWidth 64)) es) := by
    rw [jumpIssue_aligned es ha]; exact settle_takeBranch_free es (hfree 3 hf) ha
  have hjump0 (hf : ¬ free 3) (ha : abs &&& 0xF#48 = 0) (es : List Effect) : s.settle (s.jumpIssue x es) = .next s := by
    rw [jumpIssue_aligned es ha]; exact settle_takeBranch_lost es (hlost 3 hf)
  refine ⟨fun h => ?_, fun hf h => ?_, fun hf h => ⟨?_, ?_⟩, fun hf h => ⟨?_, ?_⟩, fun hf h => ?_, fun h => ?_, fun hf => ?_, fun hf ha => ?_,
    fun hf => ⟨?_, ?_, ?_, ?_⟩, fun hf => ?_, fun hf ha => ?_⟩
  · exact hwhen h
  · exact (hwhen h).trans (hbrm hf)
  · exact (hwhen (hnone h)).trans (hbrm hf)
  · exact hwhen (congrArg not (hnone h))
  · exact (hwhen (congrArg not (hnone0 h))).trans (hbrm hf)
  · exact hwhen (hnone0 h)
  · exact (hwhen (hall h)).trans (hbrm hf)
  · exact hwhen (hall0 h)
  · exact settle_takeBranch_free (s.linkTo (.reg 62)) (hfree 3 hf) (branchTarget_aligned off hpc)
  · exact ⟨hjump hf ha [], hjump hf ha [], hjump hf ha (s.linkTo d)⟩
  · exact settle_brmIssue_lost (s.srcP p ^^ neg) off (hlost 2 hf)
  · exact settle_brmIssue_lost (maskNone s.regs.masks) off (hlost 2 hf)
  · exact settle_brmIssue_lost (!maskNone s.regs.masks) off (hlost 2 hf)
  · exact settle_brmIssue_lost (maskAll s.regs.masks) off (hlost 2 hf)
  · exact settle_takeBranch_lost (s.linkTo (.reg 62)) (hlost 3 hf)
  · exact ⟨hjump0 hf ha [], hjump0 hf ha [], hjump0 hf ha (s.linkTo d)⟩

end Sys2Proof.Proofs
end

section
namespace Sys2Proof.Machine

/-! ## Write sets (R119) -/

/-- A destination that no unit of the read-first set meets is joined to the write set of the region, if one is open. -/
theorem varWrite_of_noClash {s : State} {us : List TUnit} (h : s.noClash us) : ∃ es, s.varWrite us = .ok es ∧ applyAll s es = s.writesOf us := by
  obtain hr | ⟨r, hr⟩ := Option.eq_none_or_eq_some s.rgn
  · refine ⟨[], by rw [State.varWrite, hr], ?_⟩
    rw [applyAll_nil, State.writesOf, hr, Option.map_none, ← hr]
  · exact ⟨[.writes us], by simp [State.varWrite, hr, h r hr], rfl⟩

theorem writesOf_of_none {s : State} (us : List TUnit) (h : s.rgn = none) : s.writesOf us = s := by
  rw [State.writesOf, h, Option.map_none, ← h]

/-! ## Loops (R97, R98, R100) -/

/-- R100: the stack has room for a loop that ends at `fin`, inside every loop that runs and not at the end of the innermost. -/
def State.loopFits (s : State) (fin : VAddr) : Prop :=
  s.seq.loops.length < 6 ∧ (∀ l ∈ s.seq.loops, fin.toNat ≤ l.fin.toNat) ∧ (∀ l, s.seq.loops.head? = some l → l.fin ≠ s.seq.pc)

/-- The checks of `loopFits`, as LOOP and LOOPI make them. -/
def State.loopChecks (s : State) (fin : VAddr) : Bool × Bool × Bool :=
  (decide (s.seq.loops.length < 6), s.seq.loops.all fun l => decide (fin.toNat ≤ l.fin.toNat),
    match s.seq.loops.head? with | some l => l.fin != s.seq.pc | none => true)

theorem loopFits_iff {s : State} {fin : VAddr} :
    s.loopFits fin ↔ (s.loopChecks fin).1 = true ∧ (s.loopChecks fin).2.1 = true ∧ (s.loopChecks fin).2.2 = true := by
  unfold State.loopFits State.loopChecks
  cases s.seq.loops.head? <;> simp

/-- What LOOP and LOOPI do once their checks have passed. -/
def State.loopEffects (s : State) (n : BitVec 32) (fin : VAddr) (w : DWord) : Except Issue (List Effect) :=
  if n = 0 then .ok [.skip fin]
  else do
    let ws ← s.varWrite [.l s.seq.loops.length]
    .ok (ws ++ [.pushLoop ⟨s.seq.pc + 16, fin, 0, n⟩, .taken w])

section
variable {s : State} {n : BitVec 32} {off : Nat} {w : DWord}

theorem loopIssue_eq : s.loopIssue n off w = issueOf (do
    check (s.loopChecks (s.seq.pc + BitVec.ofNat 48 (16 * off))).1 .loopStack
    check (s.loopChecks (s.seq.pc + BitVec.ofNat 48 (16 * off))).2.1 .loopStack
    check (s.loopChecks (s.seq.pc + BitVec.ofNat 48 (16 * off))).2.2 .loopStack
    s.loopEffects n (s.seq.pc + BitVec.ofNat 48 (16 * off)) w) := rfl

theorem loopIssue_of_fits (h : s.loopFits (s.seq.pc + BitVec.ofNat 48 (16 * off))) :
    s.loopIssue n off w = issueOf (s.loopEffects n (s.seq.pc + BitVec.ofNat 48 (16 * off)) w) := by
  obtain ⟨h1, h2, h3⟩ := loopFits_iff.1 h
  rw [loopIssue_eq, h1, h2, h3]; rfl

theorem settle_loopIssue_of_not_fits (h : ¬ s.loopFits (s.seq.pc + BitVec.ofNat 48 (16 * off))) :
    s.settle (s.loopIssue n off w) = s.raises .loopStack := by
  rw [loopFits_iff] at h
  rw [loopIssue_eq]
  refine settle_of_cause ?_
  generalize s.loopChecks (s.seq.pc + BitVec.ofNat 48 (16 * off)) = b at h
  obtain ⟨b1, b2, b3⟩ := b
  cases b1 with
  | false => rfl
  | true => cases b2 with
    | false => rfl
    | true => cases b3 with
      | false => rfl
      | true => exact absurd ⟨rfl, rfl, rfl⟩ h

theorem settle_loopIssue_zero (h : s.loopFits (s.seq.pc + BitVec.ofNat 48 (16 * off))) :
    s.settle (s.loopIssue 0 off w) = .next (s.setFin { s.fin with skip := some (s.seq.pc + BitVec.ofNat 48 (16 * off)) }) := by
  rw [loopIssue_of_fits h]; rfl

/-- `s` with a level for the end of the bundle, and its part of the branch record. -/
def State.pushing (s : State) (l : LoopLevel) (w : DWord) : State :=
  s.setFin { s.fin with pushed := some l, taken := s.fin.taken + 2 ^ s.seq.bun.slot, branchWord := if w = 0 then s.fin.branchWord else w }

theorem settle_loopIssue_push (h : s.loopFits (s.seq.pc + BitVec.ofNat 48 (16 * off))) (hc : s.noClash [.l s.seq.loops.length]) (hn : n ≠ 0) :
    s.settle (s.loopIssue n off w) = .next ((s.writesOf [.l s.seq.loops.length]).pushing ⟨s.seq.pc + 16, s.seq.pc + BitVec.ofNat 48 (16 * off), 0, n⟩ w) := by
  obtain ⟨es, he, ha⟩ := varWrite_of_noClash hc
  rw [loopIssue_of_fits h, State.loopEffects, if_neg hn, he]
  simp only [ok_bind, issueOf_ok, settle_done, applyAll_append, ha]
  rfl

end

theorem settle_leaveIssue {s : State} (h : s.fin.leaves < s.seq.loops.length) : s.settle s.leaveIssue =
    .next (s.setFin { s.fin with leaves := s.fin.leaves + 1, taken := s.fin.taken + 2 ^ s.seq.bun.slot }) := by
  rw [State.leaveIssue, decide_eq_true h]; rfl

theorem settle_leaveIssue_none {s : State} (h : s.seq.loops.length ≤ s.fin.leaves) : s.settle s.leaveIssue = s.raises .loopStack := by
  rw [State.leaveIssue, decide_eq_false (by omega)]; rfl

/-! ## TRAP (R106) -/

theorem settle_trapIssue {s : State} (imm : Nat) (hp : s.k.priv = false) (hr : s.rgn.isSome = true) (ht : s.seq.trapReq = none) :
    s.settle (s.trapIssue imm) = .next (({ s with seq := { s.seq with trapReq := some (BitVec.ofNat 26 imm) } } : State).setFin
      { s.fin with taken := s.fin.taken + 2 ^ s.seq.bun.slot }) := by
  rw [State.trapIssue, hp, State.inRegion, hr, ht]; rfl

theorem settle_trapIssue_context {s : State} (imm : Nat) (h : s.k.priv = true ∨ s.rgn = none ∨ s.seq.trapReq ≠ none) :
    s.settle (s.trapIssue imm) = s.raises .trapContext := by
  have hb : (!s.k.priv && s.inRegion && s.seq.trapReq.isNone) = false := by
    obtain h | h | h := h
    · rw [h]; rfl
    · rw [State.inRegion, h]; simp
    · rw [Option.isNone_eq_false_iff.2 (Option.isSome_iff_ne_none.2 h)]; simp
  rw [State.trapIssue, hb]; rfl

end Sys2Proof.Machine

namespace Sys2Proof.Proofs
open Sys2Proof Sys2Proof.Machine

/-- Settles O8: a loop that fits pushes its level or skips, and each of the others leaves its mark or raises its cause. -/
theorem loopsTrapsAndDelays : Obligations.LoopsTrapsAndDelays := by
  refine ⟨fun s x n off => ?_, fun s imm n => ⟨rfl, settle_trapIssue imm, settle_trapIssue_context imm, rfl, rfl⟩⟩
  intro f fin nested clash pushed m
  have hclash (h : ¬ clash) : s.noClash [.l s.seq.loops.length] := fun r hr => by
    rw [← Bool.not_eq_true]; exact fun hc => h ⟨r, hr, hc⟩
  have hpushed (c : BitVec 32) (w : DWord) : (s.writesOf [.l s.seq.loops.length]).pushing ⟨s.seq.pc + 16, fin, 0, c⟩ w = pushed c w := by
    obtain hr | ⟨r, hr⟩ := Option.eq_none_or_eq_some s.rgn
    · simp only [pushed, hr, writesOf_of_none]; rfl
    · simp only [pushed, hr]; rfl
  refine ⟨fun hn hc hm => ?_, fun hn hc hm => ?_, fun hn hm => ?_, fun hn hm => ?_,
    fun hn => ⟨settle_loopIssue_of_not_fits hn, settle_loopIssue_of_not_fits hn⟩, settle_leaveIssue, settle_leaveIssue_none⟩
  · exact (settle_loopIssue_push hn (hclash hc) hm).trans (congrArg _ (hpushed _ _))
  · exact (settle_loopIssue_push hn (hclash hc) hm).trans (congrArg _ (hpushed _ _))
  · exact (congrArg (fun c => s.settle (s.loopIssue c off (m.setWidth 64))) hm).trans (settle_loopIssue_zero hn)
  · exact (congrArg (fun c => s.settle (s.loopIssue c off 0)) hm).trans (settle_loopIssue_zero hn)

end Sys2Proof.Proofs
end

section
/-! # O40: what a landing writes, and the end of a bundle -/

namespace Sys2Proof.Machine

/-! ## The result queue (R55, R58) -/

theorem pushQ_succ {α : Type} (q : List (QEntry α)) (e : QEntry α) {i : Nat} (h : i < 15) : (pushQ q e)[i + 1]? = q[i]? := by
  rw [pushQ, List.getElem?_take_of_lt (by omega), List.getElem?_cons_succ]

/-! ## Registers (R54, R61, R64) -/

theorem readS_writeS_ne {r : Regs} {sup : Bool} {m n : Nat} (v : DWord) (h : m ≠ n) : (r.writeS sup n v).readS sup m = r.readS sup m := by
  by_cases hn : n = 0
  · rw [Regs.writeS, if_pos hn]
  by_cases hs : (sup && decide (48 ≤ n)) = true
  · rw [Regs.writeS, if_neg hn, if_pos hs]
    simp only [Regs.readS]
    split_ifs with _ hm
    · rfl
    · simp only [Bool.and_eq_true, decide_eq_true_eq] at hs hm
      rw [List.getElem?_set_ne (by omega)]
    · rfl
  · rw [Regs.writeS, if_neg hn, if_neg hs]
    simp only [Regs.readS]
    rw [List.getElem?_set_ne (Ne.symm h)]

theorem readS_writeS_same {r : Regs} {sup : Bool} {n : Nat} (v : DWord) (h0 : n ≠ 0) (hn : n < 64) (hs : r.s.length = 64)
    (hsup : r.sup.length = 16) : (r.writeS sup n v).readS sup n = v := by
  by_cases h : (sup && decide (48 ≤ n)) = true
  · simp only [Regs.writeS, Regs.readS, if_neg h0, if_pos h]
    rw [List.getElem?_set_self (by omega), Option.getD_some]
  · simp only [Regs.writeS, Regs.readS, if_neg h0, if_neg h]
    rw [List.getElem?_set_self (by omega), Option.getD_some]

theorem readP_writeP {r : Regs} {p q : Nat} (b : Bool) (hp : p < 16) (hq : q < 16) :
    (r.writeP p b).readP q = if q = p ∧ p ≠ 0 then b else r.readP q := by
  by_cases h0 : p = 0
  · rw [Regs.writeP, if_pos h0, if_neg (by simp [h0])]
  rw [Regs.writeP, if_neg h0]
  by_cases hqp : q = p
  · subst hqp
    cases b <;> simp [Regs.readP, h0, hq]
  · cases b <;> simp [Regs.readP, hqp, hq]

theorem getLsbD_mergeV (old v m : VReg) {j : Nat} (h : j < 65536) :
    (mergeV old v m).getLsbD j = if m.getLsbD j then v.getLsbD j else old.getLsbD j := by
  simp only [mergeV, BitVec.getLsbD_or, BitVec.getLsbD_and, BitVec.getLsbD_not, h, decide_true, Bool.true_and]
  cases m.getLsbD j <;> simp

/-! ## Landings -/

section
variable {s : State} {f : InFlight}

theorem land_scalar {d : SDst} {v : DWord} (h : f.what = .scalar d v) : s.land f = { s with regs := s.regs.landS f.sup d v } := by
  rw [State.land, h]

theorem land_vector {d : VDst} {v m : VReg} (h : f.what = .vector d v m) : s.land f = { s with regs := s.regs.landV d v m } := by
  rw [State.land, h]

theorem land_pred {p : Nat} {b : Bool} (h : f.what = .pred p b) : s.land f = { s with regs := s.regs.writeP p b } := by
  rw [State.land, h]

theorem land_store {a : Nat} {v : VReg} (h : f.what = .store a v) : s.land f = { s with sp := Memory.write s.sp a (vregBytes v) } := by
  rw [State.land, h]

/-- R54, R55, R64: a scalar landing in a register. -/
theorem land_scalar_reg {n : Nat} {v : DWord} (hw : f.what = .scalar (.reg n) v) (hsup : f.sup = s.k.priv) (hn : n < 64) (hs : s.regs.s.length = 64)
    (hl : s.regs.sup.length = 16) :
    (∀ m, m < 64 → m ≠ n → (s.land f).srcS (.reg m) = s.srcS (.reg m)) ∧ (s.land f).srcS (.reg n) = (if n = 0 then s.srcS (.reg 0) else v)
    ∧ (s.land f).srcS (.q 0) = v ∧ (∀ i, i < 15 → (s.land f).srcS (.q (i + 1)) = s.srcS (.q i)) := by
  rw [land_scalar hw, hsup]
  refine ⟨fun m _ hm => readS_writeS_ne v hm, ?_, rfl, fun i hi => ?_⟩
  · split_ifs with h0
    · subst h0; rfl
    · exact readS_writeS_same v h0 hn hs hl
  · have e := pushQ_succ s.regs.q (.full v) hi
    simp only [State.srcS, Regs.landS, e]

/-- R165: a vector landing in a register. -/
theorem land_vector_reg {n : Nat} {v m : VReg} (hw : f.what = .vector (.reg n) v m) (hn : n < s.regs.v.length) :
    (∀ e, e ≠ n → (s.land f).srcV (.reg e) = s.srcV (.reg e))
    ∧ (∀ j, j < 65536 → ((s.land f).srcV (.reg n)).getLsbD j = if m.getLsbD j then v.getLsbD j else (s.srcV (.reg n)).getLsbD j)
    ∧ (s.land f).srcV (.q 0) = (s.land f).srcV (.reg n) := by
  rw [land_vector hw]
  have hsame : ({ s with regs := s.regs.landV (.reg n) v m } : State).srcV (.reg n) = mergeV (s.srcV (.reg n)) v m := by
    simp only [State.srcV, Regs.landV]
    rw [List.getElem?_set_self hn, Option.getD_some]
  refine ⟨fun e he => ?_, fun j hj => ?_, ?_⟩
  · simp only [State.srcV, Regs.landV]
    rw [List.getElem?_set_ne (Ne.symm he)]
  · rw [hsame, getLsbD_mergeV _ _ _ hj]
  · rw [hsame]; rfl

/-! ## The end of a bundle (R36, R119) -/

/-- `s` at the end of a bundle, before what is due takes effect. -/
def State.nearer (s : State) : State :=
  { s with pipe :=
    { s.pipe with
      inflight := (s.pipe.inflight.filter fun f => f.left != 0).map fun f => { f with left := f.left - 1 },
      waits := s.pipe.waits.map fun w => if !w.placed && w.left != 0 then { w with left := w.left - 1 } else w } }

theorem landings_of_none (h : s.dueNow = []) : s.landings = .ok (s.nearer.setStatus 0) := by
  rw [State.landings, h]; rfl

theorem landings_of_one (h : s.dueNow = [.land f]) : s.landings = (s.nearer.landChecked f).map fun t => t.setStatus f.flags := by
  have hz : (0 : Flags) ||| f.flags = f.flags := BitVec.zero_or
  rw [State.landings, h]
  show (match takeAll s.nearer [.land f] with | .error t => _ | .ok s2 => _) = _
  rw [takeAll, State.takeDue]
  cases s.nearer.landChecked f with
  | error t => rfl
  | ok t => exact congrArg (fun fl => Except.ok (t.setStatus fl)) hz

theorem landChecked_of_noClash (h : s.noClash (landingUnits f.what)) : s.landChecked f = .ok ((s.writesOf (landingUnits f.what)).land f) := by
  obtain hr | ⟨r, hr⟩ := Option.eq_none_or_eq_some s.rgn
  · rw [writesOf_of_none _ hr]; simp [State.landChecked, hr]
  · simp [State.landChecked, State.writesOf, hr, h r hr]

theorem landChecked_of_clash {r : Region} (hr : s.rgn = some r) (h : r.clash (landingUnits f.what) = true) :
    s.landChecked f = .error { cause := .antidependence, slotless := true } := by
  simp [State.landChecked, hr, h]

/-- No queue position is due where every result to come is placed or has bundles left. -/
theorem waits_due_eq_nil (h : ∀ w ∈ s.pipe.waits, w.placed = true ∨ w.left ≠ 0) : (s.pipe.waits.filter fun w => !w.placed && w.left == 0) = [] := by
  refine List.filter_eq_nil_iff.2 fun w hw => ?_
  obtain hp | hl := h w hw
  · simp [hp]
  · simp [hl]

theorem dueNow_eq_nil (hw : ∀ w ∈ s.pipe.waits, w.placed = true ∨ w.left ≠ 0) (hf : ∀ x ∈ s.pipe.inflight, x.left ≠ 0) : s.dueNow = [] := by
  have e : (s.pipe.inflight.filter fun f => f.left == 0) = [] := List.filter_eq_nil_iff.2 fun x hx => by simp [hf x hx]
  rw [State.dueNow, e, waits_due_eq_nil hw]; rfl

/-- A result that is due alone lands in whichever of the two orders it belongs to. -/
theorem dueNow_eq_singleton (hw : ∀ w ∈ s.pipe.waits, w.placed = true ∨ w.left ≠ 0) (hf : s.pipe.inflight = [f]) (h0 : f.left = 0) :
    s.dueNow = [.land f] := by
  have e : (s.pipe.inflight.filter fun f => f.left == 0) = [f] := by simp [hf, h0]
  rw [State.dueNow, e, waits_due_eq_nil hw]
  cases hi : Due.inIssueOrder (.land f) <;> simp [hi, sortSlot, sortIssue, insertDue]

theorem nearer_of_all_left (hf : ∀ x ∈ s.pipe.inflight, x.left ≠ 0) : s.nearer.pipe.inflight = s.pipe.inflight.map fun f => { f with left := f.left - 1 } := by
  have e : (s.pipe.inflight.filter fun f => f.left != 0) = s.pipe.inflight := List.filter_eq_self.2 fun x hx => by simp [hf x hx]
  simp only [State.nearer, e]

theorem nearer_of_due (hf : s.pipe.inflight = [f]) (h0 : f.left = 0) : s.nearer.pipe.inflight = [] := by
  simp [State.nearer, hf, h0]

theorem exec_resultLanding_of_ok {t : State} (h : s.landings = .ok t) : exec .resultLanding s = .next t := by
  show execResultLanding s = _
  rw [execResultLanding, h]

theorem exec_resultLanding_of_error {t : Trap} (h : s.landings = .error t) : exec .resultLanding s = .next (s.takeTrap t) := by
  show execResultLanding s = _
  rw [execResultLanding, h]

end

end Sys2Proof.Machine

namespace Sys2Proof.Proofs
open Sys2Proof Sys2Proof.Machine

/-- Settles O40: each kind of landing writes its own destination; the end of a bundle takes the one result that is due, through the check of its units. -/
theorem resultsLand : Obligations.ResultsLand := by
  intro s f t us later waiting
  refine ⟨fun n v hw hsup hn hs hl => ⟨?_, land_scalar_reg hw hsup hn hs hl⟩, fun v hw => land_scalar hw, fun n v m hw hn => ⟨?_, land_vector_reg hw hn⟩,
    fun p b hw hp q hq => ?_, fun a v hw => land_store hw, fun hw hf => ?_, fun hw hf h0 => ?_⟩
  · simp only [t, land_scalar hw]
  · simp only [t, land_vector hw]
  · simp only [t, land_pred hw]; exact readP_writeP b hp hq
  · rw [exec_resultLanding_of_ok (landings_of_none (dueNow_eq_nil hw hf)), ← nearer_of_all_left hf]; rfl
  · have hl := landings_of_one (dueNow_eq_singleton hw hf h0)
    have hnear : s.nearer = { s with pipe := ⟨[], later, s.pipe.banks⟩ } := by rw [← nearer_of_due hf h0]; rfl
    refine ⟨fun hc => exec_resultLanding_of_ok ?_, fun r hr hc => exec_resultLanding_of_error ?_⟩
    · rw [hl, landChecked_of_noClash (s := s.nearer) hc, hnear]; rfl
    · rw [hl, landChecked_of_clash (s := s.nearer) hr hc]; rfl

end Sys2Proof.Proofs
end

section
/-! # O42: what arrives -/

namespace Sys2Proof.Machine

/-! ## Lanes -/

theorem length_splitN (n b x : Nat) : (splitN n b x).length = n := by
  induction n generalizing x with
  | zero => rfl
  | succ n ih => rw [splitN, List.length_cons, ih]

theorem length_laneWindow (lo hi : Nat) (act : List Bool) : (laneWindow lo hi act).length = act.length := by simp [laneWindow]

/-- A gather has one element for each of the 2,048 lanes of four bytes. -/
theorem length_gatherAddrs (b w lo hi : Nat) (idx : VReg) (m : Mask) : (gatherAddrs b w lo hi idx m).length = 2048 := by
  simp [gatherAddrs, length_laneWindow, active, lanes, length_splitN]

section
variable {s : State} {w : Wait}

/-! ## Results that arrive (R37) -/

theorem exec_resultArrival (h : s.pipe.waits.find? (fun w => w.id == s.ev.id && w.outstanding) = some w) :
    exec .resultArrival s = .next (s.arrival w) := by
  show execResultArrival s = _
  rw [execResultArrival, h]

theorem arrival_direct {v : DWord} (h : w.op = .direct v ∨ w.op = .tlbp v) : s.arrival w = s.arriveTraced w (.scalar v) 0 := by
  obtain h | h := h <;> rw [State.arrival, h]

theorem arrival_window {a : Nat} {t : Ty} (h : w.op = .window a t) :
    s.arrival w = s.arriveTraced w (.scalar (loadValue t (Memory.word s.sp a (tyBytes t)))) 0 := by
  rw [State.arrival, h]; rfl

/-- The flag of an acquire that a tag of its home shuts out (R279). -/
def State.acquireFlag (s : State) (w : Wait) (l : Loc) (pol : BitVec 32) : Flags :=
  if !w.sup && polAcquire pol && s.acquireDrops s.k l s.k.nodeId (polScope pol) then flagScopeMiss else 0

theorem acquireFlag_eq_zero {l : Loc} {pol : BitVec 32} (h : polAcquire pol = false ∨ w.sup = true) : s.acquireFlag w l pol = 0 := by
  obtain h | h := h <;> simp [State.acquireFlag, h]

section
variable {va : VAddr} {pa : Nat} {attr : Attr} {t : Ty} {pol : BitVec 32} {tag : Option Nat}

/-- R252: a load that performs at its home here, with the bytes of older stores over what memory holds. -/
theorem arrival_load_here (h : w.op = .load va (.here pa) attr t pol tag) (hw : s.loadWaits w (polClass pol) s.k.nodeId = false)
    (hp : s.poisoned pa = false) :
    s.arrival w = { s with l2 := l2Touch s.l2 (pa / 128) attr false }.arriveTraced w
      (.scalar (loadValue t (leNat (overlay (Memory.bytes s.hbm pa (tyBytes t)) (s.forwardTo w (.here pa) va (tyBytes t))))))
      (s.acquireFlag w (.here pa) pol) := by
  rw [State.arrival, h]
  exact (if_neg (by simp [hw])).trans (if_neg (by simp [hp]))

theorem arrival_load_poisoned (h : w.op = .load va (.here pa) attr t pol tag) (hw : s.loadWaits w (polClass pol) s.k.nodeId = false)
    (hp : s.poisoned pa = true) : s.arrival w = s.faultOf w.slot w.seq { cause := .poison, eva := va, uclass := 6 } := by
  rw [State.arrival, h]
  exact (if_neg (by simp [hw])).trans (if_pos hp)

end

/-- `s` with the lanes that the result numbered `id` writes. -/
def State.withLanes (s : State) (id : Nat) (lanes : VReg) : State :=
  { s with pipe := { s.pipe with waits := s.pipe.waits.map fun (x : Wait) => if x.id = id then { x with lanes := lanes } else x } }

/-- R181: a gather that is not resumable arrives whole. -/
theorem arrival_gather {b : Nat} {idx : VReg} {m : Mask} {ew : EW} {vs : List Nat} (h : w.op = .gather b idx m ew false)
    (hv : s.gatherLanes (ewBytes ew) (gatherAddrs b (ewBytes ew) 0 2048 idx m) = .ok vs) :
    s.arrival w = (s.withLanes w.id w.lanes).arriveTraced w (.vector (ofLanes 4 vs)) 0 := by
  rw [State.arrival, h]
  show s.gatherArrive w (ewBytes ew) (gatherAddrs b (ewBytes ew) 0 2048 idx m) w.lanes = _
  rw [State.gatherArrive, hv]
  show (s.withLanes w.id w.lanes).arriveTraced w (.vector (ofLanes (if _ = 2048 then 4 else _) vs)) 0 = _
  rw [if_pos (length_gatherAddrs ..)]

/-- R181: a scatter that is not resumable writes all its elements, once the stores before it have landed. -/
theorem exec_scatterComplete {b : Nat} {data idx : VReg} {m : Mask} {ew : EW} {sp : Memory}
    (hw : s.pipe.waits.find? (fun w => w.id == s.ev.id && w.outstanding) = some w) (h : w.op = .scatter b data idx m ew false)
    (hs : s.storesBefore w.seq = true)
    (hl : s.scatterLanes (ewBytes ew) s.sp (scatterWrites b (ewBytes ew) 0 2048 data idx m) = (sp, none)) :
    exec .scatterComplete s = .next ({ s with sp := sp }.arrive w.id .nothing 0) := by
  have ht : s.scatterTo w b data idx m (ewBytes ew) 0 2048 = .ok { s with sp := sp } := by rw [State.scatterTo, hl]
  show execScatterComplete s = _
  simp [execScatterComplete, hw, h, hs, ht]

/-! ## Walks (R241) -/

theorem exec_translationWalkComplete_ok {x : Xlat} (h : s.page s.ev.walk.requester s.ev.walk.job s.ev.walk.va s.ev.walk.access 0 = .ok x) :
    exec .translationWalkComplete s = .next { s with tlb := x.tlb } := by
  show execTranslationWalkComplete s = _
  rw [execTranslationWalkComplete, State.walkDone, h]

theorem exec_translationWalkComplete_error {i : Issue} (h : s.page s.ev.walk.requester s.ev.walk.job s.ev.walk.va s.ev.walk.access 0 = .error i) :
    exec .translationWalkComplete s = (if s.ev.walk.requester = .fetch ∨ s.ev.walk.requester = .ls then s.settle i else .next s) := by
  show execTranslationWalkComplete s = _
  rw [execTranslationWalkComplete, State.walkDone, h]
  cases s.ev.walk.requester <;> rfl

end

end Sys2Proof.Machine

namespace Sys2Proof.Proofs
open Sys2Proof Sys2Proof.Machine

/-- Settles O42: the act finds its result, which arrives by the kind of its operation; a walk goes by what it finds and by who waits for it. -/
theorem resultsArrive : Obligations.ResultsArrive := by
  intro s w
  refine ⟨fun hw => ⟨fun v h => ?_, fun a t h => ?_, fun va pa attr t pol tag h hl => ⟨fun hp => ?_, fun hp => ?_⟩, fun b idx m ew vs h hv => ?_,
    fun b data idx m ew sp h => exec_scatterComplete hw h⟩, ?_⟩
  · rw [exec_resultArrival hw, arrival_direct h]
  · rw [exec_resultArrival hw, arrival_window h]
  · exact ⟨s.acquireFlag w (.here pa) pol, (exec_resultArrival hw).trans (congrArg _ (arrival_load_here h hl hp)), acquireFlag_eq_zero⟩
  · rw [exec_resultArrival hw, arrival_load_poisoned h hl hp]
  · exact ⟨s.withLanes w.id w.lanes, (exec_resultArrival hw).trans (congrArg _ (arrival_gather h hv)), rfl, rfl, rfl⟩
  · intro r
    refine ⟨fun x h => exec_translationWalkComplete_ok h, fun t h hr => ?_, fun t h hr => ?_⟩
    · exact (exec_translationWalkComplete_error h).trans (if_pos hr)
    · refine (exec_translationWalkComplete_error h).trans (if_neg ?_)
      obtain hr | hr | hr := hr <;> (rw [hr]; decide)

end Sys2Proof.Proofs
end

section
/-! # O58: what a step does -/

namespace Sys2Proof.Machine

/-! ## What comes next (R403, R411) -/

theorem nextAct_of_cons {s : State} {e : Event} {l : List Event} (hi : s.inbox = e :: l) (he : s.mustWait e = false) : s.nextAct = some (e, l) := by
  have hf : firstAct s.mustWait false (e :: l) = some e := by rw [firstAct, he]; rfl
  rw [State.nextAct, hi, hf, Option.map_some, List.erase_cons_head]

theorem step_of_nextAct {s : State} {e : Event} {l : List Event} (h : s.nextAct = some (e, l)) :
    step s = if ({ s with inbox := l, ev := e.args } : State).hears e then exec e.row { s with inbox := l, ev := e.args }
      else .next { s with inbox := l, ev := e.args } := by
  show s.advanceOne = _
  rw [State.advanceOne, h]

theorem step_of_forced {s : State} {e : Event} (hn : s.nextAct = none) (hf : s.forced = some e) : step s = exec e.row { s with ev := e.args } := by
  show s.advanceOne = _
  rw [State.advanceOne, hn, hf]

theorem step_of_idle {s : State} (hn : s.nextAct = none) (hf : s.forced = none) (he : s.enabled = []) : step s = s.clockStep := by
  show s.advanceOne = _
  rw [State.advanceOne, hn, hf, he]

/-! ## The clock that fetches (R90) -/

/-- `s` with the marks of its bundle as a bundle finds them. -/
def State.atBundle (s : State) : State := { s with seq := { s.seq with bun := .start } }

/-- Nothing stands before the fetch: trace, bring-up, halt, tests, fences, traps, waits, delays and notices are all out of the way. -/
theorem clockStep_of_fetches {s : State} (h : s.fetches) : s.clockStep = s.atBundle.issueNext := by
  obtain ⟨-, -, -, hoff, hbring, hstop, htq, htr, -, hhalt, hrun, hdue, hwait, hdelay, hheld, hfence, hdis, ht0, ht6, hperf, -, -⟩ := h
  have hflush : s.flushTrace s.hst.traceQ.length = s := by rw [htq]; rfl
  have hup : ({ s with seq := { s.seq with bun := .start } } : State).bringUp = s.atBundle := by
    rw [State.bringUp]; simp only [State.atBundle, hbring]
  have hqueue : ¬ (!s.k.priv && s.sch.running.isNone) = true := by
    obtain h | h := hrun
    · simp [h]
    · simp [Option.isNone_eq_false_iff.2 h]
  have hbound : ¬ (s.seq.perform.isSome && s.boundaryDue false) = true := by
    obtain h | h := hperf <;> simp [h]
  have hheld : s.atBundle.heldNow = none := hheld
  rw [State.clockStep, hflush, hup]
  refine (if_neg (show ¬ (s.hst.off || s.err.stopped) = true by simp [hoff, hstop])).trans ?_
  refine (if_neg (show ¬ (!s.hst.traceQ.isEmpty || (s.tracing && s.hst.traceFull)) = true by simp [htq, htr])).trans ?_
  refine (if_neg (show ¬ s.seq.halted = true by simp [hhalt])).trans ?_
  refine (if_neg (show ¬ (s.testing 0 || s.testing 6) = true by simp [ht0, ht6])).trans ?_
  refine (if_neg (show ¬ s.engineFence.isSome = true by simp [hfence])).trans ?_
  refine (if_neg (show ¬ s.disagreement.isSome = true by simp [hdis])).trans ?_
  refine (if_neg hqueue).trans ?_
  refine (if_neg (show ¬ (s.seq.dueTrap.isSome && s.rgn.isNone && s.seq.perform.isNone) = true by simp [hdue])).trans ?_
  refine (if_neg hbound).trans ?_
  refine (if_neg (show ¬ (s.mat.queue.any fun e => e.op == .wait) = true by simpa using hwait)).trans ?_
  refine (if_neg (show ¬ 0 < s.seq.delay by omega)).trans ?_
  rw [hheld]

theorem step_of_fetches {s : State} (h : s.fetches) : step s = s.atBundle.issueNext := by
  rw [← clockStep_of_fetches h]
  exact step_of_idle h.1 h.2.1 h.2.2.1

/-! ## The fetch (R90, R113, R240) -/

/-- `s` with its bundle translated and its line touched, before it issues. -/
def State.fetchedAt (s : State) (pa : Nat) (attr : Attr) (tlb : Tlb) : State :=
  { s.atBundle with tlb := tlb, l2 := s.atBundle.touch (.here pa) attr false }

theorem wordsNow_of_noStore {s : State} {pa : Nat} (h : s.storePending (.here pa) s.seq.pc 16 = false) : s.wordsNow pa = s.wordsAt pa :=
  if_neg (by simp [h])

section
variable {s : State} {pa : Nat} {attr : Attr} {tlb : Tlb}

theorem wordsOf_here_moves {va : VAddr} (h : s.codeMoves va.toNat = true) : s.wordsOf ⟨.here pa, attr, tlb⟩ va = .error (.stall 0x08) := by
  rw [State.wordsOf, h]; rfl

theorem wordsOf_here {va : VAddr} (h : s.codeMoves va.toNat = false) : s.wordsOf ⟨.here pa, attr, tlb⟩ va = .ok (s.wordsNow pa) := by
  rw [State.wordsOf, h]; rfl

theorem step_of_codeMoves (h : s.fetches) (hf : s.fetchAt s.seq.pc = .ok ⟨.here pa, attr, tlb⟩) (hm : s.codeMoves s.seq.pc.toNat = true) :
    step s = .next ((s.fetchedAt pa attr tlb).stallClock 0x08 ((s.fetchedAt pa attr tlb).frozen 0x08)) := by
  obtain ⟨-, -, -, -, -, -, -, -, hwords, -⟩ := id h
  have hwords : s.atBundle.seq.words = [] := hwords
  have hf : s.atBundle.fetchAt s.atBundle.seq.pc = .ok ⟨.here pa, attr, tlb⟩ := hf
  have hw : (s.fetchedAt pa attr tlb).wordsOf ⟨.here pa, attr, tlb⟩ s.atBundle.seq.pc = .error (.stall 0x08) := wordsOf_here_moves hm
  rw [State.fetchedAt] at hw
  rw [step_of_fetches h, State.issueNext, hwords]
  simp only [List.isEmpty_nil, Bool.not_true, Bool.false_eq_true, if_false, hf, hw]
  rfl

/-- The words of a bundle that nothing holds back issue: an open region is no re-entry and owns its vaults, and outside one the limit is not reached. -/
theorem step_of_words (h : s.fetches) (hf : s.fetchAt s.seq.pc = .ok ⟨.here pa, attr, tlb⟩) (hm : s.codeMoves s.seq.pc.toNat = false) :
    step s = (s.fetchedAt pa attr tlb).bundle (s.wordsNow pa) := by
  obtain ⟨-, -, -, -, -, -, -, -, hwords, -, -, -, -, -, -, -, -, -, -, -, hin, hout⟩ := id h
  have hwords : s.atBundle.seq.words = [] := hwords
  have hf : s.atBundle.fetchAt s.atBundle.seq.pc = .ok ⟨.here pa, attr, tlb⟩ := hf
  have hw : (s.fetchedAt pa attr tlb).wordsOf ⟨.here pa, attr, tlb⟩ s.atBundle.seq.pc = .ok (s.wordsNow pa) := wordsOf_here hm
  rw [State.fetchedAt] at hw
  rw [step_of_fetches h, State.issueNext, hwords]
  simp only [List.isEmpty_nil, Bool.not_true, Bool.false_eq_true, if_false, hf, hw]
  split
  next r hr =>
    obtain ⟨ha, ho⟩ := hin r hr
    have howns : ¬ ((r.again || r.counted == 0) && !s.ownsAll (r.rmask ||| r.wmask)) = true := by
      obtain ho | ho := ho
      · simp [ha, Nat.pos_iff_ne_zero.1 ho]
      · simp [ho]
    have hagain : ¬ r.again = true := by simp [ha]
    exact (if_neg (by simp [ha])).trans ((if_neg howns).trans (if_neg hagain))
  next hr =>
    have hlim : ¬ (!s.k.priv && s.seq.perform.isNone && decide (4095 ≤ s.seq.outside)) = true := by
      obtain h | h | h := hout hr
      · simp [h]
      · simp [Option.isNone_eq_false_iff.2 h]
      · simp [h]
    exact if_neg hlim

end

/-! ## The slots (R13, R35) -/

section
variable {s u : State} {ws : List (BitVec 32)} {slots : List (Nat × Slot)}

theorem bundle_of_trap {n : Nat} {c : Trap} (hg : s.gate ws = .trap n c) : s.bundle ws = .next (s.rejected n c) := by
  rw [State.bundle, hg]; rfl

theorem bundle_of_stall {c : Nat} (hg : s.gate ws = .stall c) : s.bundle ws = .next (s.stallClock c (s.frozen c)) := by
  rw [State.bundle, hg]

theorem bundle_of_go (hg : s.gate ws = .go slots) (hu : runSlots slots (s.begun ws slots) = .next u) :
    s.bundle ws = s.finish ws (ws.flatMap fun w => toBytes 4 w.toNat) slots u := by
  have hu : runSlots slots { (s.endStall.noteReads slots).withCrc (ws.flatMap fun w => toBytes 4 w.toNat) with
      seq := { (s.endStall.noteReads slots).seq with bun := { Bundle.start with fin := { BundleEnd.none with record := branchRecorded ws slots } } } }
    = .next u := hu
  rw [State.bundle, hg]
  simp only [hu]

theorem bundle_of_fault {f : Fault} (hg : s.gate ws = .go slots) (hf : runSlots slots (s.begun ws slots) = .fault f) : s.bundle ws = .fault f := by
  have hf : runSlots slots { (s.endStall.noteReads slots).withCrc (ws.flatMap fun w => toBytes 4 w.toNat) with
      seq := { (s.endStall.noteReads slots).seq with bun := { Bundle.start with fin := { BundleEnd.none with record := branchRecorded ws slots } } } }
    = .fault f := hf
  rw [State.bundle, hg]
  simp only [hf]

theorem finish_of_runs (bytes : List Byte) (hr : u.runs) : s.finish ws bytes slots u = .next (u.ended s.seq.pc) := by
  obtain ⟨ht, hs⟩ := hr
  rw [State.finish, ht, hs]; rfl

theorem finish_of_trapped (bytes : List Byte) {c : Trap} (ht : u.seq.bun.trapped = some c) :
    s.finish ws bytes slots u = .next (s.rejected u.seq.bun.slot c) := by
  rw [State.finish, ht]; rfl

/-- The slots that a gate lets through are those that the words decode to. -/
theorem slots_of_gate (hg : s.gate ws = .go slots) {l : List (Option (Except DecodeErr Slot))}
    (hd : decodeBundle ((ws[0]?).getD 0).toNat ((ws[1]?).getD 0).toNat ((ws[2]?).getD 0).toNat ((ws[3]?).getD 0).toNat = .slots l) :
    slots = goodSlots l 0 := by
  simp only [State.gate, hd] at hg
  split at hg
  next => cases hg
  next =>
    split at hg
    next => cases hg
    next =>
      split at hg
      next => cases hg
      next =>
        split at hg
        next => cases hg
        next =>
          split at hg
          next => cases hg
          next => cases hg; rfl

end

/-! ## A bundle of one instruction (R14) -/

/-- The slots of an instruction in slot 0 and NOPs after it. -/
def aloneSlots (i : Instr) : List (Nat × Slot) := [(0, ⟨0, false, i⟩), (1, ⟨0, false, .nop⟩), (2, ⟨0, false, .nop⟩), (3, ⟨0, false, .nop⟩)]

theorem goodSlots_of_alone {w : Nat} {i : Instr} (hm : fMaj w ≠ 0x3F) (hd : decodeSlot w .none = .ok ⟨0, false, i⟩) :
    ∃ l, decodeBundle w 0 0 0 = .slots l ∧ goodSlots l 0 = aloneSlots i := by
  refine ⟨_, if_neg hm, ?_⟩
  rw [hd]; rfl

theorem runSlots_cons_of_runs {s u : State} {n : Nat} {sl : Slot} (l : List (Nat × Slot))
    (hu : ({ s with seq := { s.seq with bun := { s.seq.bun with slot := n } } } : State).runSlot sl = .next u) (hr : u.runs) :
    runSlots ((n, sl) :: l) s = runSlots l u := by
  obtain ⟨ht, hs⟩ := hr
  rw [runSlots]
  simp only [hu, ht, hs, Option.isSome_none, Bool.false_eq_true, if_false]

theorem runSlots_cons_of_fault {s : State} {n : Nat} {sl : Slot} (l : List (Nat × Slot)) {f : Fault}
    (hf : ({ s with seq := { s.seq with bun := { s.seq.bun with slot := n } } } : State).runSlot sl = .fault f) :
    runSlots ((n, sl) :: l) s = .fault f := by
  rw [runSlots]
  simp only [hf]

/-- NOP leaves the state of its slot. -/
theorem runSlots_nop {u : State} (n : Nat) (l : List (Nat × Slot)) (hr : u.runs) : runSlots ((n, ⟨0, false, .nop⟩) :: l) u =
    runSlots l { u with seq := { u.seq with bun := { u.seq.bun with slot := n } } } :=
  runSlots_cons_of_runs l rfl hr

theorem runSlots_alone {s u : State} {i : Instr} (h0 : s.seq.bun.slot = 0) (hu : exec i s = .next u) (hr : u.runs) :
    runSlots (aloneSlots i) s = .next { u with seq := { u.seq with bun := { u.seq.bun with slot := 3 } } } := by
  have hs : ({ s with seq := { s.seq with bun := { s.seq.bun with slot := 0 } } } : State) = s := by rw [← h0]
  rw [aloneSlots, runSlots_cons_of_runs _ (by rw [hs]; exact hu) hr, runSlots_nop 1 _ hr]
  exact (runSlots_nop 2 _ hr).trans (runSlots_nop 3 _ hr)

theorem runSlots_alone_fault {s : State} {i : Instr} {f : Fault} (h0 : s.seq.bun.slot = 0) (hf : exec i s = .fault f) :
    runSlots (aloneSlots i) s = .fault f := by
  have hs : ({ s with seq := { s.seq with bun := { s.seq.bun with slot := 0 } } } : State) = s := by rw [← h0]
  exact runSlots_cons_of_fault _ (by rw [hs]; exact hf)

end Sys2Proof.Machine

namespace Sys2Proof.Proofs
open Sys2Proof Sys2Proof.Machine

/-- Settles O58: with nothing else to do the clock fetches, and what the gate says of the words decides; an act or a due step comes before. -/
theorem stepRunsBundle : Obligations.StepRunsBundle := by
  refine ⟨fun s pa attr tlb => ?_, fun s e l hi he => step_of_nextAct (nextAct_of_cons hi he), fun s e => step_of_forced⟩
  intro s0 ws h hf
  refine ⟨wordsNow_of_noStore, step_of_codeMoves h hf, fun hm => ?_⟩
  have hstep : step s = s0.bundle ws := step_of_words h hf hm
  refine ⟨fun slots hg => ⟨fun u hu hr => ?_, fun u c hu ht => ?_, fun f hu => hstep.trans (bundle_of_fault hg hu)⟩,
    fun n c hg => hstep.trans (bundle_of_trap hg), fun c hg => hstep.trans (bundle_of_stall hg), fun w i slots hw hmaj hd hg => ?_⟩
  · exact hstep.trans ((bundle_of_go hg hu).trans (finish_of_runs _ hr))
  · exact hstep.trans ((bundle_of_go hg hu).trans (finish_of_trapped _ ht))
  · obtain ⟨l, hl, hgood⟩ := goodSlots_of_alone hmaj hd
    obtain rfl : slots = aloneSlots i := (slots_of_gate hg (by rw [hw]; exact hl)).trans hgood
    refine ⟨rfl, fun u hu hr => ?_, fun f hu => hstep.trans (bundle_of_fault hg (runSlots_alone_fault rfl hu))⟩
    exact hstep.trans ((bundle_of_go hg (runSlots_alone rfl hu hr)).trans (finish_of_runs _ hr))

end Sys2Proof.Proofs
end

section
/-! # O59: words written out from the spec -/

namespace Sys2Proof.Proofs
open Sys2Proof Sys2Proof.Machine

/-- Settles O59: the decoder runs on each word. -/
theorem wordsDecode : Obligations.WordsDecode :=
  ⟨rfl, rfl, rfl, rfl, rfl, rfl, rfl, rfl, rfl, rfl, rfl, rfl, rfl, rfl, rfl, rfl, rfl⟩

end Sys2Proof.Proofs
end

section
/-! # O57: every step keeps the machine invariant

A function that writes none of the eight parts that `State.Inv` speaks of keeps it by `State.Inv.frame`; one that branches, folds or calls another
has a lemma of its own, named after it. The lemmas stand in the order of the model's files. -/

namespace Sys2Proof.Machine

/-! ## Frames -/

/-- The parts of the state that the invariant speaks of. -/
abbrev State.core (s : State) : Memory × Memory × List DWord × BitVec 16 × List (BitVec 32) × BitVec 32 × BitVec 16 × BitVec 16 :=
  (s.hbm, s.sp, s.regs.s, s.regs.p, s.regs.y, s.k.status, s.k.cause, s.k.mring)

theorem State.Inv.frame {s t : State} (h : s.Inv) (e : t.core = s.core) : t.Inv := by
  simp only [State.core, Prod.mk.injEq] at e
  exact h.of_eq e

theorem State.Inv.ite {s t : State} {c : Prop} [Decidable c] (hs : s.Inv) (ht : t.Inv) : (if c then s else t).Inv := by
  split
  · exact hs
  · exact ht

theorem State.Inv.withHbm {s : State} (h : s.Inv) {m : Memory} (wf : Memory.wf m = true) : State.Inv { s with hbm := m } :=
  ⟨wf, h.sp, h.s0, h.p0, h.pol, h.status, h.cause, h.mring⟩

theorem State.Inv.withSp {s : State} (h : s.Inv) {m : Memory} (wf : Memory.wf m = true) : State.Inv { s with sp := m } :=
  ⟨h.hbm, wf, h.s0, h.p0, h.pol, h.status, h.cause, h.mring⟩

theorem State.Inv.withK {s : State} (h : s.Inv) {k : KRegs} (e : k.status = s.k.status ∧ k.cause = s.k.cause ∧ k.mring = s.k.mring) :
    State.Inv { s with k := k } := h.of_eq ⟨rfl, rfl, rfl, rfl, rfl, e⟩

/-- R50: the registers of a reset node. -/
theorem reset_inv : State.reset.Inv where
  hbm := rfl
  sp := rfl
  s0 := rfl
  p0 := (by decide : (1#16).getLsbD 0 = true)
  pol := fun y hy => by rw [List.eq_of_mem_replicate hy]; exact BitVec.zero_and
  status := BitVec.zero_and
  cause := BitVec.zero_and
  mring := BitVec.zero_and

/-- Every state that an answer gives meets the invariant. -/
structure KeepsInv (o : Host.Outcome State Fault Refusal) : Prop where
  inv : ∀ t, o = .next t → t.Inv

theorem KeepsInv.next {t : State} (h : t.Inv) : KeepsInv (.next t) := ⟨fun _ e => Host.Outcome.next.inj e ▸ h⟩

theorem KeepsInv.fault {f : Fault} : KeepsInv (.fault f) := ⟨fun _ e => nomatch e⟩

theorem KeepsInv.ite {o u : Host.Outcome State Fault Refusal} {c : Prop} [Decidable c] (ho : KeepsInv o) (hu : KeepsInv u) :
    KeepsInv (if c then o else u) := by
  split
  · exact ho
  · exact hu

theorem State.Inv.keeps {s : State} (h : s.Inv) (i : Issue) : KeepsInv (s.settle i) := ⟨fun _ => h.settle i⟩

section
variable {s : State}

/-! ## Regions, causes and links (Machine/Ops) -/

theorem State.Inv.openRegion (h : s.Inv) (o : Opening) (a : VAddr) : (s.openRegion o a).Inv := by
  unfold State.openRegion
  split <;> exact h.frame (by rfl)

theorem State.Inv.dataLeaves (h : s.Inv) (job : BitVec 16) (r : Option Nat) (dims : BitVec 14) : (s.dataLeaves job r dims).Inv :=
  .ite h (.ite (h.frame (by rfl)) (.ite (h.frame (by rfl)) (h.frame (by rfl))))

theorem State.Inv.traceBranches (h : s.Inv) : s.traceBranches.Inv := State.Inv.foldl (fun _ _ hs => hs.traceAt ..) _ (h.frame (by rfl))

theorem State.Inv.release (h : s.Inv) (l : Option (Nat × Nat)) : (s.release l).Inv := by
  cases l with
  | none => exact h
  | some x => exact .ite (h.frame (by rfl)) h

theorem State.Inv.sendControl (h : s.Inv) (p : Packet) (held : Option (Nat × Nat)) : (s.sendControl p held).Inv := by
  unfold State.sendControl
  dsimp only
  split
  · exact h.hop ..
  · exact h.hop ..
  · exact h.release _

theorem State.Inv.pended (h : s.Inv) (t : Trap) (i : DWord) : (s.pended t i).Inv := .ite (h.frame (by rfl)) h

theorem State.Inv.strike (h : s.Inv) (t : Trap) : (s.strike t).Inv := .ite (h.pended ..) (h.takeTrap t)

theorem State.Inv.faultAt (h : s.Inv) (t : Trap) (i : DWord) (a : VAddr) : (s.faultAt t i a).Inv :=
  State.Inv.enter (.ite (h.frame (by rfl)) (.ite (State.Inv.errorRecord (h.frame (by rfl)) ..) (h.frame (by rfl)))) ..

/-! ## The end of a bundle (Machine/Issue) -/

theorem State.Inv.place (h : s.Inv) (w : Wait) : (s.place w).Inv := by
  unfold State.place
  split <;> (repeat' split) <;> exact h.frame (by rfl)

theorem State.Inv.landChecked (h : s.Inv) (f : InFlight) {t : State} (e : s.landChecked f = .ok t) : t.Inv := by
  unfold State.landChecked at e
  dsimp only at e
  split at e
  · split at e
    · cases e
    · cases e; exact State.Inv.land (h.frame (by rfl)) f
  · cases e; exact h.land f

theorem State.Inv.takeDue (h : s.Inv) (d : Due) {t : State} (e : s.takeDue d = .ok t) : t.Inv := by
  cases d with
  | land f => exact h.landChecked f e
  | place w => cases e; exact h.place w

theorem State.Inv.takeAll (h : s.Inv) (l : List Due) {t : State} (e : takeAll s l = .ok t) : t.Inv := by
  induction l generalizing s with
  | nil => cases e; exact h
  | cons d l ih =>
    rw [Machine.takeAll] at e
    cases hd : s.takeDue d with
    | error x => rw [hd] at e; cases e
    | ok u => rw [hd] at e; exact ih (h.takeDue d hd) e

theorem State.Inv.landings (h : s.Inv) {t : State} (e : s.landings = .ok t) : t.Inv := by
  unfold State.landings at e
  dsimp only at e
  split at e
  · cases e
  · rename_i u hu
    cases e
    exact (State.Inv.takeAll (h.frame (by rfl)) _ hu).setStatus _

theorem State.Inv.advance (h : s.Inv) (a : VAddr) (f : BundleEnd) : (s.advance a f).Inv := h.frame (by rfl)

theorem State.Inv.enterAt (h : s.Inv) (c : Cause) (eva : VAddr) (i : DWord) (a : VAddr) : (s.enterAt c eva i a).Inv := h.enter ..

theorem State.Inv.tagOpened (h : s.Inv) : s.tagOpened.Inv := by
  unfold State.tagOpened
  split
  · exact .ite h (h.frame (by rfl))
  · exact h

theorem State.Inv.boundary (h : s.Inv) (a : VAddr) (y : Bool) : (s.boundary a y).Inv := by
  unfold State.boundary
  split
  · exact h.enterAt ..
  · refine .ite h ?_
    split
    · exact h.faultAt ..
    · exact State.Inv.enterAt (h.frame (by rfl)) ..
    · refine .ite (State.Inv.enterAt (h.frame (by rfl)) ..) ?_
      split
      · exact State.Inv.enterAt (h.frame (by rfl)) ..
      · exact h

theorem State.Inv.counted (h : s.Inv) : s.counted.Inv := h.frame (by rfl)

theorem State.Inv.endReturn (h : s.Inv) : s.endReturn.Inv := by
  unfold State.endReturn
  split
  · exact h.takeTrap _
  · rename_i e; exact (State.Inv.landings (h.frame (by rfl)) e).frame (by rfl)

/-- R36, R107, R110, R129: what comes after the results of the bundle have landed. -/
theorem State.Inv.endBundle (h : s.Inv) (a : VAddr) : (s.endBundle a).Inv := by
  unfold State.endBundle
  extract_lets +onlyGivenNames f _ s0 s1 _ s2
  refine .ite h.endReturn ?_
  have h1 : s1.Inv := .ite (h.frame (by rfl)) (h.frame (by rfl))
  have h2 : s2.Inv := .ite (h1.frame (by rfl)) h1
  split
  · exact h2.takeTrap _
  · rename_i u hu
    extract_lets +onlyGivenNames _ s3 s4
    have hui : u.Inv := h2.counted.landings hu
    have h4 : s4.Inv := .ite (hui.frame (by rfl)) (hui.frame (by rfl))
    split
    · rename_i o _
      refine .ite (State.Inv.boundary (State.Inv.openRegion (h4.advance ..).traceBranches ..) ..) (State.Inv.boundary ?_ ..)
      have h5 := ((h4.openRegion o a).advance a f).traceBranches
      exact .ite (h5.frame (by rfl)) h5
    · have h5 := (h4.advance a f).traceBranches
      exact .ite (State.Inv.traceBranches (h4.frame (by rfl))) (.ite (h5.boundary ..) (.ite (h5.enterAt ..) h5))

theorem State.Inv.emptyBundle (h : s.Inv) : s.emptyBundle.Inv := by
  unfold State.emptyBundle
  split
  · exact h.takeTrap _
  · rename_i u hu
    have hui : u.Inv := h.counted.landings hu
    exact .ite (State.Inv.traceBranches (hui.frame (by rfl))) (hui.frame (by rfl))

theorem State.Inv.noteReads (h : s.Inv) (l : List (Nat × Slot)) : (s.noteReads l).Inv := by
  unfold State.noteReads
  split
  · exact h
  · exact h.frame (by rfl)

theorem State.Inv.tick (h : s.Inv) (b : Bool) : (s.tick b).Inv := by
  unfold State.tick
  dsimp only
  split <;> exact h.frame (by rfl)

theorem State.Inv.stallClock (h : s.Inv) (c : Nat) (b : Bool) : (s.stallClock c b).Inv := by
  unfold State.stallClock
  refine State.Inv.tick ?_ b
  split
  · split
    · exact h.frame (by rfl)
    · exact (h.trace ..).frame (by rfl)
  · exact h.frame (by rfl)

theorem State.Inv.endStall (h : s.Inv) : s.endStall.Inv := by
  unfold State.endStall
  split
  · exact h
  · exact .ite h (State.Inv.trace (h.frame (by rfl)) ..)

end
end Sys2Proof.Machine
end

section
/-! # O57, continued: memory, packets and the matrix unit -/

namespace Sys2Proof.Machine

section
variable {s : State}

theorem State.Inv.fst {α : Type} {p : State × α} (h : p.1.Inv) {t : State} {x : α} (e : p = (t, x)) : t.Inv := by
  rw [e] at h
  exact h

/-! ## Memory and engine faults (Machine/Access) -/

theorem State.Inv.writeHome (h : s.Inv) (l : Loc) (a : Attr) (bs : List Byte) (rel : Option (BitVec 14 × Nat)) : (s.writeHome l a bs rel).Inv := by
  cases l with
  | here pa => exact (h.writeHbm pa bs).frame (by rfl)
  | spad b => exact (h.withSp (Memory.wf_write b bs h.sp)).frame (by rfl)
  | _ => exact h

theorem State.Inv.atomicHome (h : s.Inv) (l : Loc) (a : Attr) (op : AmoOp) (w : Bool) (v v2 : Nat) (rel : Option (BitVec 14 × Nat)) :
    (s.atomicHome l a op w v v2 rel).1.Inv := by
  unfold State.atomicHome
  dsimp only
  split
  · exact h.writeHome ..
  · exact h.frame (by rfl)

theorem State.Inv.engineFault (h : s.Inv) (job : BitVec 16) (u : Nat) (eva : VAddr) : (s.engineFault job u eva).Inv :=
  ((h.errorRecord 3 job (causeWord 3 Cause.engineError.code) ((s.queueOf job).getD 0) u 0 0 eva (BitVec.ofNat 64 u) true 0 none).frame (by rfl))

theorem State.Inv.droppedEntry (h : s.Inv) (job : BitVec 16) (c : Cause) (eva : VAddr) (i : DWord) : (s.droppedEntry job c eva i).Inv :=
  h.errorRecord ..

theorem State.Inv.asOf (h : s.Inv) (slot seq : Nat) : (s.asOf slot seq).Inv := h.frame (by rfl)

theorem State.Inv.faultOf (h : s.Inv) (slot seq : Nat) (t : Trap) : (s.faultOf slot seq t).Inv :=
  .ite (h.pended ..) ((h.asOf slot seq).endStall.takeTrap t)

/-! ## What other nodes ask for (Machine/Net) -/

theorem State.Inv.writeRun (h : s.Inv) (rel : Option (BitVec 14 × Nat)) (l : List (Loc × Attr × List Byte)) : (s.writeRun rel l).Inv :=
  State.Inv.foldl (fun _ _ hs => hs.writeHome ..) l h

theorem State.Inv.cacheHome (h : s.Inv) (job : BitVec 16) (op : CacheOp) (line : Nat) (a : Attr) : (s.cacheHome job op line a).Inv :=
  .ite h (h.frame (by rfl))

theorem State.Inv.performAt (h : s.Inv) (p : Packet) : (s.performAt p).1.Inv := by
  unfold State.performAt
  extract_lets +onlyGivenNames w view s1
  have h1 : s1.Inv := h.frame (by rfl)
  split
  · split
    · exact h1.cacheHome ..
    · split
      · exact h1.frame (by rfl)
      · exact h1
  · split
    · split
      · exact h1
      · exact State.Inv.writeRun (h1.frame (by rfl)) ..
    · split
      · split <;> exact h1
      · rename_i l a tlb _
        have h2 : State.Inv { s1 with tlb := tlb } := h1.frame (by rfl)
        split
        · exact h2
        · split
          · exact h2.frame (by rfl)
          · exact h2.writeHome ..
          · split
            · split <;> exact h2
            · exact h2.atomicHome ..

theorem State.Inv.serialJoin (h : s.Inv) (p : Packet) : (s.serialJoin p).Inv := h.frame (by rfl)

theorem State.Inv.sendSaved (h : s.Inv) (q : Packet) : (s.sendSaved q).Inv := .ite (h.frame (by rfl)) (h.sendControl ..)

theorem State.Inv.performOne (h : s.Inv) (p : Packet) : (s.performOne p).1.Inv := by
  unfold State.performOne
  split
  · exact h.serialJoin p
  · split
    rename_i s1 resp st e
    have h1 : s1.Inv := (h.performAt p).fst e
    extract_lets r
    split
    · exact h1
    · exact State.Inv.sendSaved (h1.frame (by rfl)) _

theorem State.Inv.turn (h : s.Inv) (job : BitVec 16) (src : BitVec 14) (flow n : Nat) : (s.turn job src flow n).Inv := by
  induction n generalizing s with
  | zero => exact h
  | succ n ih =>
    unfold State.turn
    refine .ite (ih (h.frame (by rfl))) ?_
    split
    · exact .ite h (h.frame (by rfl))
    · split
      · exact h
      · extract_lets s1
        split
        rename_i s2 fin e
        have h2 : s2.Inv := (State.Inv.performOne (h.frame (by rfl)) _).fst e
        exact ih (.ite (h2.frame (by rfl)) h2)

theorem State.Inv.flowArrive (h : s.Inv) (d : Nat) (p : Packet) : (s.flowArrive d p).Inv := by
  unfold State.flowArrive
  refine .ite (h.frame (by rfl)) ?_
  extract_lets r s1 off again
  have h1 : s1.Inv := h.frame (by rfl)
  have hagain : again.Inv := by
    unfold again
    split
    · exact h1.sendSaved _
    · exact h1
  refine .ite hagain (.ite h1 (.ite ?_ (.ite ?_ (.ite hagain (h1.frame (by rfl))))))
  · split
    rename_i s2 fin e
    have h2 : s2.Inv := (h1.performOne p).fst e
    exact State.Inv.turn (.ite (h2.frame (by rfl)) h2) ..
  · refine .ite ?_ (.ite h1 (.ite (h1.frame (by rfl)) h1))
    split
    rename_i s2 fin e
    have h2 : s2.Inv := (h1.performOne p).fst e
    exact .ite (h2.frame (by rfl)) h2

theorem State.Inv.writeOwn (h : s.Inv) (job : BitVec 16) (va : VAddr) (data : List Byte) (view : State → VAddr → Attr → Attr)
    (rel : Option (BitVec 14 × Nat)) : (s.writeOwn job va data view rel).Inv := by
  refine State.Inv.foldl (fun u pc hu => ?_) _ h
  split
  · exact State.Inv.writeHome (hu.frame (by rfl)) ..
  · exact hu.droppedEntry ..

theorem State.Inv.serialOwn (h : s.Inv) (x : Serial) : (s.serialOwn x).Inv := State.Inv.writeOwn (h.frame (by rfl)) ..

theorem State.Inv.serialRun (h : s.Inv) (n : Nat) : (s.serialRun n).Inv := by
  induction n generalizing s with
  | zero => exact h
  | succ n ih =>
    unfold State.serialRun
    split
    · exact h
    · rename_i x _
      refine .ite (ih ((h.serialOwn x).frame (by rfl))) ?_
      extract_lets total
      split
      · split
        · exact ih (State.Inv.dataLeaves (h.frame (by rfl)) ..)
        · exact h
      · exact .ite (.ite (ih (h.frame (by rfl))) (ih (State.Inv.turn (h.frame (by rfl)) ..))) h

/-! ## The matrix unit and scatters (Machine/Matrix, Machine/VecX) -/

theorem State.Inv.keeps_matStop (h : s.Inv) (e : MatEntry) (m : MatStop) : KeepsInv (s.matStop e m) := by
  unfold State.matStop
  split
  · exact (h.asOf ..).keeps _
  · exact ((h.applyAll _).asOf ..).keeps _

theorem State.Inv.keeps_macStop (h : s.Inv) (e : MatEntry) (st : MatStop) (m : Marks) : KeepsInv (s.macStop e st m) := (h.applyAll _).keeps_matStop e st

theorem State.Inv.chunked (h : s.Inv) (n : Nat) : (s.chunked n).Inv := h.frame (by rfl)

theorem State.Inv.keeps_macChunks (h : s.Inv) (e : MatEntry) (mul : Bool) (tile : Nat) (a : List DWord) (av : List VReg) (b : List DWord) (k n : Nat) :
    KeepsInv (s.macChunks e mul tile a av b k n) := by
  induction n generalizing s with
  | zero => exact .next (.ite (h.frame (by rfl)) h)
  | succ n ih =>
    unfold State.macChunks
    split
    · exact .next (h.frame (by rfl))
    · split
      · exact h.keeps_macStop ..
      · exact ih ((h.applyAll _).chunked 1)

theorem State.Inv.keeps_mmacExecute (h : s.Inv) : KeepsInv (execMmacExecute s) := by
  unfold execMmacExecute
  split
  · split
    · split
      · exact h.keeps_macChunks ..
      · split
        · exact h.keeps_macStop ..
        · exact .next (h.applyAll _)
    · exact .next h
  · exact .next h

theorem State.Inv.keeps_manchExecute (h : s.Inv) : KeepsInv (execManchExecute s) := by
  unfold execManchExecute
  split
  · split
    · split
      · exact .next (h.frame (by rfl))
      · split
        · exact h.keeps_matStop ..
        · exact .next (h.applyAll _)
        · exact .next (h.applyAll _)
    · exact .next h
  · exact .next h

theorem State.Inv.keeps_mzeroExecute (h : s.Inv) : KeepsInv (execMzeroExecute s) := by
  unfold execMzeroExecute
  split
  · split
    · exact .next (h.frame (by rfl))
    · exact .next h
  · exact .next h

theorem State.Inv.keeps_mloadcExecute (h : s.Inv) : KeepsInv (execMloadcExecute s) := by
  unfold execMloadcExecute
  split
  · split
    · exact .next (h.applyAll _)
    · exact .next h
  · exact .next h

theorem State.Inv.keeps_mdrainExecute (h : s.Inv) : KeepsInv (execMdrainExecute s) := by
  unfold execMdrainExecute
  split
  · split
    · split
      · exact .next h
      · exact .next (h.applyAll _)
    · exact .next h
  · exact .next h

end
end Sys2Proof.Machine
end

section
/-! # O57, continued: scatters, drains, copies and exchanges -/

namespace Sys2Proof.Machine

/-! ## Scatters (Machine/VecX) -/

theorem wf_scatterLanes (s : State) (w : Nat) {m : Memory} (h : Memory.wf m = true) (l : List (Bool × Int × Nat)) :
    Memory.wf (s.scatterLanes w m l).1 = true := by
  induction l generalizing m with
  | nil => exact h
  | cons x l ih =>
    obtain ⟨b, a, v⟩ := x
    cases b with
    | false => exact ih h
    | true =>
      unfold State.scatterLanes
      split
      · exact h
      · exact ih (Memory.wf_writeLE _ _ _ h)

section
variable {s : State}

theorem State.Inv.scatterTo (h : s.Inv) (w : Wait) (b : Nat) (data idx : VReg) (m : Mask) (n lo hi : Nat) {t : State}
    (e : s.scatterTo w b data idx m n lo hi = .ok t ∨ s.scatterTo w b data idx m n lo hi = .error t) : t.Inv := by
  have hwf := wf_scatterLanes s n h.sp (scatterWrites b n lo hi data idx m)
  unfold State.scatterTo at e
  split at e
  · rename_i sp hsp
    rw [hsp] at hwf
    obtain e | e := e <;> cases e
    exact h.withSp hwf
  · rename_i sp c hsp
    rw [hsp] at hwf
    obtain e | e := e <;> cases e
    exact (State.Inv.asOf (h.withSp hwf) _ _).takeTrap _

theorem State.Inv.keeps_scatterComplete (h : s.Inv) : KeepsInv (execScatterComplete s) := by
  unfold execScatterComplete
  split
  · split
    · split
      · exact .next h
      · split
        · rename_i e; exact .next ((h.scatterTo _ _ _ _ _ _ _ _ (.inl e)).arrive _ _ _)
        · rename_i e; exact .next (h.scatterTo _ _ _ _ _ _ _ _ (.inr e))
    · exact .next h
  · exact .next h

/-! ## The store buffer drains (Machine/Memory, Machine/Drain) -/

theorem State.Inv.cacheLine (h : s.Inv) (op : CacheOp) (l : Loc) (a : Attr) : (s.cacheLine op l a).Inv := by
  unfold State.cacheLine
  split
  · exact h.frame (by rfl)
  · exact h

theorem State.Inv.cacheOn (h : s.Inv) (op : CacheOp) (l : List (Loc × Attr)) : (s.cacheOn op l).Inv := State.Inv.foldl (fun _ _ hs => hs.cacheLine ..) l h

theorem State.Inv.entryGone (h : s.Inv) (id : Nat) : (s.entryGone id).Inv := h.frame (by rfl)

theorem State.Inv.dropEntry (h : s.Inv) (e : BufEntry) (c : Cause) (va : VAddr) (i : DWord) : (s.dropEntry e c va i).Inv := (h.entryGone e.id).droppedEntry ..

theorem State.Inv.sendPart (h : s.Inv) (e : BufEntry) (kind : Nat) (ps : List (BitVec 14 × RouteInfo × List Byte)) : (s.sendPart e kind ps).Inv := by
  unfold State.sendPart
  split
  · exact .ite (h.frame (by rfl)) (h.frame (by rfl))
  · rename_i n r pl _
    refine .ite (h.dropEntry ..) (.ite ?_ h)
    split
    rename_i f tag _
    have hf : State.Inv { s with fab := f } := h.frame (by rfl)
    exact (hf.dataLeaves ..).frame (by rfl)

theorem State.Inv.firstPart (h : s.Inv) (e : BufEntry) {f : State → State} (hf : (f s).Inv) : (s.firstPart e f).1.Inv := by
  unfold State.firstPart
  split
  · exact hf.frame (by rfl)
  · exact h

theorem State.Inv.performEntry (h : s.Inv) (e : BufEntry) : (s.performEntry e).Inv := by
  unfold State.performEntry
  extract_lets k rel
  split
  · split
    · exact .ite (h.dropEntry ..) ((h.writeHome ..).entryGone _)
    · exact h.sendPart ..
  · split
    · exact .ite (h.dropEntry ..) ((h.atomicHome ..).entryGone _)
    · exact h.sendPart ..
  · split
    rename_i e1
    exact ((h.firstPart e (h.writeOwn ..)).fst e1).sendPart ..
  · exact .ite (State.Inv.serialRun (h.frame (by rfl)) _) (h.sendPart ..)
  · exact .ite (.ite ((h.writeHome ..).entryGone _) ((h.entryGone _).engineFault ..)) (h.sendPart ..)
  · exact h.entryGone _
  · split
    rename_i e1
    exact ((h.firstPart e (h.cacheOn ..)).fst e1).sendPart ..
  · exact h.entryGone _
  · exact h.entryGone _
  · exact h.frame (by rfl)

theorem State.Inv.keeps_bufferEntryDrain (h : s.Inv) : KeepsInv (execBufferEntryDrain s) := by
  unfold execBufferEntryDrain
  split
  · exact .next (.ite (h.performEntry _) h)
  · exact .next h

/-! ## Results that arrive -/

theorem State.Inv.traceArrival (h : s.Inv) (w : Wait) (v : Arrived) : (s.traceArrival w v).Inv := by
  refine .ite ?_ h
  split
  · exact h.trace ..
  · exact (h.trace ..).traceRaw _
  · exact h

theorem State.Inv.arriveTraced (h : s.Inv) (w : Wait) (v : Arrived) (f : Flags) : (s.arriveTraced w v f).Inv := (h.arrive ..).traceArrival ..

theorem State.Inv.performLoad (h : s.Inv) (w : Wait) (va : VAddr) (l : Loc) (a : Attr) (t : Ty) (pol : BitVec 32) (tag : Option Nat) :
    (s.performLoad w va l a t pol tag).Inv := by
  unfold State.performLoad
  extract_lets n
  split
  · exact h
  · exact .ite h (.ite (h.faultOf ..) (State.Inv.arriveTraced (h.frame (by rfl)) ..))
  · exact .ite h (h.frame (by rfl))

theorem State.Inv.gatherArrive (h : s.Inv) (w : Wait) (n : Nat) (l : List (Bool × Int)) (lanes : VReg) : (s.gatherArrive w n l lanes).Inv := by
  unfold State.gatherArrive
  split
  · exact h.faultOf ..
  · exact State.Inv.arriveTraced (h.frame (by rfl)) ..

theorem State.Inv.arrival (h : s.Inv) (w : Wait) : (s.arrival w).Inv := by
  unfold State.arrival
  split
  · exact h.performLoad ..
  · exact h.arriveTraced ..
  · exact h.arriveTraced ..
  · exact h.arriveTraced ..
  · exact .ite h (h.gatherArrive ..)
  · exact h.gatherArrive ..
  · exact h.arrive ..
  all_goals exact h

theorem State.Inv.keeps_resultArrival (h : s.Inv) : KeepsInv (execResultArrival s) := by
  unfold execResultArrival
  split
  · exact .next (h.arrival _)
  · exact .next h

theorem State.Inv.walkDone (h : s.Inv) (r : WalkReq) {t : State} (e : s.walkDone r = .ok t) : t.Inv := by
  unfold State.walkDone at e
  split at e <;> cases e
  exact h.frame (by rfl)

theorem State.Inv.keeps_translationWalkComplete (h : s.Inv) : KeepsInv (execTranslationWalkComplete s) := by
  unfold execTranslationWalkComplete
  split
  · rename_i e; exact .next (h.walkDone _ e)
  · split
    · exact h.keeps _
    · exact h.keeps _
    · exact .next h

/-! ## Copies (Machine/Copy) -/

theorem State.Inv.setCopy (h : s.Inv) (c : CopyCmd) : (s.setCopy c).Inv := h.frame (by rfl)

theorem State.Inv.copyGone (h : s.Inv) (id : Nat) : (s.copyGone id).Inv := h.frame (by rfl)

theorem State.Inv.withLeaves (h : s.Inv) (c : CopyCmd) : (s.withLeaves c).1.Inv := h.frame (by rfl)

theorem State.Inv.keeps_copyAdmission (h : s.Inv) : KeepsInv (execCopyAdmission s) := by
  unfold execCopyAdmission
  split
  · exact .next h
  · split
    · exact .next h
    · split
      · exact .next ((h.withLeaves _).setCopy _)
      · exact .next (h.setCopy _)
      · exact .fault
      · split
        · split
          · exact .next ((h.copyGone _).faultOf ..)
          · exact .next ((h.copyGone _).engineFault ..)
        · exact .next ((h.copyGone _).engineFault ..)

theorem State.Inv.touchParts (h : s.Inv) (l : List (Nat × Nat × Option Xlat)) : (s.touchParts l).Inv := by
  refine State.Inv.foldl (fun u x hu => ?_) l h
  split
  · exact hu.frame (by rfl)
  · exact hu

theorem State.Inv.askWords (h : s.Inv) {c c1 : CopyCmd} {dst : Nat} {far : List (Nat × Nat × Option Xlat)} {l : List Loc} {t : State}
    (e : s.askWords c dst far l = some (t, c1)) : t.Inv := by
  induction l generalizing s c with
  | nil => cases e; exact h
  | cons x l ih =>
    unfold State.askWords at e
    split at e
    · exact ih (h.frame (by rfl)) e
    · cases e

theorem State.Inv.writePiece (h : s.Inv) {c c1 : CopyCmd} {dst : Nat} {bs : List Byte} {t : State} (e : s.writePiece c dst bs = .done t c1) : t.Inv := by
  unfold State.writePiece at e
  split at e
  · cases e
  · split at e
    · cases e; exact h.writeHome ..
    · split at e <;> cases e
      exact h.frame (by rfl)

theorem State.Inv.movePiece (h : s.Inv) {c c1 : CopyCmd} {p : Piece} {t : State} (e : s.movePiece c p = .done t c1) : t.Inv := by
  unfold State.movePiece at e
  split at e
  · cases e
  · split at e
    · cases e
    · extract_lets next at e
      split at e
      · split at e <;> cases e
        rename_i ha
        exact State.Inv.askWords (h.touchParts _) ha
      · split at e
        · rename_i hw
          cases e
          exact State.Inv.writePiece (h.touchParts _) hw
        · exact State.Inv.writePiece (h.touchParts _) e

theorem State.Inv.writeData (h : s.Inv) (c : CopyCmd) (l : List Nat) : (s.writeData c l).1.Inv := by
  induction l generalizing s c with
  | nil => exact h
  | cons w l ih =>
    unfold State.writeData
    extract_lets ds
    split
    · split
      · rename_i e; exact ih (h.writePiece e) _
      · exact h
      · exact h
    · exact ih h c

theorem State.Inv.movePieces (h : s.Inv) (c : CopyCmd) (n : Nat) (l : List Piece) : (s.movePieces c n l).1.Inv := by
  induction n generalizing s c l with
  | zero => exact h
  | succ n ih =>
    cases l with
    | nil => exact h
    | cons p l =>
      unfold State.movePieces
      split
      · rename_i e; exact ih (h.movePiece e) _ _
      · exact h
      · exact h

theorem State.Inv.copySignals (h : s.Inv) (c : CopyCmd) : (s.copySignals c).Inv := by
  unfold State.copySignals
  extract_lets s1
  have h1 : s1.Inv := .ite (h.writeHome ..) h
  exact .ite (.ite ((h1.writeHome ..).copyGone _) (h1.frame (by rfl))) (h1.copyGone _)

theorem State.Inv.movePart (h : s.Inv) (c : CopyCmd) (n : Nat) (ps : List Piece) : (s.movePart c n ps).1.Inv := by
  have hd := h.writeData c (c.data.map (·.1))
  unfold State.movePart
  split
  · rename_i s1 c1 e
    have h1 : s1.Inv := hd.fst e
    have h2 := h1.movePieces c1 n ps
    exact .ite h2 (h2.dataLeaves ..)
  · exact hd

theorem State.Inv.runCopy (h : s.Inv) (c : CopyCmd) (n : Nat) : (s.runCopy c n).Inv :=
  have h1 := h.movePart c n ((piecesFor c (s.copyUnit c)).drop c.prog)
  .ite ((h1.copyGone _).engineFault ..) (.ite (h1.copySignals _) (h1.setCopy _))

theorem State.Inv.keeps_cpyDirect (h : s.Inv) (c : CopyCmd) : KeepsInv (s.cpyDirect c) := by
  unfold State.cpyDirect
  split
  · split
    · exact h.keeps _
    · split
      · exact h.keeps _
      · exact .fault
      · split
        rename_i s1 c1 e
        extract_lets +onlyGivenNames _ s2 s3
        have h2 : s2.Inv := ((h.withLeaves c).fst e).frame (by rfl)
        have h3 : s3.Inv := .ite (h2.runCopy ..) h2
        split
        · exact h3.keeps _
        · exact .next h3
  · split
    · exact h.keeps _
    · exact .next h

theorem State.Inv.keeps_cpyIssue (h : s.Inv) (k : CopyKind) (x : SSrc) (set : Option DWord) (res : Bool) : KeepsInv (s.cpyIssue k x set res) := by
  unfold State.cpyIssue
  split
  · exact h.keeps _
  · split
    · exact h.keeps_cpyDirect _
    · exact h.keeps _

theorem State.Inv.keeps_copyComplete (h : s.Inv) : KeepsInv (execCopyComplete s) := by
  unfold execCopyComplete
  split
  · exact .ite (.next (.ite (h.copyGone _) h)) (.ite (.next (h.runCopy ..)) (.next h))
  · exact .next h

theorem State.Inv.keeps_vaultReleaseComplete (h : s.Inv) : KeepsInv (execVaultReleaseComplete s) := by
  unfold execVaultReleaseComplete
  split
  · split
    · exact .next (h.frame (by rfl))
    · exact .next h
  · exact .next h

theorem State.Inv.scrubbed (h : s.Inv) (n : Nat) : (s.scrubbed n).Inv := by
  unfold State.scrubbed
  split
  · exact .ite ((h.withSp (Memory.wf_clear _ _ h.sp)).frame (by rfl)) h
  · exact h

/-! ## Exchanges (Machine/Exchange) -/

theorem State.Inv.stream (h : s.Inv) (d : Nat) (job : BitVec 16) (r : XchRec) (n : Nat) : (s.stream d job r n).1.Inv := by
  induction n generalizing s r with
  | zero => exact h
  | succ n ih =>
    unfold State.stream
    split
    · exact h
    · exact ih (h.hop ..) _

theorem State.Inv.putPort (h : s.Inv) (d : Nat) (j : PortJob) : (s.putPort d j).Inv := h.frame (by rfl)

theorem State.Inv.streamRec (h : s.Inv) (d : Nat) (job : BitVec 16) (r : XchRec) : (s.streamRec d job r).Inv :=
  have h1 := h.stream d job r (r.limit / 1024 + 1)
  State.Inv.putPort (.ite h1 (h1.dataLeaves ..)) ..

theorem State.Inv.streamRecs (h : s.Inv) (d : Nat) (job : BitVec 16) (l : List XchRec) : (s.streamRecs d job l).Inv := by
  induction l generalizing s with
  | nil => exact h
  | cons r l ih =>
    unfold State.streamRecs
    split
    · exact ih h
    · exact .ite (ih h) h
    · exact .ite (ih (h.streamRec ..)) (h.streamRec ..)

theorem State.Inv.streamPort (h : s.Inv) (d : Nat) (job : BitVec 16) : (s.streamPort d job).Inv := h.streamRecs ..

theorem State.Inv.admitRec (h : s.Inv) {d : Nat} {job : BitVec 16} {x : BitVec 12} {t : State} (e : s.admitRec d job x = .yes t) : t.Inv := by
  unfold State.admitRec at e
  extract_lets j at e
  split at e
  · split at e
    · cases e
    · split at e <;> cases e
      exact (h.putPort ..).streamPort ..
  · cases e

theorem State.Inv.xchComplete (h : s.Inv) (job : BitVec 16) (n : Nat) : (s.xchComplete job n).Inv := by
  induction n generalizing s with
  | zero => exact h
  | succ n ih =>
    unfold State.xchComplete
    extract_lets l
    split
    · exact h
    · exact ih (State.Inv.writeHome (h.frame (by rfl)) ..)

theorem State.Inv.xchSettle (h : s.Inv) (job : BitVec 16) : (s.xchSettle job).Inv := h.xchComplete ..

theorem State.Inv.admitJob (h : s.Inv) (job : BitVec 16) (l : List (Nat × XchRec)) : (s.admitJob job l).Inv := by
  induction l generalizing s with
  | nil => exact h
  | cons x l ih =>
    obtain ⟨d, r⟩ := x
    unfold State.admitJob
    split
    · rename_i e; exact ih (h.admitRec e)
    · exact .ite (h.faultOf ..) (ih h)
    · exact ih h

theorem State.Inv.admitAllOf (h : s.Inv) (job : BitVec 16) : (s.admitAllOf job).Inv := (h.admitJob ..).xchSettle _

theorem State.Inv.postArrives (h : s.Inv) (p : Packet) : (s.postArrives p).Inv := .ite h ((h.putPort ..).admitAllOf _)

theorem State.Inv.dataArrives (h : s.Inv) (p : Packet) : (s.dataArrives p).Inv := by
  unfold State.dataArrives
  extract_lets d j
  split
  · exact h
  · rename_i r _
    refine .ite (h.hop ..) ?_
    extract_lets bs a held
    refine .ite (h.engineFault ..) ?_
    split
    rename_i out fl _
    exact State.Inv.xchSettle (State.Inv.hop (State.Inv.putPort ((h.writeHome ..).setStatus fl) ..) ..) _

theorem State.Inv.ackArrives (h : s.Inv) (p : Packet) : (s.ackArrives p).Inv := by
  unfold State.ackArrives
  extract_lets d j
  split
  · exact h
  · exact (h.putPort ..).xchSettle _

/-- R402: whatever command of an engine an error stops. -/
theorem State.Inv.commandStops (h : s.Inv) {id : Nat} {t : State} (e : s.commandStops id = some t) : t.Inv := by
  unfold State.commandStops at e
  simp only [Option.orElse_eq_some, Option.map_eq_some_iff] at e
  obtain ⟨c, _, rfl⟩ | ⟨_, ⟨x, _, rfl⟩ | ⟨_, ⟨g, _, rfl⟩ | ⟨_, b, _, rfl⟩⟩⟩ := e
  · exact (h.copyGone _).engineFault ..
  · exact (State.Inv.xchSettle (State.Inv.foldl (fun _ _ hs => hs.streamPort ..) _ (h.frame (by rfl))) _).engineFault ..
  · exact State.Inv.engineFault (h.frame (by rfl)) ..
  · exact State.Inv.engineFault (h.frame (by rfl)) ..

theorem State.Inv.exmdNext (h : s.Inv) (n : Nat) : (s.exmdNext n).Inv :=
  State.Inv.foldl (fun _ _ hs => .ite ((hs.putPort ..).streamPort ..) hs) _ h

theorem State.Inv.partnersLost (h : s.Inv) : s.partnersLost.Inv := by
  unfold State.partnersLost
  split
  · exact h.faultOf ..
  · exact h

end
end Sys2Proof.Machine
end

section
/-! # O57, continued: the fabric, chunks, engines and queues -/

namespace Sys2Proof.Machine

section
variable {s : State}

/-! ## Links and routing (Machine/Fabric) -/

theorem State.Inv.linkError (h : s.Inv) (d : Nat) : (s.linkError d).Inv := h.frame (by rfl)

theorem State.Inv.pushAct (h : s.Inv) (row : Instr) (d : Nat) (p : Packet) : (s.pushAct row d p).Inv := h.frame (by rfl)

theorem State.Inv.deliver (h : s.Inv) (d : Nat) (p : Packet) : (s.deliver d p).Inv := by
  unfold State.deliver
  extract_lets c
  refine .ite (h.linkError d) (.ite (h.frame (by rfl)) (.ite (h.frame (by rfl)) (.ite h ?_)))
  split
  · exact h.frame (by rfl)
  · exact h.linkError d

theorem State.Inv.detourBy (h : s.Inv) (d e lane : Nat) (p : Packet) (held : Option (Nat × Nat)) (wait : Nat × Bool) :
    (s.detourBy d e lane p held wait).Inv := h.frame (by rfl)

theorem State.Inv.detourSend (h : s.Inv) {d : Nat} {p : Packet} {held : Option (Nat × Nat)} {wait : Nat × Bool} {t : State}
    (e : s.detourSend d p held wait = some t) : t.Inv := by
  unfold State.detourSend at e
  extract_lets n at e
  split at e
  · cases e; exact h.frame (by rfl)
  · split at e <;> cases e
    exact h.detourBy ..
  · cases e

theorem State.Inv.routed (h : s.Inv) {d : Nat} {held : Option (Nat × Nat)} {p : Packet} {wait : Nat × Bool} {t : State}
    (e : s.routed d held p wait = some t) : t.Inv := by
  unfold State.routed at e
  extract_lets q goal at e
  split at e
  · cases e; exact (h.deliver ..).release _
  · split at e
    · exact h.detourSend e
    · split at e <;> cases e
      exact h.frame (by rfl)

theorem State.Inv.routeOne (h : s.Inv) (i : Nat) : (s.routeOne i).Inv := by
  unfold State.routeOne
  split
  · exact h
  · refine .ite h ?_
    extract_lets p s1
    have h1 : s1.Inv := h.frame (by rfl)
    split
    · rename_i e; exact State.Inv.routed (h1.frame (by rfl)) e
    · exact h1

theorem State.Inv.ranAway (h : s.Inv) (o : Outbound) : (s.ranAway o).Inv := .ite (h.frame (by rfl)) h

theorem State.Inv.transmit (h : s.Inv) (d : Nat) : (s.transmit d).Inv := by
  unfold State.transmit
  split
  · exact h
  · exact .ite (State.Inv.release (State.Inv.ranAway (h.frame (by rfl)) _) _) (State.Inv.detourBy (h.frame (by rfl)) ..)

theorem State.Inv.suspectTimeout (h : s.Inv) : KeepsInv (execSuspectTimeout s) := .next (.ite (.ite (h.frame (by rfl)) h) (.ite (h.frame (by rfl)) h))

theorem State.Inv.runOn (h : s.Inv) (d : Nat) (p : Packet) (held : Option (Nat × Nat)) : (s.runOn d p held).Inv :=
  .ite (((h.deliver ..).sendControl ..).release _) (State.Inv.hop (h.frame (by rfl)) ..)

theorem State.Inv.offLane2 (h : s.Inv) (d : Nat) (p : Packet) : (s.offLane2 d p).Inv :=
  .ite ((h.deliver ..).release _) (.ite ((h.linkError d).release _) (h.frame (by rfl)))

theorem State.Inv.onPath (h : s.Inv) (d : Nat) (p : Packet) (path : Nat × Nat × Nat) : (s.onPath d p path).Inv := by
  obtain ⟨dd, e, left⟩ := path
  cases left with
  | zero =>
    have h1 := State.Inv.ite (c := (p.offDetour).detourAck = true) h
      (h.hop dd 3 (controlPacket s.k.nodeId (s.neighbour dd) 0 (BitVec.ofNat 64 (12 + dd * 2 ^ 8))) none)
    exact .ite (h1.runOn ..) (h1.offLane2 ..)
  | succ n => exact h.hop ..

theorem State.Inv.sawToken (h : s.Inv) {p : Packet} {t : State} (e : s.sawToken p = some t) : t.Inv := by
  unfold State.sawToken at e
  extract_lets gen at e
  split at e
  · cases e; exact h
  · split at e <;> cases e
    exact h.frame (by rfl)

theorem State.Inv.byLane (h : s.Inv) (d : Nat) (p : Packet) : (s.byLane d p).Inv := by
  unfold State.byLane
  split
  · exact h.frame (by rfl)
  · exact (State.Inv.ite (h.deliver ..) (h.linkError d)).release _
  · split
    · exact h.onPath ..
    · exact h.offLane2 ..
  · exact .ite ((h.deliver ..).release _) (h.sendControl ..)
  · split
    · exact h.onPath ..
    · exact h.runOn ..
  · exact h.linkError d

theorem State.Inv.accept (h : s.Inv) (d : Nat) (p : Packet) : (s.accept d p).Inv := by
  unfold State.accept
  split
  · rename_i e
    exact .ite ((h.sawToken e).release _) ((h.sawToken e).byLane ..)
  · exact h.release _

theorem KRegs.setLink_fields (k : KRegs) (d n : Nat) :
    (k.setLink d n).status = k.status ∧ (k.setLink d n).cause = k.cause ∧ (k.setLink d n).mring = k.mring := by
  rw [KRegs.setLink, KRegs.relink]
  exact ⟨rfl, rfl, rfl⟩

theorem State.Inv.setLink (h : s.Inv) (d n : Nat) : State.Inv { s with k := s.k.setLink d n } := h.withK (s.k.setLink_fields d n)

theorem State.Inv.dropLink (h : s.Inv) (d ack : Nat) : (s.dropLink d ack).Inv := (h.setLink d 2).frame (by rfl)

theorem State.Inv.tagLost (h : s.Inv) (d : Nat) (p : Packet) : (s.tagLost d p).Inv := .ite (h.endStall.takeTrap _) h

theorem State.Inv.linkTold (h : s.Inv) (d c v : Nat) : (s.linkTold d c v).Inv := by
  unfold State.linkTold
  split
  · exact h.frame (by rfl)
  · extract_lets l s1 s2 s3
    have h3 : s3.Inv := .ite (h.frame (by rfl)) (h.frame (by rfl))
    exact .ite (h3.dropLink ..) h3
  all_goals exact h.frame (by rfl)

theorem State.Inv.askReplay (h : s.Inv) (d : Nat) (l : Link) : (s.askReplay d l).Inv := by
  unfold State.askReplay
  refine .ite h ?_
  extract_lets n s1
  have h1 : s1.Inv := h.frame (by rfl)
  exact .ite (h1.dropLink ..) h1

theorem State.Inv.linkArrives (h : s.Inv) (d : Nat) (p : Packet) : (s.linkArrives d p).Inv := by
  unfold State.linkArrives
  extract_lets l s1
  refine .ite ?_ (State.Inv.tagLost (.ite (h.frame (by rfl)) (State.Inv.askReplay (h.frame (by rfl)) ..)) ..)
  split
  · exact h.linkTold ..
  · exact .ite (State.Inv.accept (h.frame (by rfl)) ..) (.ite (h.frame (by rfl)) (h.askReplay ..))

theorem State.Inv.repair (h : s.Inv) (d : Nat) : (s.repair d).Inv :=
  State.Inv.foldl (fun _ _ hs => .ite hs (hs.frame (by rfl))) _ ((h.setLink d 1).frame (by rfl))

/-! ## Answers and acknowledgements -/

theorem State.Inv.partDone (h : s.Inv) (id tag : Nat) : (s.partDone id tag).Inv := by
  unfold State.partDone
  split
  · exact h
  · exact .ite (h.entryGone id) (h.frame (by rfl))

theorem State.Inv.copyPart (h : s.Inv) (id tag : Nat) : (s.copyPart id tag).Inv := by
  unfold State.copyPart
  split
  · exact h.setCopy _
  · exact h

theorem State.Inv.copyRead (h : s.Inv) (c : CopyCmd) (q : Req) (v : DWord) : (s.copyRead c q v).Inv := by
  unfold State.copyRead
  extract_lets bs c1
  split
  rename_i s1 c2 ok e
  have h1 : s1.Inv := (h.writeData c1 _).fst e
  exact .ite (h1.setCopy _) ((h1.copyGone _).engineFault ..)

theorem State.Inv.serialPart (h : s.Inv) (id tag : Nat) : (s.serialPart id tag).Inv := State.Inv.serialRun (h.frame (by rfl)) _

theorem State.Inv.completed (h : s.Inv) (p : Packet) : (s.completed p).Inv := by
  unfold State.completed
  refine .ite h ?_
  split
  · exact h
  · extract_lets s1
    have h1 : s1.Inv := h.frame (by rfl)
    split
    · exact h1.partDone ..
    · exact h1.copyPart ..
    · exact h1.serialPart ..
    · exact h1.frame (by rfl)
    · exact h1

theorem State.Inv.failReq (h : s.Inv) (q : Req) (t : Trap) (c : Cause) (i : DWord) : (s.failReq q t c i).Inv := by
  unfold State.failReq
  extract_lets s1
  have h1 : s1.Inv := h.frame (by rfl)
  split
  · split
    · exact h1.faultOf ..
    · exact h1
  · split
    · exact .ite (h1.faultOf ..) h1
    · exact h1
  · split
    · exact .ite ((h1.dropEntry ..).engineFault ..) (h1.dropEntry ..)
    · exact h1
  · split
    · exact (h1.copyGone _).engineFault ..
    · exact h1
  · exact (h1.droppedEntry ..).serialPart ..
  all_goals exact h1.frame (by rfl)

theorem State.Inv.loadAnswer (h : s.Inv) (w : Wait) (p : Packet) : (s.loadAnswer w p).Inv := by
  unfold State.loadAnswer
  split
  · exact h.arriveTraced ..
  · exact h

theorem State.Inv.failedLate (h : s.Inv) (p : Packet) : (s.failedLate p).Inv := .ite ((h.droppedEntry ..).engineFault ..) (h.droppedEntry ..)

theorem State.Inv.answered (h : s.Inv) (p : Packet) : (s.answered p).Inv := by
  unfold State.answered
  split
  · exact .ite h (h.failedLate p)
  · extract_lets done
    have hd : done.Inv := h.frame (by rfl)
    split
    · exact hd.frame (by rfl)
    · exact hd.frame (by rfl)
    · exact hd.frame (by rfl)
    · exact hd.frame (by rfl)
    · refine .ite (h.failReq ..) ?_
      split
      · split
        · exact hd.loadAnswer ..
        · exact hd
      · split
        · exact hd.frame (by rfl)
        · exact hd
      · split
        · exact hd.copyRead ..
        · exact hd
      · exact hd.partDone ..
      · exact hd.serialPart ..
      · exact hd

theorem State.Inv.seqAck (h : s.Inv) (p : Packet) : (s.seqAck p).Inv := by
  unfold State.seqAck
  extract_lets flow last t
  split
  exact .ite h (State.Inv.foldl (fun _ _ hs => hs.completed _) _ (h.frame (by rfl)))

theorem State.Inv.unreachable (h : s.Inv) (t : TxFlow) : (s.unreachable t).Inv := by
  refine State.Inv.foldl (fun u x hu => ?_) _ (h.frame (by rfl))
  split
  · split
    · exact hu.frame (by rfl)
    · exact hu.frame (by rfl)
    · exact hu.frame (by rfl)
    · exact hu.failReq ..
  · exact hu

theorem State.Inv.retransmit (h : s.Inv) (t : TxFlow) : (s.retransmit t).Inv := .ite (.ite (h.unreachable t) (h.frame (by rfl))) h

theorem State.Inv.retire (h : s.Inv) (t : TxFlow) : (s.retire t).Inv := .ite (State.Inv.sendControl (h.frame (by rfl)) ..) h

theorem State.Inv.keeps_flowRetire (h : s.Inv) : KeepsInv (execFlowRetire s) :=
  .next (.ite (h.retire _) (.ite (State.Inv.sendControl (h.frame (by rfl)) ..) (h.frame (by rfl))))

/-! ## The pilot token -/

theorem State.Inv.passToken (h : s.Inv) : s.passToken.Inv := by
  unfold State.passToken
  split
  · exact State.Inv.sendControl (h.frame (by rfl)) ..
  · exact h.frame (by rfl)

theorem State.Inv.purgeLanes (h : s.Inv) (job : BitVec 16) : (s.purgeLanes job).Inv :=
  have h2 := State.Inv.foldl (f := fun s x => s.release (some x)) (fun _ _ hs => hs.release _) _ (h.frame (by rfl))
  .ite h2.passToken h2

theorem State.Inv.takeOut (h : s.Inv) {b : Blocked} {p : Packet} {t : State} (e : s.takeOut b = some (p, t)) : t.Inv := by
  unfold State.takeOut at e
  split at e <;> simp only [Option.map_eq_some_iff, Prod.mk.injEq] at e
  · obtain ⟨x, _, _, rfl⟩ := e
    exact State.Inv.release (h.frame (by rfl)) _
  · obtain ⟨o, _, _, rfl⟩ := e
    exact State.Inv.release (h.frame (by rfl)) _

theorem State.Inv.drain (h : s.Inv) (q : Packet) : (s.drain q).Inv := by
  unfold State.drain
  extract_lets p t s2
  have h2 : s2.Inv := h.frame (by rfl)
  exact .ite ((h2.deliver ..).pushAct ..) (State.Inv.hop (h2.frame (by rfl)) ..)

theorem State.Inv.useToken (h : s.Inv) : s.useToken.Inv := by
  unfold State.useToken
  split
  · rename_i e
    obtain ⟨b, _, hb⟩ := Option.bind_eq_some_iff.mp e
    exact (h.takeOut hb).drain _
  · exact h.passToken

theorem State.Inv.tokenArrives (h : s.Inv) (p : Packet) : (s.tokenArrives p).Inv := .ite h (State.Inv.useToken (h.frame (by rfl)))

theorem State.Inv.keeps_tokenLossTimeout (h : s.Inv) : KeepsInv (execTokenLossTimeout s) := .next (.ite (State.Inv.useToken (h.frame (by rfl))) h)

/-! ## Chunks (Machine/Chunk) -/

theorem State.Inv.gatherChunk (h : s.Inv) (w : Wait) (b n : Nat) (idx : VReg) (m : Mask) : (s.gatherChunk w b n idx m).Inv := by
  unfold State.gatherChunk
  extract_lets lo
  split
  · exact h.faultOf ..
  · refine State.Inv.chunked ?_ _
    split
    · exact h.frame (by rfl)
    · exact h

theorem State.Inv.waitChunk (h : s.Inv) (w : Wait) : (s.waitChunk w).Inv := by
  unfold State.waitChunk
  split
  · exact .ite (h.gatherChunk ..) h
  · refine .ite h ?_
    split
    · rename_i e; exact (h.scatterTo _ _ _ _ _ _ _ _ (.inl e)).chunked _
    · rename_i e; exact h.scatterTo _ _ _ _ _ _ _ _ (.inr e)
  · exact h

theorem State.Inv.copyChunked (h : s.Inv) (c : CopyCmd) : (s.copyChunked c).Inv := by
  unfold State.copyChunked
  split
  refine .ite h ?_
  split
  rename_i s1 c1 ok e
  have h1 : s1.Inv := (h.movePart ..).fst e
  exact .ite ((h1.copyGone _).engineFault ..) (.ite ((h1.setCopy _).chunked _) (h1.setCopy _))

theorem State.Inv.keeps_nextChunk (h : s.Inv) : KeepsInv s.nextChunk := by
  unfold State.nextChunk
  split
  · exact .next h
  · refine .ite (.next h) ?_
    split
    · split
      · exact h.keeps_macChunks ..
      · exact .next h
    · split
      · exact .next (h.waitChunk _)
      · split
        · exact .next (.ite (h.copyChunked _) h)
        · split
          · exact .next ((h.chunked _).exmdNext _)
          · exact .next h

/-! ## Landings and limits (Machine/Control) -/

theorem State.Inv.keeps_resultLanding (h : s.Inv) : KeepsInv (execResultLanding s) := by
  unfold execResultLanding
  split
  · rename_i e; exact .next (h.landings e)
  · exact .next (h.takeTrap _)

theorem State.Inv.keeps_outsideRegionLimit (h : s.Inv) : KeepsInv (execOutsideRegionLimit s) := .ite (h.keeps _) (.next h)

theorem State.Inv.keeps_illegalEncoding (h : s.Inv) : KeepsInv (execIllegalEncoding s) := State.Inv.keeps (h.frame (by rfl)) _

/-! ## The grammar engine (Machine/Grammar) -/

theorem State.Inv.gramDone (h : s.Inv) (id : Nat) : (s.gramDone id).Inv := h.frame (by rfl)

theorem State.Inv.writeP (h : s.Inv) (n : Nat) (b : Bool) : State.Inv { s with regs := s.regs.writeP n b } := h.land ⟨0, 0, 0, false, 0, .pred n b⟩

theorem State.Inv.arrivePred (h : s.Inv) (w : Wait) (b : Bool) : (s.arrivePred w b).Inv := by
  unfold State.arrivePred
  split
  · exact h.writeP ..
  · exact h

theorem State.Inv.keeps_gramStop (h : s.Inv) (w : Wait) (i : Issue) : KeepsInv (s.gramStop w i) := by
  unfold State.gramStop
  split
  · exact .next ((h.gramDone _).faultOf ..)
  · exact .next (h.applyAll _)
  · exact .fault
  · exact .next h

theorem State.Inv.keeps_gmaskExecute (h : s.Inv) : KeepsInv (execGmaskExecute s) := by
  unfold execGmaskExecute
  split
  · split
    · refine .ite (.next h) ?_
      extract_lets u
      split
      · exact h.keeps_gramStop ..
      · have h1 (a n m : Nat) := h.withSp (Memory.wf_write a (toBytes n m) h.sp)
        exact .next (State.Inv.traceArrival (State.Inv.arrive (State.Inv.arrivePred ((h1 ..).frame (by rfl)) ..) ..) ..)
    · exact .next h
  · exact .next h

theorem State.Inv.keeps_sampleExecute (h : s.Inv) : KeepsInv (execSampleExecute s) := by
  unfold execSampleExecute
  split
  · split
    · have h1 (b : Bool) (id : Nat) (w : Wait) := (h.gramDone id).arrivePred w b
      exact .ite (.next ((h1 ..).arriveTraced ..)) (.next ((h1 ..).arriveTraced ..))
    · exact .next h
  · exact .next h

/-! ## Queues and programs (Machine/Sched) -/

theorem State.Inv.beginRecord (h : s.Inv) (q : Nat) : (s.beginRecord q).Inv := by
  unfold State.beginRecord
  split <;> exact h.frame (by rfl)

theorem State.Inv.endRecord (h : s.Inv) (q : Nat) : (s.endRecord q).Inv := State.Inv.beginRecord (h.frame (by rfl)) q

theorem State.Inv.takeRecord (h : s.Inv) (q : Nat) (r : Record) : (s.takeRecord q r).1.Inv := by
  unfold State.takeRecord
  split
  · exact h.frame (by rfl)
  · split
    · exact h.frame (by rfl)
    · exact .ite (State.Inv.beginRecord (h.frame (by rfl)) q) (h.frame (by rfl))

theorem State.Inv.slotWrite (h : s.Inv) (q : Nat) (b : Bool) (r : Record) : (s.slotWrite q b r).Inv := .ite (h.frame (by rfl)) (h.takeRecord q r)

theorem State.Inv.launchWrite (h : s.Inv) (o : Nat) (bs : List Byte) : (s.launchWrite o bs).Inv := .ite h (h.slotWrite ..)

theorem State.Inv.requestSwitch (h : s.Inv) : s.requestSwitch.Inv := by
  unfold State.requestSwitch
  split
  · exact .ite (h.frame (by rfl)) h
  · exact h

theorem State.Inv.freshMap (h : s.Inv) (q : Nat) (job : BitVec 16) : (s.freshMap q job).Inv := .ite h (h.frame (by rfl))

theorem State.Inv.withS2 (h : s.Inv) (v : DWord) : State.Inv { s with regs := { s.regs with s := s.regs.s.set 2 v } } :=
  ⟨h.hbm, h.sp, (List.head?_set_pos _ _ _ (by omega)).trans h.s0, h.p0, h.pol, h.status, h.cause, h.mring⟩

theorem State.Inv.startProgram (h : s.Inv) (q : Nat) (r : Record) : (s.startProgram q r).Inv :=
  ((State.Inv.trace ((h.withS2 ((recArgs r).setWidth 64)).frame (by rfl)) ..).freshMap ..).announce ..

theorem State.Inv.askResume (h : s.Inv) (q : Nat) : (s.askResume q).Inv :=
  have h1 : State.Inv { s with sch := { s.sch with preempt := none } } := h.frame (by rfl)
  (h1.enter (causeWord 3 Cause.resumeRequest.code) (s.queue q).epc 0 0 .none none).frame (by rfl)

theorem State.Inv.keeps_queueStart (h : s.Inv) : KeepsInv (execQueueStart s) := by
  refine .next ?_
  split
  · exact h
  · refine .ite h ?_
    extract_lets +onlyGivenNames l _ s1
    have h1 : s1.Inv := h.frame (by rfl)
    split
    · exact h1.startProgram ..
    · exact h1.askResume _
    · exact h1

theorem State.Inv.granted (h : s.Inv) (q : Nat) : (s.granted q).Inv := by
  unfold State.granted
  split
  · exact h
  · exact .ite (State.Inv.requestSwitch (h.frame (by rfl))) (State.Inv.endRecord ((h.errorRecord 6 _ 0 q 15 0 _ 0 0 false 0 none).frame (by rfl)) q)

theorem State.Inv.keeps_vaultAcquisitionGrant (h : s.Inv) : KeepsInv (execVaultAcquisitionGrant s) := by
  refine .next ?_
  split
  · exact h
  · exact State.Inv.admitAllOf (.ite (State.Inv.granted (h.frame (by rfl)) _) (h.frame (by rfl))) _

theorem State.Inv.keeps_scrubComplete (h : s.Inv) : KeepsInv (execScrubComplete s) := by
  refine .next ?_
  have h1 := h.scrubbed s.ev.num
  split
  · exact State.Inv.admitAllOf (State.Inv.foldl (fun _ _ hs => .ite (hs.granted _) hs) _ h1) _
  · exact h1

theorem State.Inv.discardFor (h : s.Inv) (r : Region) (c : Cause) (eva : VAddr) (i : DWord) : (s.discardFor r c eva i).Inv :=
  State.Inv.enter ((h.dropRegion r).trace ..) ..

theorem State.Inv.keeps_graceExpiry (h : s.Inv) : KeepsInv (execGraceExpiry s) := by
  refine .next ?_
  split
  · exact .ite (State.Inv.discardFor (State.Inv.endStall (h.frame (by rfl))) ..) h
  · exact h

theorem State.Inv.forwardNotice (h : s.Inv) (p : Packet) : (s.forwardNotice p).Inv := by
  unfold State.forwardNotice
  split
  · exact h
  · split
    · exact h
    · exact State.Inv.foldl (fun _ _ hs => hs.hop ..) _ h

end
end Sys2Proof.Machine
end

section
/-! # O57, continued: jobs, the supervisor, errors and the host -/

namespace Sys2Proof.Machine

section
variable {s : State}

/-! ## Jobs and barriers (Machine/Sched) -/

theorem State.Inv.recordUntested (h : s.Inv) (job : BitVec 16) : (s.recordUntested job).Inv :=
  ((State.Inv.foldl (f := fun (s : State) (u : Untested) => s.errorRecord 8 u.job u.cause u.queue u.uclass u.unit_ u.epc u.eva u.einfo
    (u.cause.toNat % 4096 == 0x015) 0 (some u.csn)) (fun _ _ hs => hs.errorRecord ..) (s.err.untested.filter fun u => u.job == job) h).frame (by rfl))

theorem State.Inv.stopJob (h : s.Inv) (job : BitVec 16) : (s.stopJob job).Inv := by
  unfold State.stopJob
  extract_lets +onlyGivenNames mine s1
  have h1 : s1.Inv := by
    unfold s1
    split
    · exact .ite ((h.dropRegion _).frame (by rfl)) h
    · exact h
  refine State.Inv.recordUntested (State.Inv.purgeLanes ?_ _) _
  split <;> exact h1.frame (by rfl)

theorem State.Inv.allReset (h : s.Inv) (job : BitVec 16) : (s.allReset job).Inv := by
  unfold State.allReset
  split
  · exact h
  · exact h.frame (by rfl)

theorem State.Inv.resetJob (h : s.Inv) (job cause : BitVec 16) : (s.resetJob job cause).Inv :=
  State.Inv.foldl (fun _ _ hs => hs.endRecord _) _ (((h.stopJob job).allReset job).errorRecord ..)

theorem State.Inv.announceReset (h : s.Inv) (job : BitVec 16) : (s.announceReset job).Inv := by
  unfold State.announceReset
  split
  · exact h
  · exact State.Inv.foldl (fun _ _ hs => hs.hop ..) _ (h.announce ..)

theorem State.Inv.noticeArrives (h : s.Inv) (p : Packet) : (s.noticeArrives p).Inv := by
  unfold State.noticeArrives
  extract_lets +onlyGivenNames st _ s1 s2
  refine .ite (.ite h (State.Inv.purgeLanes (h.frame (by rfl)) _)) ?_
  have h1 : s1.Inv := h.frame (by rfl)
  have h2 : s2.Inv := h1.forwardNotice p
  exact .ite (h2.resetJob ..) h2

theorem State.Inv.keeps_serviceHoldTimeout (h : s.Inv) : KeepsInv (execServiceHoldTimeout s) := by
  refine .next (.ite ?_ h)
  split
  · exact State.Inv.announce (h.frame (by rfl)) ..
  · exact h

theorem State.Inv.notice (h : s.Inv) (n : Notice) : (s.notice n).Inv := h.frame (by rfl)

theorem State.Inv.urgent (h : s.Inv) (c : Cause) (eva : VAddr) (i : DWord) : (s.urgent c eva i).Inv := by
  unfold State.urgent
  split
  · exact .ite (h.notice _) (h.endStall.discardFor ..)
  · exact h.notice _

theorem State.Inv.barrierDone (h : s.Inv) (b : Barrier) : (s.barrierDone b).Inv := by
  unfold State.barrierDone
  extract_lets +onlyGivenNames g e _ s1 s2
  have h1 : s1.Inv := h.frame (by rfl)
  have h2 : s2.Inv := h1.writeHome ..
  exact h2.frame (by rfl)

theorem State.Inv.butterfly (h : s.Inv) (b : Barrier) (n : Nat) : (s.butterfly b n).Inv := by
  induction n generalizing s b with
  | zero => exact h
  | succ n ih =>
    unfold State.butterfly
    refine .ite ?_ h
    split
    · exact State.Inv.barrierDone (h.frame (by rfl)) _
    · exact ih (State.Inv.hop (h.frame (by rfl)) ..) _

theorem State.Inv.barrierArrives (h : s.Inv) (b : Barrier) : (s.barrierArrives b).Inv := by
  unfold State.barrierArrives
  split
  · exact h.barrierDone _
  · exact State.Inv.butterfly (State.Inv.hop (h.frame (by rfl)) ..) ..

theorem State.Inv.keeps_barrierArrival (h : s.Inv) : KeepsInv (execBarrierArrival s) := by
  refine .next ?_
  split
  · exact .ite h (h.barrierArrives _)
  · exact h

theorem State.Inv.stepArrives (h : s.Inv) (p : Packet) : (s.stepArrives p).Inv := by
  unfold State.stepArrives
  extract_lets +onlyGivenNames d2 g gen _ s1
  have h1 : s1.Inv := h.frame (by rfl)
  split
  · exact h1.butterfly ..
  · exact h1

/-! ## Probes (Machine/Watch) -/

theorem State.Inv.sendProbes (h : s.Inv) (o : BitVec 14) (job tag : BitVec 16) (n : Nat) : (s.sendProbes o job tag n).Inv :=
  State.Inv.foldl (fun _ _ hs => hs.sendControl ..) _ h

theorem State.Inv.probeDone (h : s.Inv) (p : Probe) (v : Nat) : (s.probeDone p v).Inv := .ite (State.Inv.writeHome (h.frame (by rfl)) ..) (h.frame (by rfl))

theorem State.Inv.probeArrives (h : s.Inv) (p : Packet) : (s.probeArrives p).Inv := by
  unfold State.probeArrives
  extract_lets +onlyGivenNames tag hops _ s1
  have h1 : s1.Inv := h.sendProbes ..
  clear_value s1
  refine .ite ?_ (.ite h (h1.frame (by rfl)))
  split
  · exact h
  · exact (h.probeDone ..).notice _

theorem State.Inv.keeps_probeTimeout (h : s.Inv) : KeepsInv (execProbeTimeout s) := by
  refine .next ?_
  split
  · exact .ite (h.probeDone ..) h
  · exact h

/-! ## The supervisor (Machine/Supervisor) -/

theorem State.Inv.leave (h : s.Inv) (l : List LoopLevel) : (s.leave l).Inv := h.frame (by rfl)

theorem State.Inv.reenter (h : s.Inv) (r : Region) : (s.reenter r).Inv := (h.leave r.snap.loops).frame (by rfl)

theorem State.Inv.resumed (h : s.Inv) (q : Nat) (l : LQueue) : (s.resumed q l).Inv := by
  unfold State.resumed
  extract_lets +onlyGivenNames s1
  have h1 : s1.Inv := by
    unfold s1
    split
    · exact h.reenter _
    · exact h.leave _
  have h3 (c : Sched) : State.Inv (State.trace { s1 with sch := c } 6 0 (s1.seq.pc.setWidth 64)) := State.Inv.trace (h1.frame (by rfl)) ..
  refine State.Inv.requestSwitch (.ite ?_ (h3 _))
  split
  · exact (h3 _).announce ..
  · exact h3 _

theorem State.Inv.returned (h : s.Inv) {t : State} (e : s.returned = .ok t) : t.Inv := by
  unfold State.returned at e
  split at e
  · cases e
  · split at e
    · cases e
    · split at e
      · cases e; exact h.frame (by rfl)
      · split at e <;> cases e
        exact h.resumed ..

theorem State.Inv.keeps_rft (h : s.Inv) : KeepsInv (execRft s) := by
  unfold execRft
  split
  · rename_i e; exact .next (h.returned e)
  · exact h.keeps _

theorem State.Inv.clearLeaves (h : s.Inv) (job : BitVec 16) (v : DWord) : (s.clearLeaves job v).Inv := State.Inv.foldl (fun _ _ hs => hs.writeHbm ..) _ h

theorem State.Inv.shotDown (h : s.Inv) (p : Packet) : (s.shotDown p).Inv := by
  unfold State.shotDown
  extract_lets v
  split
  extract_lets +onlyGivenNames s1 s2
  have h1 : s1.Inv := State.Inv.effect (h.frame (by rfl)) _
  have h2 : s2.Inv := h1.clearLeaves ..
  clear_value s2
  exact h2.frame (by rfl)

theorem State.Inv.keeps_shootDownAcknowledge (h : s.Inv) : KeepsInv (execShootDownAcknowledge s) := by
  refine .next ?_
  split
  · exact .ite (State.Inv.notice (State.Inv.sendControl (h.frame (by rfl)) ..) _) h
  · exact h

theorem State.Inv.beginReset (h : s.Inv) (job : BitVec 16) : (s.beginReset job).Inv := (h.announceReset job).frame (by rfl)

theorem State.Inv.keeps_qrst (h : s.Inv) (x : SSrc) : KeepsInv (execQrst x s) := by
  unfold execQrst
  split
  · exact .next h
  · exact .ite (.next (h.resetJob ..)) (.next ((h.beginReset _).frame (by rfl)))
  · exact h.keeps _

theorem State.Inv.saveContext (h : s.Inv) (q a : Nat) : (s.saveContext q a).Inv := by
  unfold State.saveContext
  extract_lets +onlyGivenNames l s1
  have h1 : s1.Inv := State.Inv.foldl (fun _ _ hs => hs.writeHbm ..) _ h
  clear_value s1
  split
  · exact State.Inv.announce (h1.frame (by rfl)) ..
  · exact h1.frame (by rfl)

theorem mem_listOf {α : Type} {n : Nat} {f : Nat → α} {x : α} (h : x ∈ listOf n f) : ∃ i, f i = x := by
  obtain ⟨i, _, e⟩ := List.mem_map.mp h
  exact ⟨i, e⟩

/-- R382: a context that comes back has S0 zero and P0 true, and the bits that exist alone, whatever the save area holds. -/
theorem State.Inv.restoreContext (h : s.Inv) (q a : Nat) : (s.restoreContext q a).Inv where
  hbm := h.hbm
  sp := h.sp
  s0 := rfl
  p0 := by
    show (BitVec.setWidth 16 _ ||| 1#16).getLsbD 0 = true
    simp
  pol := fun y hy => by
    obtain ⟨i, rfl⟩ := mem_listOf hy
    exact and_mask _ _
  status := and_mask _ _
  cause := h.cause
  mring := and_mask16 _ _

theorem State.Inv.keeps_ctxs (h : s.Inv) (x y : SSrc) : KeepsInv (execCtxs x y s) := by
  unfold execCtxs
  split
  · exact .next (h.restoreContext ..)
  · exact .next (h.saveContext ..)
  · exact h.keeps _

/-! ## Errors (Machine/Errors) -/

theorem State.Inv.spread (h : s.Inv) (job : BitVec 16) (c : Nat) : (s.spread job c).Inv := by
  unfold State.spread
  split
  · exact h
  · exact State.Inv.foldl (fun _ _ hs => hs.hop ..) _ h

theorem State.Inv.fenceHere (h : s.Inv) (job : BitVec 16) : (s.fenceHere job).Inv := by
  unfold State.fenceHere
  refine .ite h ?_
  extract_lets +onlyGivenNames mine runs held qs _ _ s1 s2
  have h1 : s1.Inv := h.frame (by rfl)
  have h2 : s2.Inv := .ite (h1.frame (by rfl)) h1
  exact .ite (h2.announce ..) h2

theorem State.Inv.fenceJob (h : s.Inv) (job : BitVec 16) : (s.fenceJob job).Inv := .ite h ((h.fenceHere job).spread ..)

/-- A cause of the supervisor's own, its reserved bits zero. -/
theorem causeWord_masked {c n : Nat} (e : causeWord c n &&& ~~~0xCFFF#16 = 0) (h : s.Inv) {epc eva : VAddr} {i : DWord} :
    State.Inv { s with k := { s.k with cause := causeWord c n, epc := epc, eva := eva, einfo := i } } :=
  ⟨h.hbm, h.sp, h.s0, h.p0, h.pol, h.status, e, h.mring⟩

theorem State.Inv.releaseHere (h : s.Inv) (job : BitVec 16) : (s.releaseHere job).Inv := by
  unfold State.releaseHere
  refine .ite h (State.Inv.requestSwitch (State.Inv.foldl (fun u q hu => ?_) _ (h.frame (by rfl))))
  exact .ite ((causeWord_masked (c := 3) (n := Cause.resumeRequest.code) (by decide) hu).frame (by rfl)) (hu.notice _)

theorem State.Inv.keeps_quarantineNoticeArrival (h : s.Inv) : KeepsInv (execQuarantineNoticeArrival s) :=
  .next (.ite h (State.Inv.partnersLost (h.frame (by rfl))))

theorem State.Inv.quarantineNode (h : s.Inv) : s.quarantineNode.Inv :=
  .ite h (State.Inv.foldl (fun _ _ hs => hs.hop ..) _ (State.Inv.foldl (fun _ _ hs => hs.fenceJob _) _ (h.frame (by rfl))))

theorem State.Inv.quarantine (h : s.Inv) (c u : Nat) : (s.quarantine c u).Inv := by
  unfold State.quarantine
  split
  · exact h.frame (by rfl)
  · exact (h.dropLink _ 0).frame (by rfl)
  · exact h.quarantineNode

theorem State.Inv.recordTested (h : s.Inv) (t : Selft) (pass : Bool) : (s.recordTested t pass).Inv := by
  unfold State.recordTested
  extract_lets mine s1
  have h1 : s1.Inv := State.Inv.foldl (fun _ _ hs => hs.errorRecord ..) _ h
  exact h1.frame (by rfl)

theorem State.Inv.arriveById (h : s.Inv) (id : Nat) (v : Arrived) : (s.arriveById id v).Inv := by
  unfold State.arriveById
  split
  · exact h.arriveTraced ..
  · exact h.arrive ..

theorem State.Inv.fenceEngine (h : s.Inv) (e : BitVec 16 × Nat) : (s.fenceEngine e).Inv := State.Inv.fenceJob (h.frame (by rfl)) _

theorem State.Inv.selftDone (h : s.Inv) (t : Selft) (fail : Bool) : (s.selftDone t fail).Inv := by
  unfold State.selftDone
  extract_lets +onlyGivenNames old pass sub v jobs s1 _ s2 s3
  have h1 : s1.Inv := h.recordTested ..
  have h2 : s2.Inv := h1.frame (by rfl)
  have h3 : s3.Inv := .ite (h2.quarantine ..) h2
  exact State.Inv.arriveById (State.Inv.foldl (fun _ _ hs => hs.fenceJob _) _ h3) ..

theorem State.Inv.keeps_selftComplete (h : s.Inv) : KeepsInv (execSelftComplete s) := by
  refine .next ?_
  split
  · exact h.selftDone ..
  · exact h

theorem State.Inv.inSnapshot (h : s.Inv) (f : Snap → Snap) : (s.inSnapshot f).Inv := by
  unfold State.inSnapshot
  split <;> exact h.frame (by rfl)

/-- R407: a register that has been lost reads zero, but for P0; zero has no reserved bit set. -/
theorem State.Inv.lostWord (h : s.Inv) (w : ErrWhere) : (s.lostWord w).Inv := by
  unfold State.lostWord
  split
  case h_2 b i => cases b <;> exact h.frame (by rfl)
  case h_4 i => exact h.inSnapshot _
  case h_5 => exact h.inSnapshot _
  case h_6 n => exact h.writeP ..
  case h_9 => exact ⟨h.hbm, h.sp, h.s0, h.p0, h.pol, BitVec.zero_and, h.cause, h.mring⟩
  case h_10 n => exact h.setK ..
  case h_11 n =>
    refine ⟨h.hbm, h.sp, h.s0, h.p0, fun y hy => ?_, h.status, h.cause, h.mring⟩
    obtain ⟨i, hi, rfl⟩ := List.mem_iff_getElem.mp hy
    rw [List.getElem_modify]
    split
    · exact BitVec.zero_and
    · exact h.pol _ (List.getElem_mem _)
  case h_12 => exact ⟨h.hbm, h.sp, h.s0, h.p0, h.pol, h.status, h.cause, BitVec.zero_and⟩
  case h_16 n =>
    refine ⟨h.hbm, h.sp, ?_, h.p0, h.pol, h.status, h.cause, h.mring⟩
    have h0 := h.s0
    show (s.regs.s.set n 0).head? = some 0
    cases n with
    | zero => cases hs : s.regs.s with
      | nil => rw [hs] at h0; exact h0
      | cons a l => rfl
    | succ n => exact (List.head?_set_pos _ _ _ (Nat.succ_pos n)).trans h0
  case h_19 v a => exact h.withSp (Memory.wf_write _ _ h.sp)
  all_goals exact h.frame (by rfl)

theorem State.Inv.foundHeld (h : s.Inv) (t : Trap) (c : BitVec 16) (loss : Bool) : (s.foundHeld t c loss).Inv := by
  unfold State.foundHeld
  split
  · exact .ite (h.frame (by rfl)) (h.frame (by rfl))
  · exact h.frame (by rfl)

theorem State.Inv.eccError (h : s.Inv) (w : ErrWhere) : (s.eccError w).Inv := by
  unfold State.eccError
  split
  · exact h.frame (by rfl)
  · exact .ite (h.frame (by rfl)) h
  · split
    · rename_i e
      split at e
      · exact h.commandStops e
      · cases e
    · split
      extract_lets +onlyGivenNames t s1 s2 c1
      have h1 : s1.Inv := h.frame (by rfl)
      have h2 : s2.Inv := .ite (h1.lostWord w) h1
      exact .ite (h2.takeTrap _) (.ite (h2.foundHeld ..) (.ite (State.Inv.strike (.ite h2 h2.endStall) _) (State.Inv.enter (h2.frame (by rfl)) ..)))

/-! ## The host and the package (Machine/HostOps) -/

theorem State.Inv.keeps_hostMemoryWrite (h : s.Inv) : KeepsInv (execHostMemoryWrite s) := by
  refine .next ?_
  split
  · exact h
  · exact .ite (h.frame (by rfl)) (h.writeHome ..)

theorem State.Inv.keeps_hostMemoryRead (h : s.Inv) : KeepsInv (execHostMemoryRead s) := by
  refine .next (.ite (h.frame (by rfl)) (.ite (h.frame (by rfl)) ?_))
  split
  · exact h
  · exact .ite (h.frame (by rfl)) (h.frame (by rfl))

theorem State.Inv.loadImage (h : s.Inv) (slot : Nat) : (s.loadImage slot).Inv :=
  State.Inv.foldl (fun _ _ hs => hs.writeHbm ..) _ (h.withHbm (Memory.wf_clear _ _ h.hbm))

theorem State.Inv.atStep (h : s.Inv) (n : Nat) : (s.atStep n).Inv := h.frame (by rfl)

theorem State.Inv.bringFails (h : s.Inv) (n : Nat) : (s.bringFails n).Inv := h.frame (by rfl)

theorem State.Inv.firmwareUp (h : s.Inv) : s.firmwareUp.Inv := by
  unfold State.firmwareUp
  extract_lets a b start
  have hs {u : State} (hu : u.Inv) (n : Nat) : (start u n).Inv := hu.frame (by rfl)
  exact .ite (hs (h.loadImage _) _) (.ite (hs ((h.loadImage _).loadImage _) _) (((h.loadImage _).loadImage _).bringFails _))

theorem State.Inv.linksUp (h : s.Inv) (b : Bring) : (s.linksUp b).Inv := h.frame (by rfl)

theorem KRegs.relink_fields (k : KRegs) : k.relink.status = k.status ∧ k.relink.cause = k.cause ∧ k.relink.mring = k.mring := by
  rw [KRegs.relink]
  exact ⟨rfl, rfl, rfl⟩

theorem State.Inv.usableUp (h : s.Inv) (b : Bring) : (s.usableUp b).Inv :=
  (h.withK (KRegs.relink_fields { s.k with detour := detourReset })).frame (by rfl)

theorem State.Inv.tokenUp (h : s.Inv) : s.tokenUp.Inv := .ite (State.Inv.passToken (h.frame (by rfl))) (h.frame (by rfl))

theorem State.Inv.bringUp (h : s.Inv) : s.bringUp.Inv := by
  unfold State.bringUp
  split
  · exact h
  · refine .ite (h.bringFails _) ?_
    split
    · exact h.atStep 1
    · exact h.firmwareUp
    · exact (h.linksUp _).atStep 3
    · exact h.atStep 4
    · exact (h.usableUp _).atStep 5
    · exact h.tokenUp.atStep 6
    · exact .ite (h.frame (by rfl)) h

theorem rebuilt_inv (s : State) (node : BitVec 14) : (s.rebuilt node).Inv := reset_inv.frame (by rfl)

theorem State.Inv.nodeReset (h : s.Inv) : s.nodeReset.Inv := by
  unfold State.nodeReset
  extract_lets +onlyGivenNames s1
  have h1 : s1.Inv := (State.Inv.foldl (fun _ _ hs => (hs.announceReset _).resetJob ..) s.jobsHere h).frame (by rfl)
  clear_value s1
  have hr := rebuilt_inv s1 s1.k.nodeId
  exact ⟨h1.hbm, h1.sp, hr.s0, hr.p0, hr.pol, hr.status, hr.cause, hr.mring⟩

theorem powerUp_inv (s : State) (n : BitVec 14) : (s.powerUp n).Inv := (rebuilt_inv s n).frame (by rfl)

theorem State.Inv.keeps_powerOn : KeepsInv (execPowerOn s) := .next (powerUp_inv ..)

theorem State.Inv.keeps_pstateWrite (h : s.Inv) : KeepsInv (execPstateWrite s) :=
  .next (.ite (.ite h ((powerUp_inv s s.k.nodeId).frame (by rfl))) (.ite (h.frame (by rfl)) (h.frame (by rfl))))

theorem State.Inv.keeps_powerStateChange (h : s.Inv) : KeepsInv (execPowerStateChange s) := by
  refine .next ?_
  split
  · exact .ite h (.ite ((rebuilt_inv s s.k.nodeId).frame (by rfl)) (h.frame (by rfl)))
  · exact h

theorem State.Inv.hostWrite (h : s.Inv) (r : HostReg) (v : DWord) : (s.hostWrite r v).Inv := by
  cases r with
  | pwrcap => exact .ite (h.frame (by rfl)) h
  | _ => exact h.frame (by rfl)

theorem State.Inv.keeps_migrq (h : s.Inv) : KeepsInv (execMigrq s) := .next (h.frame (by rfl))

theorem State.Inv.keeps_featack (h : s.Inv) : KeepsInv (execFeatack s) := .next (.ite h (h.frame (by rfl)))

theorem State.Inv.keeps_msixUnmask (h : s.Inv) : KeepsInv (execMsixUnmask s) := .next (.ite (h.frame (by rfl)) (.ite (h.frame (by rfl)) h))

theorem State.Inv.keeps_thermalTrip (h : s.Inv) : KeepsInv (execThermalTrip s) := by
  unfold execThermalTrip
  extract_lets +onlyGivenNames s1 s2
  have h1 : s1.Inv := h.errorRecord ..
  have h2 : s2.Inv := State.Inv.foldl (fun _ _ hs => hs.announce ..) _ h1
  clear_value s2
  exact .next (h2.frame (by rfl))

theorem State.Inv.keeps_flashWriteDone (h : s.Inv) : KeepsInv (execFlashWriteDone s) := by
  refine .next ?_
  split
  · exact h
  · exact .ite (h.frame (by rfl)) (h.frame (by rfl))

theorem State.Inv.attest (h : s.Inv) (n : BitVec 256) : (s.attest n).Inv := .ite h (.ite (h.frame (by rfl)) (h.frame (by rfl)))

theorem State.Inv.keeps_attestationComplete (h : s.Inv) : KeepsInv (execAttestationComplete s) := by
  refine .next (.ite h ?_)
  split <;> exact h.frame (by rfl)

theorem State.Inv.keeps_trrdWrite (h : s.Inv) : KeepsInv (execTrrdWrite s) := .next (State.Inv.flushTrace (h.frame (by rfl)) _)

theorem State.Inv.keeps_fencerel (h : s.Inv) : KeepsInv (execFencerel s) := .next ((h.releaseHere _).spread ..)

theorem State.Inv.keeps_controlWrite (h : s.Inv) (o : Nat) (v : DWord) : KeepsInv (s.controlWrite o v) := by
  unfold State.controlWrite
  extract_lets +onlyGivenNames _ t
  have h1 : t.Inv := h.frame (by rfl)
  split
  · exact .ite (.next h.nodeReset) (.next (h.frame (by rfl)))
  · exact .next (h.hostWrite ..)
  · exact .next (h.hostWrite ..)
  · exact h1.keeps_trrdWrite
  · exact .next (h.hostWrite ..)
  · exact .next (h.hostWrite ..)
  · exact .next (h1.frame (by rfl))
  · exact .next (h.hostWrite ..)
  · exact .next (h.hostWrite ..)
  · exact .next (h.hostWrite ..)
  · exact State.Inv.keeps_fencerel (h1.frame (by rfl))
  · exact h1.keeps_migrq
  · exact .next (h1.frame (by rfl))
  · exact h1.keeps_featack
  · exact h1.keeps_pstateWrite
  · exact .next (h.hostWrite ..)
  · exact .next (h1.frame (by rfl))
  · exact .next (h.hostWrite ..)
  · exact .next h

theorem State.Inv.packageWrite (h : s.Inv) (o : Nat) (bs : List Byte) : (s.packageWrite o bs).Inv :=
  .ite (h.frame (by rfl)) (.ite (.ite (h.attest _) h) (.ite (h.hostWrite ..)
    (.ite (.ite (h.frame (by rfl)) h) (.ite (.ite (h.frame (by rfl)) h) (.ite (h.frame (by rfl)) h)))))

theorem State.Inv.keeps_hostRegisterWrite (h : s.Inv) : KeepsInv (execHostRegisterWrite s) := by
  unfold execHostRegisterWrite
  extract_lets o
  refine .ite (.next (h.hostWrite ..)) (.ite (.next (h.packageWrite ..)) (.ite ?_ (.next h)))
  have hc := h.keeps_controlWrite (o % 0x10000) (BitVec.ofNat 64 (leNat s.ev.bytes))
  split
  · rename_i e; exact .next ((hc.inv _ e).frame (by rfl))
  · exact hc

end
end Sys2Proof.Machine
end

section
/-! # O57, O56: one step keeps the invariant -/

namespace Sys2Proof.Machine

section
variable {s : State}

/-- Whatever an instruction or an event does: its issue is settled, or it is one of those that act on the state themselves. -/
theorem State.Inv.keeps_exec (h : s.Inv) (i : Instr) : KeepsInv (exec i s) := by
  cases i
  case resultLanding => exact h.keeps_resultLanding
  case resultArrival => exact h.keeps_resultArrival
  case branchRedirectDue => exact .next (h.advance ..)
  case outsideRegionLimit => exact h.keeps_outsideRegionLimit
  case illegalEncoding => exact h.keeps_illegalEncoding
  case translationWalkComplete => exact h.keeps_translationWalkComplete
  case chunkCommit => exact h.keeps_nextChunk
  case bufferEntryDrain => exact h.keeps_bufferEntryDrain
  case mmacExecute => exact h.keeps_mmacExecute
  case manchExecute => exact h.keeps_manchExecute
  case mzeroExecute => exact h.keeps_mzeroExecute
  case mloadcExecute => exact h.keeps_mloadcExecute
  case mdrainExecute => exact h.keeps_mdrainExecute
  case scatterComplete => exact h.keeps_scatterComplete
  case cpyl => exact h.keeps_cpyIssue ..
  case cpy2 => exact h.keeps_cpyIssue ..
  case cpyw => exact h.keeps_cpyIssue ..
  case cpyx => exact h.keeps_cpyIssue ..
  case copyAdmission => exact h.keeps_copyAdmission
  case copyComplete => exact h.keeps_copyComplete
  case engineError =>
    refine .next ?_
    cases e : s.commandStops s.ev.id with
    | none => exact h
    | some t => exact h.commandStops e
  case vaultAcquisitionGrant => exact h.keeps_vaultAcquisitionGrant
  case vaultReleaseComplete => exact h.keeps_vaultReleaseComplete
  case scrubComplete => exact h.keeps_scrubComplete
  case exchangePostArrival => exact .next (h.postArrives _)
  case exchangeDataArrival => exact .next (h.dataArrives _)
  case exchangeAckArrival => exact .next (h.ackArrives _)
  case linkPacketArrival => exact .next (h.linkArrives ..)
  case linkDown => exact .next (.ite (h.dropLink ..) h)
  case linkRepair => exact .next (.ite h (h.repair _))
  case route => exact .next (.ite (h.transmit _) (h.routeOne _))
  case suspectTimeout => exact h.suspectTimeout
  case flowPacketArrival => exact .next ((h.flowArrive ..).serialRun _)
  case sequenceAckSend => exact .next (.ite (State.Inv.sendControl (h.frame (by rfl)) ..) h)
  case sequenceAckArrival => exact .next (State.Inv.seqAck (.ite h (h.answered _)) _)
  case retransmitTimeout => exact .next (h.retransmit _)
  case flowRetire => exact h.keeps_flowRetire
  case remoteResponseArrival => exact .next (h.answered _)
  case pilotTokenArrival => exact .next (h.tokenArrives _)
  case ejectionReportArrival => exact .next (.ite h.passToken h)
  case tokenLossTimeout => exact h.keeps_tokenLossTimeout
  case waitProbeArrival => exact .next (h.probeArrives _)
  case probeTimeout => exact h.keeps_probeTimeout
  case shootDownArrival => exact .next (h.shotDown _)
  case shootDownAcknowledge => exact h.keeps_shootDownAcknowledge
  case shootDownAckArrival => exact .next (h.frame (by rfl))
  case gmaskExecute => exact h.keeps_gmaskExecute
  case sampleExecute => exact h.keeps_sampleExecute
  case slotWrite => exact .next (.ite (h.slotWrite ..) (h.launchWrite ..))
  case queueStart => exact h.keeps_queueStart
  case graceExpiry => exact h.keeps_graceExpiry
  case presenceNoticeArrival => exact .next (h.noticeArrives _)
  case serviceHoldTimeout => exact h.keeps_serviceHoldTimeout
  case watchdogExpiry => exact .next (.ite (h.urgent ..) h)
  case barrierArrival => exact h.keeps_barrierArrival
  case barrierStepArrival => exact .next (h.stepArrives _)
  case fenceNoticeArrival => exact .next ((h.fenceHere _).forwardNotice _)
  case releaseNoticeArrival => exact .next ((h.releaseHere _).forwardNotice _)
  case quarantineNoticeArrival => exact h.keeps_quarantineNoticeArrival
  case rft => exact h.keeps_rft
  case qrst => exact h.keeps_qrst _
  case ctxs => exact h.keeps_ctxs ..
  case uncorrectableError => exact .next (h.eccError _)
  case correctableError => exact .next (h.frame (by rfl))
  case selftComplete => exact h.keeps_selftComplete
  case hostInterrupt => exact .next (.ite (h.urgent ..) (h.notice _))
  case hostMemoryWrite => exact h.keeps_hostMemoryWrite
  case hostMemoryRead => exact h.keeps_hostMemoryRead
  case nodeReset => exact .next h.nodeReset
  case traceOn => exact .next (h.frame (by rfl))
  case dataMode => exact .next (h.frame (by rfl))
  case breakpointHaltsEnabled => exact .next (h.frame (by rfl))
  case releaseHalt => exact .next (h.frame (by rfl))
  case trrdWrite => exact h.keeps_trrdWrite
  case elrdWrite => exact .next (h.frame (by rfl))
  case fencerel => exact h.keeps_fencerel
  case migrq => exact h.keeps_migrq
  case featack => exact h.keeps_featack
  case hintClear => exact .next (h.frame (by rfl))
  case hintenWrite => exact .next (h.frame (by rfl))
  case msixUnmask => exact h.keeps_msixUnmask
  case pstateWrite => exact h.keeps_pstateWrite
  case powerStateChange => exact h.keeps_powerStateChange
  case flashBlockWrite => exact .next (h.frame (by rfl))
  case flashWriteDone => exact h.keeps_flashWriteDone
  case flashSlotSelect => exact .next (.ite (h.frame (by rfl)) h)
  case attestationRequest => exact .next (h.attest _)
  case attestationComplete => exact h.keeps_attestationComplete
  case hostRegisterWrite => exact h.keeps_hostRegisterWrite
  case powerOn => exact State.Inv.keeps_powerOn
  case throttle => exact .next (h.frame (by rfl))
  case thermalTrip => exact h.keeps_thermalTrip
  case telemetryRefresh => exact .next (h.frame (by rfl))
  case powerLoss => exact .next ((rebuilt_inv s s.k.nodeId).frame (by rfl))
  case vsel => unfold exec execVsel; exact h.keeps _
  case vins => unfold exec execVins; exact h.keeps _
  case vrot => unfold exec execVrot; exact h.keeps _
  case vperm => unfold exec execVperm; exact h.keeps _
  all_goals
    unfold exec
    exact h.keeps _

/-! ## One clock of the sequencer (Machine/Run) -/

theorem State.Inv.keeps_runSlot (h : s.Inv) (sl : Slot) : KeepsInv (s.runSlot sl) := .ite (h.keeps_exec _) (h.keeps _)

theorem State.Inv.atSlot (h : s.Inv) (n : Nat) : State.Inv { s with seq := { s.seq with bun := { s.seq.bun with slot := n } } } := h.frame (by rfl)

theorem State.Inv.laterFatal (h : s.Inv) (l : List (Nat × Slot)) {t : State} (e : laterFatal l s = some t) : t.Inv := by
  induction l generalizing s with
  | nil => cases e
  | cons x l ih =>
    obtain ⟨n, sl⟩ := x
    have hn := h.atSlot n
    unfold Machine.laterFatal at e
    extract_lets +onlyGivenNames _ _ u at e
    split at e
    · rename_i v hv
      have hvi : v.Inv := (hn.keeps_runSlot sl).inv _ hv
      split at e
      · split at e
        · cases e; exact hvi
        · exact ih hn e
      · split at e
        · exact ih hn e
        · exact ih hvi e
    · cases e

theorem State.Inv.keeps_runSlots (h : s.Inv) (l : List (Nat × Slot)) : KeepsInv (runSlots l s) := by
  induction l generalizing s with
  | nil => exact .next h
  | cons x l ih =>
    obtain ⟨n, sl⟩ := x
    have hn := h.atSlot n
    have hr := hn.keeps_runSlot sl
    unfold runSlots
    extract_lets +onlyGivenNames _ _ u
    split
    · rename_i v hv
      have hvi : v.Inv := hr.inv _ hv
      split
      · refine .next (.ite hvi ?_)
        cases e : Machine.laterFatal l u with
        | none => exact hvi
        | some t => exact hn.laterFatal l e
      · exact .ite (.next hvi) (ih hvi)
    · exact hr

theorem State.Inv.fetched (h : s.Inv) : s.fetched.Inv := h.frame (by rfl)

theorem State.Inv.withSlot (h : s.Inv) (n : Nat) : (s.withSlot n).Inv := h.frame (by rfl)

theorem State.Inv.withCrc (h : s.Inv) (bs : List Byte) : (s.withCrc bs).Inv := h.frame (by rfl)

theorem State.Inv.crcBack (h : s.Inv) (old : State) : (s.crcBack old).Inv := by
  unfold State.crcBack
  split
  · exact h.frame (by rfl)
  · exact h

theorem State.Inv.keepWords (h : s.Inv) (ws : List (BitVec 32)) : (s.keepWords ws).Inv := .ite (h.frame (by rfl)) h

/-- A bundle that takes a cause at a slot takes it on the state that it began with. -/
theorem State.Inv.rejected (h : s.Inv) (n : Nat) (c : Trap) : (s.rejected n c).Inv := ((h.fetched.withSlot n).endStall.takeTrap c).tick false

theorem State.Inv.keeps_finish (h : s.Inv) (ws : List (BitVec 32)) (bytes : List Byte) (slots : List (Nat × Slot)) {t : State} (ht : t.Inv) :
    KeepsInv (s.finish ws bytes slots t) := by
  unfold State.finish
  extract_lets n
  split
  · exact .next (h.rejected ..)
  · split
    · refine .ite ?_ (.next (h.stallClock ..))
      split
      · rename_i sl _
        have hr := ((h.withCrc bytes).withSlot n).keeps_runSlot sl
        split
        · rename_i e
          exact .next (State.Inv.stallClock (((hr.inv _ e).crcBack s).keepWords ws) ..)
        · exact hr
      · exact .next (h.stallClock ..)
    · exact .next (State.Inv.tick ((ht.fetched.endBundle s.seq.pc).frame (by rfl)) false)

theorem State.Inv.keeps_bundle (h : s.Inv) (ws : List (BitVec 32)) : KeepsInv (s.bundle ws) := by
  unfold State.bundle
  split
  · exact .next (h.rejected ..)
  · exact .next (h.stallClock ..)
  · rename_i slots _
    have hb := (h.endStall.noteReads slots).withCrc (ws.flatMap fun w => toBytes 4 w.toNat)
    extract_lets
    split
    · rename_i e; exact h.keeps_finish ws _ slots ((State.Inv.keeps_runSlots (hb.frame (by rfl)) slots).inv _ e)
    · exact State.Inv.keeps_runSlots (hb.frame (by rfl)) slots

theorem State.Inv.reopen (h : s.Inv) (r : Region) : (s.reopen r).Inv := by
  unfold State.reopen
  extract_lets +onlyGivenNames _ _ s1 s2 s3
  have h1 : s1.Inv := State.Inv.tagOpened (h.endStall.frame (by rfl))
  have h2 : s2.Inv := h1.endBundle s.seq.pc
  clear_value s2
  exact State.Inv.tick (h2.frame (by rfl)) false

theorem State.Inv.keeps_fetchStops (h : s.Inv) (i : Issue) : KeepsInv (s.fetchStops i) := by
  cases i with
  | trap t => exact .next ((h.fetched.endStall.takeTrap _).tick false)
  | halt f => exact .fault
  | stall c => exact .next (h.stallClock ..)
  | pause es c => exact .next ((h.applyAll es).stallClock ..)
  | done es => exact .next ((h.applyAll es).tick false)

theorem State.Inv.keeps_issueNext (h : s.Inv) : KeepsInv s.issueNext := by
  unfold State.issueNext
  refine .ite (h.keeps_bundle _) ?_
  split
  · exact h.keeps_fetchStops _
  · rename_i x _
    extract_lets u
    have hu : u.Inv := h.frame (by rfl)
    split
    · exact hu.keeps_fetchStops _
    · split
      · exact .ite (.next (hu.stallClock ..)) (.ite (.next (hu.stallClock ..)) (.ite (.next (hu.fetched.reopen _)) (hu.keeps_bundle _)))
      · exact .ite (State.Inv.keeps_exec hu.fetched.endStall _) (hu.keeps_bundle _)

theorem State.Inv.heldWaiting (h : s.Inv) (o : Opening) : (s.heldWaiting o).Inv := by
  unfold State.heldWaiting
  split
  rename_i loops next _
  extract_lets +onlyGivenNames epc _ s1 w s2
  have h1 : s1.Inv := ((h.withSeq { s.seq with loops := loops }).openRegion o epc).frame (by rfl)
  clear_value s1
  have h2 : s2.Inv := h1.frame (by rfl)
  exact h2.boundary epc false

theorem State.Inv.keeps_clockStep (h0 : s.Inv) : KeepsInv s.clockStep := by
  unfold State.clockStep
  extract_lets +onlyGivenNames s1 _ t
  have h : t.Inv := State.Inv.bringUp ((h0.flushTrace s.hst.traceQ.length).frame (by rfl))
  clear_value t
  refine .ite (.next (h.tick _)) (.ite (.next (State.Inv.stallClock (h.frame (by rfl)) ..)) (.ite (.next (h.stallClock ..))
    (.ite (.next (h.stallClock ..)) (.ite (.next ?_) (.ite (.next ?_) (.ite (.next (State.Inv.tick (State.Inv.boundary (h.frame (by rfl)) ..) _))
    (.ite (.next (h.endStall.boundary ..)) (.ite (.next ?_) (.ite (.next (h.stallClock ..))
    (.ite (.ite h.endStall.keeps_outsideRegionLimit (.next (h.endStall.emptyBundle.tick _))) ?_))))))))))
  · split
    · exact h.fenceEngine _
    · exact h
  · split
    · exact h.faultOf ..
    · exact h
  · split
    · exact h.endStall.heldWaiting _
    · exact h
  · split
    · exact .next (State.Inv.enterAt (h.endStall.frame (by rfl)) ..)
    · exact h.keeps_issueNext

theorem State.Inv.keeps_step (h : s.Inv) : KeepsInv (step s) := by
  unfold step State.advanceOne
  split
  · extract_lets +onlyGivenNames u
    have hu : u.Inv := h.frame (by rfl)
    exact .ite (hu.keeps_exec _) (.next hu)
  · split
    · exact State.Inv.keeps_exec (h.frame (by rfl)) _
    · split
      · exact h.keeps_clockStep
      · extract_lets u
        have hu : u.Inv := h.frame (by rfl)
        split
        · exact State.Inv.keeps_exec (hu.frame (by rfl)) _
        · exact hu.keeps_clockStep

end

end Sys2Proof.Machine

namespace Sys2Proof.Proofs
open Sys2Proof Sys2Proof.Machine

/-- Settles O56: the memories are empty, the registers zero but for P0. -/
theorem invariantAtReset : Obligations.InvariantAtReset := reset_inv

/-- Settles O57: every instruction, every event and every clock keeps the invariant. -/
theorem stepKeepsInvariant : Obligations.StepKeepsInvariant := fun _ _ h e => h.keeps_step.inv _ e

end Sys2Proof.Proofs
end

section
/-! # O1, O2: the ALU operations, the divisions and the immediate forms (02_registers, R71 to R78) -/

namespace Sys2Proof.Machine

/-! ## The operand and the result at the width of the type (R71) -/

/-- The number that a word of the type's width stands for. -/
def ityValue (t : ITy) (a : BitVec (ityWidth t)) : Int := if itySigned t then a.toInt else a.toNat

theorem ityRead_eq_ityValue (t : ITy) (x : DWord) : ityRead t x = ityValue t (x.setWidth (ityWidth t)) := by
  cases t <;> simp [ityRead, ityValue, itySigned, ityWidth]

/-- A result computed on exact numbers is the result computed on words, if the two agree in the width of the type. -/
theorem ityWrite_eq_atWidth {t : ITy} {v : Int} {f : (w : Nat) → BitVec w → BitVec w → BitVec w} {x y : DWord}
    (h : BitVec.ofInt (ityWidth t) v = f (ityWidth t) (x.setWidth _) (y.setWidth _)) : ityWrite t v = atWidth t f x y := by
  cases t with
  | i32 => exact congrArg (BitVec.signExtend 64) h
  | z32 => exact congrArg (BitVec.setWidth 64) h
  | i64 => simpa [ityWidth, ityWrite, atWidth] using h
  | z64 => simpa [ityWidth, ityWrite, atWidth] using h

section
variable (t : ITy) (a b : BitVec (ityWidth t))

@[simp] theorem ofInt_ityValue : BitVec.ofInt (ityWidth t) (ityValue t a) = a := by
  rw [ityValue]
  split
  · exact BitVec.ofInt_toInt
  · simp

theorem ityValue_eq_zero : ityValue t b = 0 ↔ b = 0 := by
  refine ⟨fun h => ?_, fun h => ?_⟩
  · simpa [h] using (ofInt_ityValue t b).symm
  · simp [h, ityValue]

theorem ityBits_eq (v : Int) : ityBits t v = (BitVec.ofInt (ityWidth t) v).toNat := by simp [ityBits]

theorem itySext_eq (v : Int) : itySext t v = (BitVec.ofInt (ityWidth t) v).toInt := by simp [itySext, BitVec.toInt_ofInt]

@[simp] theorem ityBits_ityValue : ityBits t (ityValue t a) = a.toNat := by simp [ityBits_eq]

@[simp] theorem itySext_ityValue : itySext t (ityValue t a) = a.toInt := by simp [itySext_eq]

theorem ityValue_lt_iff : ityValue t a < ityValue t b ↔ (if itySigned t then a.slt b else a.ult b) = true := by
  cases h : itySigned t <;> simp [ityValue, h, BitVec.slt, BitVec.ult]

theorem ityValue_emod : ityValue t b % ((2 ^ ityWidth t : Nat) : Int) = (b.toNat : Int) % ((2 ^ ityWidth t : Nat) : Int) := by
  rw [ityValue]
  split
  · rw [BitVec.toInt_eq_toNat_bmod, Int.bmod_emod]
  · rfl

@[simp] theorem shiftCount_ityValue : shiftCount t (ityValue t b) = b.toNat % ityWidth t := by
  have hdvd : ((ityWidth t : Nat) : Int) ∣ ((2 ^ ityWidth t : Nat) : Int) := by cases t <;> exact Int.natCast_dvd_natCast.2 (by decide)
  rw [shiftCount, ← Int.emod_emod_of_dvd _ hdvd, ityValue_emod, Int.emod_emod_of_dvd _ hdvd]
  rfl

theorem ityWidth_pos : 0 < ityWidth t := by cases t <;> decide

end

/-! ## Words against exact numbers -/

section
variable {w : Nat}

theorem ofNat_toNat_shiftRight (a : BitVec w) (k : Nat) : BitVec.ofNat w (a.toNat / 2 ^ k) = a >>> k := by
  apply BitVec.eq_of_toNat_eq
  have h : a.toNat / 2 ^ k < 2 ^ w := Nat.lt_of_le_of_lt (Nat.div_le_self ..) a.isLt
  simp [Nat.shiftRight_eq_div_pow, Nat.mod_eq_of_lt h]

theorem ofInt_mul_two_pow (v : Int) (k : Nat) : BitVec.ofInt w (v * 2 ^ k) = BitVec.ofInt w v <<< k := by
  have hpow : BitVec.ofInt w (2 ^ k) = BitVec.twoPow w k := by
    apply BitVec.eq_of_toNat_eq
    rw [← Nat.cast_ofNat, ← Nat.cast_pow, BitVec.ofInt_natCast, BitVec.toNat_ofNat, BitVec.toNat_twoPow]
  rw [BitVec.ofInt_mul, BitVec.shiftLeft_eq_mul_twoPow, hpow]

theorem ofNat_toNat_rotate (a : BitVec w) {k : Nat} (h : k < w) :
    BitVec.ofNat w (a.toNat * 2 ^ k + a.toNat / 2 ^ (w - k)) = a.rotateLeft k := by
  have hdisj : (a <<< k) &&& (a >>> (w - k)) = 0#w := by
    ext i hi
    simp only [BitVec.getElem_and, BitVec.getElem_shiftLeft, BitVec.getElem_ushiftRight, BitVec.getElem_zero]
    by_cases hik : i < k
    · simp [hik]
    · simp [BitVec.getLsbD_of_ge a (w - k + i) (by omega)]
  have hl : BitVec.ofNat w (a.toNat * 2 ^ k) = a <<< k := by
    apply BitVec.eq_of_toNat_eq
    rw [BitVec.toNat_ofNat, BitVec.toNat_shiftLeft, Nat.shiftLeft_eq]
  rw [BitVec.ofNat_add, hl, ofNat_toNat_shiftRight, BitVec.add_eq_or_of_and_eq_zero _ _ hdisj, BitVec.rotateLeft_def, Nat.mod_eq_of_lt h]

/-- The upper half of a number of `2 * w` bits. -/
theorem extractLsb'_ofInt_high (v : Int) : (BitVec.ofInt (2 * w) v).extractLsb' w w = BitVec.ofInt w (v / 2 ^ w) := by
  have hm : (2 : Int) ^ w ≠ 0 := by positivity
  have hv : v / 2 ^ w = v % 2 ^ (2 * w) / 2 ^ w + 2 ^ w * (v / 2 ^ (2 * w)) := by
    conv_lhs => rw [← Int.emod_add_mul_ediv v (2 ^ (2 * w)), two_mul w, pow_add, mul_assoc, Int.add_mul_ediv_left _ _ hm]
    rw [two_mul w, pow_add]
  obtain ⟨r, hr⟩ := Int.eq_ofNat_of_zero_le (Int.emod_nonneg v (show (2 : Int) ^ (2 * w) ≠ 0 by positivity))
  apply BitVec.eq_of_toNat_eq
  rw [BitVec.extractLsb'_toNat, BitVec.toNat_ofInt, BitVec.toNat_ofInt, hv, Nat.shiftRight_eq_div_pow]
  push_cast
  rw [Int.add_mul_emod_self_left, hr]
  norm_cast

/-- The leading places of a range that satisfy a predicate. -/
theorem length_takeWhile_range {p : Nat → Bool} {n k : Nat} (hk : k ≤ n) (hlt : ∀ i, i < k → p i = true) (hat : k < n → p k = false) :
    ((List.range n).takeWhile p).length = k := by
  obtain ⟨m, rfl⟩ := Nat.exists_eq_add_of_le hk
  rw [List.range_add, List.takeWhile_append_of_pos (by simpa using hlt)]
  cases m with
  | zero => simp
  | succ m => simp [List.range_succ_eq_map, hat (by omega)]

theorem length_leadingZeros (a : BitVec w) :
    ((List.range w).takeWhile fun i => !a.getMsbD i).length = if a.toNat = 0 then w else w - 1 - Nat.log2 a.toNat := by
  split
  · next h =>
    have ha : a = 0#w := BitVec.eq_of_toNat_eq h
    exact length_takeWhile_range le_rfl (by simp [ha]) (by omega)
  · next h =>
    have hL : Nat.log2 a.toNat < w := (Nat.log2_lt h).2 a.isLt
    refine length_takeWhile_range (by omega) (fun i hi => ?_) (fun hi => ?_)
    · have hlt : a.toNat < 2 ^ (w - 1 - i) := Nat.lt_of_lt_of_le Nat.lt_log2_self (Nat.pow_le_pow_right (by decide) (by omega))
      simp [BitVec.getMsbD, BitVec.getLsbD, Nat.testBit_lt_two_pow hlt]
    · have e : w - 1 - (w - 1 - Nat.log2 a.toNat) = Nat.log2 a.toNat := by omega
      simp [BitVec.getMsbD, BitVec.getLsbD, e, Nat.testBit_log2 h]
      omega

/-! ### Bits counted and reversed -/

theorem foldl_count {α : Type} (p : α → Bool) (l : List α) (c : Nat) :
    l.foldl (fun n i => if p i then n + 1 else n) c = c + l.countP p := by
  induction l generalizing c with
  | nil => rfl
  | cons x xs ih =>
    rw [List.foldl_cons, ih, List.countP_cons]
    split <;> omega

theorem popc_ofNat (a : BitVec w) {n : Nat} (h : w ≤ n) : popc (BitVec.ofNat n a.toNat) = (List.range w).countP fun i => a.getLsbD i := by
  obtain ⟨m, rfl⟩ := Nat.exists_eq_add_of_le h
  have e : BitVec.ofNat (w + m) a.toNat = a.setWidth (w + m) := by simp
  rw [popc, foldl_count, e, List.range_add, List.countP_append, List.countP_map]
  have hlow : (List.range w).countP (fun i => (a.setWidth (w + m)).getLsbD i) = (List.range w).countP fun i => a.getLsbD i :=
    List.countP_congr fun i hi => by
      have := List.mem_range.1 hi
      simp [BitVec.getLsbD_setWidth]; omega
  have hhigh : (List.range m).countP ((fun i => (a.setWidth (w + m)).getLsbD i) ∘ (w + ·)) = 0 :=
    List.countP_eq_zero.2 fun i _ => by simp [BitVec.getLsbD_setWidth]
  rw [hlow, hhigh]; omega

/-- The number whose binary digits are the lowest `k` bits of `n`, the lowest first. -/
def digitsUp (n : Nat) : Nat → Nat
  | 0 => 0
  | k + 1 => 2 * digitsUp n k + (n.testBit k).toNat

theorem testBit_digitsUp (n k j : Nat) : (digitsUp n k).testBit j = (decide (j < k) && n.testBit (k - 1 - j)) := by
  induction k generalizing j with
  | zero => simp [digitsUp]
  | succ k ih =>
    cases j with
    | zero => cases h : n.testBit k <;> simp [digitsUp, h, Nat.testBit_zero]
    | succ j =>
      have e : digitsUp n (k + 1) / 2 = digitsUp n k := by
        have := Bool.toNat_lt (n.testBit k)
        simp only [digitsUp]; omega
      rw [Nat.testBit_succ, e, ih, show k + 1 - 1 - (j + 1) = k - 1 - j by omega]
      simp

theorem foldl_reverse (n : Nat) {k : Nat} (h : k ≤ w) :
    (List.range k).foldl (fun (m : Int) i => if n.testBit i then m + 2 ^ (w - 1 - i) else m) 0 = ((2 ^ (w - k) * digitsUp n k : Nat) : Int) := by
  induction k with
  | zero => rfl
  | succ k ih =>
    have e : 2 ^ (w - k) = 2 * 2 ^ (w - 1 - k) := by rw [← Nat.pow_succ']; congr 1; omega
    rw [List.range_succ, List.foldl_append, ih (by omega), e, show w - (k + 1) = w - 1 - k by omega, digitsUp]
    cases h : n.testBit k <;> simp [h] <;> ring

theorem ofNat_digitsUp (a : BitVec w) : BitVec.ofNat w (digitsUp a.toNat w) = a.reverse := by
  ext i hi
  rw [← BitVec.getLsbD_eq_getElem, ← BitVec.getLsbD_eq_getElem, BitVec.getLsbD_reverse, BitVec.getLsbD_ofNat]
  simp [testBit_digitsUp, hi, BitVec.getMsbD, BitVec.getLsbD]

end

end Sys2Proof.Machine
end

section
/-! # O1, O2: each operation on words, and the fields of a doubleword (02_registers, R71 to R78) -/

namespace Sys2Proof.Machine

/-! ## The operations of R71 to R73 -/

section
variable (t : ITy) (a b : BitVec (ityWidth t))

theorem ofInt_aluAdd : BitVec.ofInt (ityWidth t) (aluAdd t (ityValue t a) (ityValue t b)) = a + b := by
  rw [aluAdd, BitVec.ofInt_add, ofInt_ityValue, ofInt_ityValue]

theorem ofInt_aluSub : BitVec.ofInt (ityWidth t) (aluSub t (ityValue t a) (ityValue t b)) = a - b := by
  rw [aluSub, Int.sub_eq_add_neg, BitVec.ofInt_add, BitVec.ofInt_neg, ofInt_ityValue, ofInt_ityValue, BitVec.sub_eq_add_neg]

theorem ofInt_aluMul : BitVec.ofInt (ityWidth t) (aluMul t (ityValue t a) (ityValue t b)) = a * b := by
  rw [aluMul, BitVec.ofInt_mul, ofInt_ityValue, ofInt_ityValue]

theorem ofInt_aluAnd : BitVec.ofInt (ityWidth t) (aluAnd t (ityValue t a) (ityValue t b)) = a &&& b := by
  simp [aluAnd, ← BitVec.toNat_and]

theorem ofInt_aluOr : BitVec.ofInt (ityWidth t) (aluOr t (ityValue t a) (ityValue t b)) = a ||| b := by
  simp [aluOr, ← BitVec.toNat_or]

theorem ofInt_aluXor : BitVec.ofInt (ityWidth t) (aluXor t (ityValue t a) (ityValue t b)) = a ^^^ b := by
  simp [aluXor, ← BitVec.toNat_xor]

theorem ofInt_aluAndn : BitVec.ofInt (ityWidth t) (aluAndn t (ityValue t a) (ityValue t b)) = a &&& ~~~b := by
  have hnot : ityBits t (-1 - ityValue t b) = (~~~b).toNat := by
    have e : -1 - ityValue t b = -ityValue t b + -1 := by ring
    have hone : BitVec.ofInt (ityWidth t) 1 = 1#(ityWidth t) := BitVec.ofInt_natCast _ 1
    rw [ityBits_eq, e, BitVec.ofInt_add, BitVec.ofInt_neg, BitVec.ofInt_neg, ofInt_ityValue, hone, BitVec.not_eq_neg_add,
      BitVec.sub_eq_add_neg]
  rw [aluAndn, BitVec.ofInt_natCast, ityBits_ityValue, hnot, ← BitVec.toNat_and, BitVec.ofNat_toNat, BitVec.setWidth_eq]

/-- The exact operand at twice the width of the type. -/
theorem ofInt_double_ityValue :
    BitVec.ofInt (2 * ityWidth t) (ityValue t a) = if itySigned t then a.signExtend (2 * ityWidth t) else a.setWidth (2 * ityWidth t) := by
  rw [ityValue]
  split
  · rw [← BitVec.toInt_signExtend_of_le (show ityWidth t ≤ 2 * ityWidth t by omega), BitVec.ofInt_toInt]
  · rw [BitVec.ofInt_natCast, BitVec.ofNat_toNat]

theorem ofInt_aluMulh :
    let ext (w : Nat) (a : BitVec w) : BitVec (2 * w) := if itySigned t then a.signExtend (2 * w) else a.setWidth (2 * w)
    BitVec.ofInt (ityWidth t) (aluMulh t (ityValue t a) (ityValue t b)) = (ext _ a * ext _ b).extractLsb' (ityWidth t) (ityWidth t) := by
  intro ext
  rw [aluMulh, ← extractLsb'_ofInt_high, BitVec.ofInt_mul, ofInt_double_ityValue, ofInt_double_ityValue]

theorem ofInt_aluShl : BitVec.ofInt (ityWidth t) (aluShl t (ityValue t a) (ityValue t b)) = a <<< (b.toNat % ityWidth t) := by
  rw [aluShl, ofInt_mul_two_pow, ofInt_ityValue, shiftCount_ityValue]

theorem ofInt_aluShr : BitVec.ofInt (ityWidth t) (aluShr t (ityValue t a) (ityValue t b)) = a >>> (b.toNat % ityWidth t) := by
  rw [aluShr, BitVec.ofInt_natCast, ityBits_ityValue, shiftCount_ityValue, ofNat_toNat_shiftRight]

theorem ofInt_aluSar : BitVec.ofInt (ityWidth t) (aluSar t (ityValue t a) (ityValue t b)) = a.sshiftRight (b.toNat % ityWidth t) := by
  rw [aluSar, itySext_ityValue, shiftCount_ityValue, ← BitVec.ofInt_toInt (x := a.sshiftRight _), BitVec.toInt_sshiftRight,
    Int.shiftRight_eq_div_pow]
  norm_cast

theorem ofInt_aluRot : BitVec.ofInt (ityWidth t) (aluRot t (ityValue t a) (ityValue t b)) = a.rotateLeft (b.toNat % ityWidth t) := by
  rw [aluRot, BitVec.ofInt_natCast, ityBits_ityValue, shiftCount_ityValue, ofNat_toNat_rotate _ (Nat.mod_lt _ (ityWidth_pos t))]

theorem ofInt_aluMin :
    BitVec.ofInt (ityWidth t) (aluMin t (ityValue t a) (ityValue t b)) = if (if itySigned t then b.slt a else b.ult a) then b else a := by
  rw [aluMin, min_comm, min_def_lt]
  simp only [← ityValue_lt_iff, apply_ite (BitVec.ofInt _), ofInt_ityValue]

theorem ofInt_aluMax :
    BitVec.ofInt (ityWidth t) (aluMax t (ityValue t a) (ityValue t b)) = if (if itySigned t then a.slt b else a.ult b) then b else a := by
  rw [aluMax, max_def_lt]
  simp only [← ityValue_lt_iff, apply_ite (BitVec.ofInt _), ofInt_ityValue]

theorem ofInt_aluDiv : BitVec.ofInt (ityWidth t) (aluDiv t (ityValue t a) (ityValue t b)) =
    if b = 0 then BitVec.allOnes _ else if itySigned t then a.sdiv b else a.udiv b := by
  simp only [aluDiv, ityValue_eq_zero]
  split_ifs with _ hs
  · rw [BitVec.ofInt_neg, ← Nat.cast_one, BitVec.ofInt_natCast, BitVec.neg_one_eq_allOnes]
  · simp only [ityValue, hs, if_true]
    exact BitVec.eq_of_toInt_eq (by rw [BitVec.toInt_ofInt, BitVec.toInt_sdiv])
  · simp only [ityValue, hs, if_false, Bool.false_eq_true]
    rw [← Int.ofNat_tdiv, BitVec.ofInt_natCast, ← BitVec.toNat_udiv, BitVec.ofNat_toNat, BitVec.setWidth_eq, BitVec.udiv_eq]

theorem ofInt_aluRem : BitVec.ofInt (ityWidth t) (aluRem t (ityValue t a) (ityValue t b)) =
    if b = 0 then a else if itySigned t then a.srem b else a.umod b := by
  simp only [aluRem, ityValue_eq_zero]
  split_ifs with _ hs
  · exact ofInt_ityValue t a
  · simp only [ityValue, hs, if_true, ← BitVec.toInt_srem, BitVec.ofInt_toInt]
  · simp only [ityValue, hs, if_false, Bool.false_eq_true]
    rw [← Int.ofNat_tmod, BitVec.ofInt_natCast, ← BitVec.toNat_umod, BitVec.ofNat_toNat, BitVec.setWidth_eq, BitVec.umod_eq]

theorem ofInt_aluClz : BitVec.ofInt (ityWidth t) (aluClz t (ityValue t a)) =
    BitVec.ofNat _ ((List.range (ityWidth t)).takeWhile fun i => !a.getMsbD i).length := by
  rw [aluClz, ityBits_ityValue, length_leadingZeros]
  split
  · exact BitVec.ofInt_natCast ..
  · next h =>
    have hL : Nat.log2 a.toNat < ityWidth t := (Nat.log2_lt h).2 a.isLt
    rw [← BitVec.ofInt_natCast, Nat.cast_sub (by omega), Nat.cast_sub (by omega), Nat.cast_one]

theorem ofInt_aluPopc : BitVec.ofInt (ityWidth t) (aluPopc t (ityValue t a)) =
    BitVec.ofNat _ ((List.range (ityWidth t)).countP fun i => a.getLsbD i) := by
  rw [aluPopc, ityBits_ityValue, BitVec.ofInt_natCast, popc_ofNat _ (by cases t <;> decide)]

theorem ofInt_aluBrev : BitVec.ofInt (ityWidth t) (aluBrev t (ityValue t a)) = a.reverse := by
  rw [aluBrev, ityBits_ityValue, Nat.cast_zero, foldl_reverse _ le_rfl, BitVec.ofInt_natCast, Nat.sub_self, pow_zero, one_mul, ofNat_digitsUp]

end

/-! ## Issues of the ALU (R71) -/

section
variable {s : State} {d : SDst} {x y : SSrc} {t : ITy}

theorem settle_alu2 {lat : Nat} {g : ITy → Int → Int → Int} {f : (w : Nat) → BitVec w → BitVec w → BitVec w}
    (h : ∀ a b, BitVec.ofInt (ityWidth t) (g t (ityValue t a) (ityValue t b)) = f _ a b) :
    s.settle (s.alu2 lat g d x y t) = .next (s.queued lat 0 (.scalar d (atWidth t f (s.srcS x) (s.srcS y)))) := by
  rw [State.alu2, ityRead_eq_ityValue, ityRead_eq_ityValue, ityWrite_eq_atWidth (h _ _)]
  rfl

theorem settle_alu1 {g : ITy → Int → Int} {f : (w : Nat) → BitVec w → BitVec w}
    (h : ∀ a, BitVec.ofInt (ityWidth t) (g t (ityValue t a)) = f _ a) :
    s.settle (s.alu1 g d x t) = .next (s.queued 1 0 (.scalar d (atWidth t (fun w a _ => f w a) (s.srcS x) 0))) := by
  rw [State.alu1, ityRead_eq_ityValue, ityWrite_eq_atWidth (f := fun w a _ => f w a) (y := 0) (h _)]
  rfl

theorem ityRead_beq (t : ITy) (x y : DWord) : (ityRead t x == ityRead t y) = intEq t x y := by
  have h : ityRead t x = ityRead t y ↔ x.setWidth (ityWidth t) = y.setWidth (ityWidth t) := by
    rw [ityRead_eq_ityValue, ityRead_eq_ityValue]
    exact ⟨fun e => by rw [← ofInt_ityValue t (x.setWidth _), e, ofInt_ityValue], fun e => by rw [e]⟩
  rw [Bool.eq_iff_iff, beq_iff_eq, h]
  cases t <;> simp [intEq, ityWidth]

theorem intEq_zero (t : ITy) (y : DWord) : intEq t y 0 = decide (ityRead t y = 0) := by
  have hzero : ityRead t 0 = 0 := by cases t <;> rfl
  rw [← ityRead_beq, hzero, beq_eq_decide]

theorem settle_aluDivide {g : ITy → Int → Int → Int} {f : (w : Nat) → BitVec w → BitVec w → BitVec w}
    (h : ∀ a b, BitVec.ofInt (ityWidth t) (g t (ityValue t a) (ityValue t b)) = f _ a b) :
    s.settle (s.aluDivide g d x y t) = .next (s.queued 18 (if intEq t (s.srcS y) 0 then 0x001#32 else 0)
      (.scalar d (atWidth t f (s.srcS x) (s.srcS y)))) := by
  rw [intEq_zero, ← ityWrite_eq_atWidth (h _ _), ← ityRead_eq_ityValue, ← ityRead_eq_ityValue]
  rfl

end

/-! ## Fields of a doubleword (R76 to R78) -/

theorem testBit_bits (x : DWord) (p w i : Nat) : (bits x p w).testBit i = (decide (i < w) && x.getLsbD (p + i)) := by
  rw [bits, Nat.testBit_mod_two_pow, Nat.testBit_div_two_pow, Nat.add_comm]
  rfl

theorem toNat_extractLsb'_eq_bits (x : DWord) (p w : Nat) : (x.extractLsb' p w).toNat = bits x p w := by
  simp [bits, Nat.shiftRight_eq_div_pow]

theorem bitExtract_eq (x : DWord) (p w : Nat) : bitExtract x p w = (x.extractLsb' p w).setWidth 64 := by
  rw [bitExtract, ← toNat_extractLsb'_eq_bits, BitVec.ofNat_toNat]

theorem bitExtractSigned_eq (x : DWord) {p w : Nat} (h : w ≤ 64) : bitExtractSigned x p w = (x.extractLsb' p w).signExtend 64 := by
  rw [bitExtractSigned, ← toNat_extractLsb'_eq_bits, ← BitVec.toInt_eq_toNat_bmod, ← BitVec.toInt_signExtend_of_le h, BitVec.ofInt_toInt]

theorem getLsbD_fieldMask {p w i : Nat} (h : i < 64) : (fieldMask p w).getLsbD i = decide (p ≤ i ∧ i < p + w) := by
  rw [fieldMask, BitVec.getLsbD_ofNat, Nat.testBit_mul_two_pow, Nat.testBit_two_pow_sub_one]
  simp only [h, decide_true, Bool.true_and, Bool.decide_and]
  by_cases hp : p ≤ i
  · simp only [hp, decide_true, Bool.true_and, decide_eq_decide]; omega
  · simp [hp]

theorem getLsbD_bitInsert (old x : DWord) {p w i : Nat} (h : i < 64) :
    (bitInsert old x p w).getLsbD i = if p ≤ i ∧ i < p + w then x.getLsbD (i - p) else old.getLsbD i := by
  simp only [bitInsert, BitVec.getLsbD_or, BitVec.getLsbD_and, BitVec.getLsbD_not, getLsbD_fieldMask h, BitVec.getLsbD_ofNat,
    Nat.testBit_mul_two_pow, testBit_bits, h, decide_true, Bool.true_and, Nat.zero_add]
  by_cases hp : p ≤ i
  · have e : i - p < w ↔ i < p + w := by omega
    by_cases hw : i < p + w <;> simp [hp, hw, e]
  · simp [hp]

end Sys2Proof.Machine

namespace Sys2Proof.Proofs

open Sys2Proof Sys2Proof.Machine

/-- Settles O2: the exact quotient and remainder, cut to the width of the type, are those of words. -/
theorem scalarDivision : Obligations.ScalarDivision := by
  intro s d x y t r fl
  exact ⟨settle_aluDivide (ofInt_aluDiv t), settle_aluDivide (ofInt_aluRem t)⟩

/-- Settles O1: each operation on exact operands, cut to the width of the type, is the operation on words of that width. -/
theorem scalarIntegerResults : Obligations.ScalarIntegerResults := by
  refine ⟨fun s d x y t => ?_, fun s d x y t => ?_, fun s d x t => ?_, fun s d x y e n p w pos imm scale z hn hw hpw hpos himm => ?_⟩
  · exact ⟨settle_alu2 (ofInt_aluAdd t), settle_alu2 (ofInt_aluSub t), settle_alu2 (ofInt_aluMul t), settle_alu2 (ofInt_aluAnd t),
      settle_alu2 (ofInt_aluOr t), settle_alu2 (ofInt_aluXor t), settle_alu2 (ofInt_aluAndn t)⟩
  · exact ⟨settle_alu2 (ofInt_aluMulh t), settle_alu2 (ofInt_aluShl t), settle_alu2 (ofInt_aluShr t), settle_alu2 (ofInt_aluSar t),
      settle_alu2 (ofInt_aluRot t), settle_alu2 (ofInt_aluMin t), settle_alu2 (ofInt_aluMax t)⟩
  · exact ⟨settle_alu1 (ofInt_aluClz t), settle_alu1 (ofInt_aluPopc t), settle_alu1 (ofInt_aluBrev t)⟩
  · intro put a
    refine ⟨rfl, rfl, rfl, rfl, rfl, rfl, rfl, rfl, rfl, congrArg put (bitExtract_eq ..), congrArg put (bitExtractSigned_eq _ (by omega)), rfl,
      ⟨bitInsert (s.srcS (.reg e)) a p w, rfl, fun i hi => getLsbD_bitInsert _ _ hi⟩,
      ⟨bitInsert (s.srcS (.reg e)) (BitVec.ofNat 64 imm) (16 * pos) 16, rfl, fun i hi => ?_⟩⟩
    rw [getLsbD_bitInsert _ _ hi, BitVec.getLsbD_ofNat, decide_eq_true (show i - 16 * pos < 64 by omega), Bool.true_and]

end Sys2Proof.Proofs
end

section
/-! # O3: compares, predicate logic and SEL (02_registers, R79 to R82) -/

namespace Sys2Proof.Machine

theorem combine_eq_combined (c : Combine) (old v : Bool) : combine c old v = combined c old v := by cases c <;> rfl

theorem settle_setPred (s : State) (c : Combine) (p : Nat) (v : Bool) :
    s.settle (s.setPred c p v) = .next (s.queued 1 0 (.pred p (combined c (s.srcP p) v))) := by
  rw [← combine_eq_combined]; rfl

/-! ## The relations on integers (R79) -/

theorem decide_ityRead_lt (t : ITy) (x y : DWord) : decide (ityRead t x < ityRead t y) = intLt t x y := by
  cases t with
  | i32 => rfl
  | z32 => exact decide_eq_decide.2 Int.ofNat_lt
  | i64 => rfl
  | z64 => exact decide_eq_decide.2 Int.ofNat_lt

theorem decide_ityRead_le (t : ITy) (x y : DWord) : decide (ityRead t x ≤ ityRead t y) = !intLt t y x := by
  rw [← decide_ityRead_lt, ← decide_not]
  exact decide_eq_decide.2 Int.not_lt.symm

theorem Rel.holds_le (a b : Int) : Rel.le.holds a b = (Rel.lt.holds a b || Rel.eq.holds a b) := by
  rw [Bool.eq_iff_iff]
  simp only [Rel.holds, Bool.or_eq_true, decide_eq_true_iff, beq_iff_eq]
  omega

theorem Rel.holds_ge (a b : Int) : Rel.ge.holds a b = (Rel.gt.holds a b || Rel.eq.holds a b) := by
  rw [Bool.eq_iff_iff]
  simp only [Rel.holds, Bool.or_eq_true, decide_eq_true_iff, beq_iff_eq]
  omega

/-! ## binary32 (R79, R140) -/

theorem Fmt.isNan_iff (f : Fmt) (x : Nat) :
    f.isNan x = true ↔ f.top < x % f.signBit ∧ (f.infs && x % f.signBit == f.top + 1) = false := by
  rw [Fmt.isNan, Fmt.decode, beq_iff_eq]
  dsimp only
  split
  · next h =>
    refine iff_of_false ?_ fun c => absurd c.1 (Nat.not_lt.2 h)
    split
    · split <;> exact nofun
    · exact nofun
  · next h =>
    cases f.infs && x % f.signBit == f.top + 1
    · exact iff_of_true rfl ⟨Nat.not_le.1 h, rfl⟩
    · exact iff_of_false nofun nofun

theorem isNan_fmtF32 (x : BitVec 32) : fmtF32.isNan x.toNat = isNan32 x := by
  have hs : fmtF32.signBit = 2 ^ 31 := rfl
  have hx := x.isLt
  rw [Bool.eq_iff_iff, Fmt.isNan_iff, hs]
  simp only [fmtF32, Bool.true_and, beq_eq_false_iff_ne, isNan32, Bool.and_eq_true, beq_iff_eq, bne_iff_ne, ne_eq,
    ← BitVec.toNat_inj, BitVec.extractLsb'_toNat, Nat.shiftRight_eq_div_pow, BitVec.toNat_allOnes,
    show (0 : BitVec 23).toNat = 0 from rfl, pow_zero, Nat.div_one]
  omega

/-- The order in which −0 = +0 moves the negative numbers one place down. -/
theorem keyEq_fmtF32 (x : BitVec 32) : fmtF32.keyEq x.toNat = if order32 x < 0 then order32 x - 1 else order32 x := by
  have hs : fmtF32.signBit = 2 ^ 31 := rfl
  have ho : order32 x = if 2 ^ 31 ≤ x.toNat then -((x.toNat % 2 ^ 31 : Nat) : Int) else (x.toNat % 2 ^ 31 : Nat) := by
    simp [order32, BitVec.msb_eq_decide]
  have hx := x.isLt
  rw [Fmt.keyEq, Fmt.key, hs, ho]
  split_ifs <;> omega

theorem fpCompare_fmtF32 (r : Rel) (x y : BitVec 32) :
    fpCompare fmtF32 r x.toNat y.toNat = if isNan32 x || isNan32 y then r == .ne else r.holds (order32 x) (order32 y) := by
  rw [fpCompare, isNan_fmtF32, isNan_fmtF32, keyEq_fmtF32, keyEq_fmtF32]
  congr 1
  rw [Bool.eq_iff_iff]
  cases r <;> simp only [Rel.holds, decide_eq_true_iff, beq_iff_eq, bne_iff_ne] <;> split_ifs <;> omega

theorem unordered_eq (a b : DWord) : unordered a b = (isNan32 (a.setWidth 32) || isNan32 (b.setWidth 32)) := by
  rw [unordered, low32, low32, isNan_fmtF32, isNan_fmtF32]

/-! ## Every relation from the equality and the two orders -/

section
variable (t : CTy) (a b : DWord)

theorem compare_f32 (r : Rel) : compare r .f32 a b =
    if isNan32 (a.setWidth 32) || isNan32 (b.setWidth 32) then r == .ne else r.holds (order32 (a.setWidth 32)) (order32 (b.setWidth 32)) :=
  fpCompare_fmtF32 r _ _

theorem compare_eq_f32 : compare .eq .f32 a b =
    (!(isNan32 (a.setWidth 32) || isNan32 (b.setWidth 32)) && order32 (a.setWidth 32) == order32 (b.setWidth 32)) := by
  rw [compare_f32]
  cases isNan32 (a.setWidth 32) || isNan32 (b.setWidth 32) <;> rfl

theorem compare_lt_f32 : compare .lt .f32 a b =
    (!(isNan32 (a.setWidth 32) || isNan32 (b.setWidth 32)) && decide (order32 (a.setWidth 32) < order32 (b.setWidth 32))) := by
  rw [compare_f32]
  cases isNan32 (a.setWidth 32) || isNan32 (b.setWidth 32) <;> rfl

theorem compare_gt_f32 : compare .gt .f32 a b =
    (!(isNan32 (a.setWidth 32) || isNan32 (b.setWidth 32)) && decide (order32 (b.setWidth 32) < order32 (a.setWidth 32))) := by
  rw [compare_f32]
  cases isNan32 (a.setWidth 32) || isNan32 (b.setWidth 32) <;> rfl

theorem compare_ne : compare .ne t a b = !compare .eq t a b := by
  cases t
  case f32 => rw [compare_f32, compare_f32]; split <;> rfl
  all_goals rfl

theorem compare_le : compare .le t a b = (compare .lt t a b || compare .eq t a b) := by
  cases t
  case f32 => simp only [compare_f32]; split; rfl; exact Rel.holds_le _ _
  all_goals exact Rel.holds_le _ _

theorem compare_ge : compare .ge t a b = (compare .gt t a b || compare .eq t a b) := by
  cases t
  case f32 => simp only [compare_f32]; split; rfl; exact Rel.holds_ge _ _
  all_goals exact Rel.holds_ge _ _

end

end Sys2Proof.Machine

namespace Sys2Proof.Proofs

open Sys2Proof Sys2Proof.Machine

/-- Settles O3: equality and the two orders on exact operands are those on words, and every other relation comes from these. -/
theorem predicateResults : Obligations.PredicateResults := by
  refine ⟨fun s c p x y t => ?_, fun s c p x z t => ?_, fun s d m n p e x y neg => ?_⟩
  · intro put a b unord eq lt gt
    have heq : compare .eq t a b = eq := by
      cases t
      case f32 => exact compare_eq_f32 a b
      all_goals exact ityRead_beq ..
    have hlt : compare .lt t a b = lt := by
      cases t
      case f32 => exact compare_lt_f32 a b
      all_goals exact decide_ityRead_lt ..
    have hgt : compare .gt t a b = gt := by
      cases t
      case f32 => exact compare_gt_f32 a b
      all_goals exact decide_ityRead_lt ..
    have hput (r : Rel) {v : Bool} (h : compare r t a b = v) : s.settle (s.cmp r c p x y t) = put v := by
      rw [← h]; exact settle_setPred ..
    exact ⟨hput .eq heq, hput .ne (by rw [compare_ne, heq]), hput .lt hlt, hput .le (by rw [compare_le, hlt, heq]), hput .gt hgt,
      hput .ge (by rw [compare_ge, hgt, heq]), (settle_setPred ..).trans (by rw [unordered_eq]),
      (settle_setPred ..).trans (by rw [unordered_eq])⟩
  · intro put a b
    have hput (r : Rel) {v : Bool} (h : r.holds (ityRead t a) (ityRead t b) = v) : s.settle (s.cmpi r c p x z t) = put v := by
      rw [← h]; exact settle_setPred ..
    exact ⟨hput .eq (ityRead_beq ..), hput .ne (by rw [← ityRead_beq]; rfl), hput .lt (decide_ityRead_lt ..), hput .le (decide_ityRead_le ..),
      hput .gt (decide_ityRead_lt ..), hput .ge (decide_ityRead_le ..)⟩
  · exact ⟨rfl, rfl, rfl, rfl, rfl, rfl, rfl, rfl, rfl⟩

end Sys2Proof.Proofs
end

section
/-! # O4: scalar floating point (02_registers, R83 to R85) -/

namespace Sys2Proof.Machine

section
variable (a : BitVec 32)

theorem ofNat_abs32 : BitVec.ofNat 64 (a.toNat % 2 ^ 31) = (a &&& 0x7FFFFFFF#32).setWidth 64 := by
  have h : a.toNat &&& 0x7FFFFFFF = a.toNat % 2 ^ 31 := Nat.and_two_pow_sub_one_eq_mod _ 31
  rw [← BitVec.ofNat_toNat, BitVec.toNat_and, BitVec.toNat_ofNat, Nat.mod_eq_of_lt (show 0x7FFFFFFF < 2 ^ 32 by decide), h]

theorem ofNat_neg32 : BitVec.ofNat 64 (a.toNat ^^^ 2 ^ 31) = (a ^^^ 0x80000000#32).setWidth 64 := by
  rw [← BitVec.ofNat_toNat, BitVec.toNat_xor]; rfl

end

/-- R152: SFCVT draws where stochastic rounding applies to it. -/
theorem settle_sfcvt (s : State) (d : SDst) (x : SSrc) (src : Nat) (dst : Ty) :
    s.settle (s.sfcvt d x src dst) =
      let r := convert (cfmtOf src) (tyFmt dst) s.fpMode (fmtNsat s.regs.fmt) (s.srBits 0) (bits (s.srcS x) 0 (8 * (cfmtOf src).bytes))
      let t := if s.fpMode = .sr ∧ cvtDraws (cfmtOf src) (tyFmt dst) = true then s.drawing else s
      .next (t.queued 4 r.2 (.scalar d (tyExtend dst r.1))) := by
  rw [State.sfcvt]
  dsimp only
  have hdraws : (s.fpMode == .sr && cvtDraws (cfmtOf src) (tyFmt dst)) = decide (s.fpMode = .sr ∧ cvtDraws (cfmtOf src) (tyFmt dst) = true) := by
    rw [Bool.eq_iff_iff, Bool.and_eq_true, beq_iff_eq, decide_eq_true_iff]
  simp only [hdraws, decide_eq_true_eq]
  split <;> rfl

end Sys2Proof.Machine

namespace Sys2Proof.Proofs

open Sys2Proof Sys2Proof.Machine

/-- Settles O4: the issues as R84 and R85 give them; SFABS and SFNEG computed on numbers are the two bit operations. -/
theorem scalarFloatCompletes : Obligations.ScalarFloatCompletes := by
  intro s d x y n src dst m f put low
  have habs : exec (.sfabs d x) s = .next (s.queued 4 0 (.scalar d (BitVec.ofNat 64 (low.toNat % 2 ^ 31)))) := rfl
  have hneg : exec (.sfneg d x) s = .next (s.queued 4 0 (.scalar d (BitVec.ofNat 64 (low.toNat ^^^ 2 ^ 31)))) := rfl
  exact ⟨rfl, rfl, rfl, rfl, rfl, rfl, habs.trans (by rw [ofNat_abs32]), hneg.trans (by rw [ofNat_neg32]), settle_sfcvt ..⟩

end Sys2Proof.Proofs
end

section
/-! # O6: state registers, the format register and loop levels (02_registers R66 to R70, R86; 03_sequencer R99; 05_formats R156, R157) -/

namespace Sys2Proof.Machine

/-! ## Access (R66, R67) -/

theorem kProgramWrites_iff {k : Nat} : kProgramWrites k = true ↔ k ∈ [0x010, 0x011, 0x050, 0x051] ∨ (0x100 ≤ k ∧ k ≤ 0x107) := by
  simp [kProgramWrites, or_assoc]

theorem kSupervisorOnly_iff {k : Nat} : kSupervisorOnly k = true ↔ k ∈ [0x030, 0x031, 0x032, 0x033, 0x034] ∨ (0x200 ≤ k ∧ k ≤ 0x20F) := by
  simp [kSupervisorOnly]; omega

theorem kReadOnly_iff {k : Nat} :
    kReadOnly k = true ↔ k ∈ [0x000, 0x001, 0x006, 0x021, 0x022, 0x035, 0x042, 0x060, 0x061, 0x062, 0x063, 0x064] := by
  simp [kReadOnly]

/-- The access of a state register by the classes of R67. -/
theorem kAccess_eq (sup : Bool) (k : Nat) :
    kAccess sup k = if kReadOnly k then 1 else if kProgramWrites k then 2 else if sup then 2 else if kSupervisorOnly k then 0 else 1 := by
  simp only [kAccess, kReadOnly_iff, kProgramWrites_iff, kSupervisorOnly_iff]

theorem kSupervisorWrites_of_only {k : Nat} (h : kSupervisorOnly k = true) : kSupervisorWrites k = true := by
  simp [kSupervisorWrites, h]

theorem not_kReadOnly_of_writes {k : Nat} (h : kProgramWrites k = true ∨ kSupervisorWrites k = true) : kReadOnly k = false := by
  have hlist : ∀ i ∈ [0x000, 0x001, 0x006, 0x021, 0x022, 0x035, 0x042, 0x060, 0x061, 0x062, 0x063, 0x064],
      ¬ (kProgramWrites i = true ∨ kSupervisorWrites i = true) := by decide
  exact Bool.eq_false_iff.2 fun hk => hlist k (kReadOnly_iff.1 hk) h

theorem not_kProgramWrites_of_supervisor {k : Nat} (h : kSupervisorWrites k = true) : kProgramWrites k = false := by
  have hlist : ∀ i ∈ [0x010, 0x011, 0x050, 0x051], ¬ kSupervisorWrites i = true := by decide
  have hpolicy : ∀ i, i < 8 → ¬ kSupervisorWrites (0x100 + i) = true := by decide
  refine Bool.eq_false_iff.2 fun hk => ?_
  obtain hmem | ⟨hlo, hhi⟩ := kProgramWrites_iff.1 hk
  · exact hlist k hmem h
  · exact hpolicy (k - 0x100) (by omega) (by rwa [Nat.add_sub_cancel' hlo])

section
variable {s : State} {k : Nat}

theorem settle_getk {d : SDst} (h : 0 < kAccess s.k.priv k) :
    s.settle (s.getkIssue d k) = .next ((s.readsOf (if k = 0x010 then [.rngkey] else [])).queued 2 0 (.scalar d (s.getK k))) :=
  settle_of_ok (es := [.reads _, .land 2 0 (.scalar d (s.getK k))]) (by rw [decide_eq_true h]; rfl)

theorem settle_getk_privilege {d : SDst} (h : kAccess s.k.priv k = 0) : s.settle (s.getkIssue d k) = s.raises .privilege :=
  settle_of_cause (by rw [h]; rfl)

theorem settle_setk {x : SSrc} (h : kAccess s.k.priv k = 2) : s.settle (s.setkIssue k x) = .next (s.queued 2 0 (.kreg k (s.srcS x))) :=
  settle_of_ok (es := [.land 2 0 (.kreg k (s.srcS x))]) (by rw [h]; rfl)

theorem settle_setk_privilege {x : SSrc} (h : kAccess s.k.priv k ≠ 2) : s.settle (s.setkIssue k x) = s.raises .privilege :=
  settle_of_cause (by rw [decide_eq_false h]; rfl)

end

/-! ## What a landed SETK leaves to be read (R68, R70) -/

section
variable {w : Nat}

theorem setWidth_and_setWidth_64 (v : DWord) (m : BitVec w) : (v.setWidth w &&& m).setWidth 64 = v &&& m.setWidth 64 := by
  apply BitVec.eq_of_getLsbD_eq
  intro i hi
  by_cases hw : i < w
  · simp [hi, hw]
  · simp [hw, BitVec.getLsbD_of_ge m i (by omega)]

theorem setWidth_setWidth_64 (w : Nat) (v : DWord) : (v.setWidth w).setWidth 64 = v &&& (BitVec.allOnes w).setWidth 64 := by
  rw [← setWidth_and_setWidth_64, BitVec.and_allOnes]

theorem setWidth_clear_64 (a m : BitVec w) (v : DWord) (h : w ≤ 64) :
    ((a &&& ~~~(v.setWidth w)) &&& m).setWidth 64 = a.setWidth 64 &&& ~~~v &&& m.setWidth 64 := by
  have hnot : ~~~(v.setWidth w) = (~~~v).setWidth w := (BitVec.setWidth_not h).symm
  rw [hnot, BitVec.and_assoc, BitVec.setWidth_and, setWidth_and_setWidth_64, BitVec.and_assoc]

end

section
variable (s : State) {n : Nat} (v : DWord)

theorem setK_y (h : n < 8) : s.setK (0x100 + n) v = { s with regs := s.regs.setY n v } := by
  rw [State.setK, if_pos (by omega), Nat.add_sub_cancel_left]

theorem setK_shadow (h : n < 16) : s.setK (0x200 + n) v = { s with regs := { s.regs with s := s.regs.s.set (n + 48) v } } := by
  rw [State.setK, if_neg (by omega), if_pos (by omega), Nat.add_sub_cancel_left]

theorem setK_group (h : n < 256) : s.setK (0x400 + n) v =
    { s with k := { s.k with gtable := s.k.gtable.set n (groupWrite ((s.k.gtable[n]?).getD 0) v) } } := by
  rw [State.setK, if_neg (by omega), if_neg (by omega)]
  congr 1
  unfold KRegs.set
  split
  case h_19 => rw [if_pos (by omega), Nat.add_sub_cancel_left]
  all_goals omega

theorem getK_y (h : n < 8) : s.getK (0x100 + n) = (s.srcY n).setWidth 64 := by
  unfold State.getK
  dsimp only
  split
  case h_31 => rw [if_pos (by omega), Nat.add_sub_cancel_left]
  all_goals omega

theorem getK_shadow (h : n < 16) : s.getK (0x200 + n) = (s.regs.s[n + 48]?).getD 0 := by
  unfold State.getK
  dsimp only
  split
  case h_31 => rw [if_neg (by omega), if_pos (by omega), Nat.add_sub_cancel_left]
  all_goals omega

theorem getK_group (h : n < 256) : s.getK (0x400 + n) = (s.k.gtable[n]?).getD 0 := by
  unfold State.getK
  dsimp only
  split
  case h_31 => rw [if_neg (by omega), if_neg (by omega), if_pos (by omega), Nat.add_sub_cancel_left]
  all_goals omega

/-- R66, R68: the low bits of a register narrower than 64 bits. -/
theorem getK_setK_narrow :
    (∀ k ∈ [0x002, 0x003], (s.setK k v).getK k = v &&& 0x3FFF#64)
    ∧ (∀ k ∈ [0x031, 0x032, 0x034, 0x041], (s.setK k v).getK k = v &&& 0xFFFFFFFFFFFF#64)
    ∧ (∀ k ∈ [0x004, 0x005], (s.setK k v).getK k = v &&& 0xFFFFFFFFFFFFFF#64)
    ∧ (s.setK 0x020 v).getK 0x020 = v &&& 0xFF#64
    ∧ (s.setK 0x040 v).getK 0x040 = v &&& 0xFFFF#64
    ∧ (s.setK 0x070 v).getK 0x070 = v &&& 0xFFFFFFFF#64 := by
  simp only [List.forall_mem_cons, List.not_mem_nil, false_imp_iff, implies_true, and_true]
  exact ⟨⟨setWidth_setWidth_64 14 v, setWidth_setWidth_64 14 v⟩,
    ⟨setWidth_setWidth_64 48 v, setWidth_setWidth_64 48 v, setWidth_setWidth_64 48 v, setWidth_setWidth_64 48 v⟩,
    ⟨setWidth_setWidth_64 56 v, setWidth_setWidth_64 56 v⟩, setWidth_setWidth_64 8 v, setWidth_setWidth_64 16 v, setWidth_setWidth_64 32 v⟩

theorem getK_setK_wide : ∀ k ∈ [0x010, 0x011, 0x033], (s.setK k v).getK k = v := by
  simp only [List.forall_mem_cons, List.not_mem_nil, false_imp_iff, implies_true, and_true]
  exact ⟨rfl, rfl, rfl⟩

theorem getK_setK_status : (s.setK 0x050 v).getK 0x050 = s.getK 0x050 &&& ~~~v &&& 0x3FF#64 :=
  setWidth_clear_64 s.k.status statusMask v (by decide)

theorem getK_setK_y (h : n < 8) (hy : s.regs.y.length = 8) : (s.setK (0x100 + n) v).getK (0x100 + n) = v &&& 0xFFFF00FF#64 := by
  rw [setK_y s v h, getK_y _ h, State.srcY, Regs.setY, List.getElem?_set_self (by omega), Option.getD_some]
  exact setWidth_and_setWidth_64 v polMask

theorem getK_setK_shadow (h : n < 16) (hs : s.regs.s.length = 64) : (s.setK (0x200 + n) v).getK (0x200 + n) = v := by
  rw [setK_shadow s v h, getK_shadow _ h, List.getElem?_set_self (by omega), Option.getD_some]

theorem getK_setK_group (h : n < 256) (hg : s.k.gtable.length = 256) :
    (s.setK (0x400 + n) v).getK (0x400 + n) = (v &&& 0xBFFFFFFFFFFF0000#64) ||| (s.getK (0x400 + n) &&& 0xFFFF#64) := by
  rw [setK_group s v h, getK_group _ h, getK_group _ h, List.getElem?_set_self (by omega), Option.getD_some]
  rfl

theorem setK_frame (k : Nat) : s.setK k v = { s with regs := (s.setK k v).regs, k := (s.setK k v).k } := by
  rw [State.setK]
  split
  · rfl
  · split <;> rfl

end

/-! ## FMT and the loop levels (R99, R156, R157) -/

section
variable (s : State) {n : Nat}

theorem settle_setf {x : SSrc} (h : fmtOk ((s.srcS x).setWidth 48) = true) :
    s.settle (s.setfIssue x) = .next (s.queued 4 0 (.fmt ((s.srcS x).setWidth 48))) :=
  settle_of_ok (es := [.land 4 0 (.fmt ((s.srcS x).setWidth 48))]) (by rw [h]; rfl)

theorem settle_setf_format {x : SSrc} (h : fmtOk ((s.srcS x).setWidth 48) = false) : s.settle (s.setfIssue x) = s.raises .format :=
  settle_of_cause (by rw [h]; rfl)

theorem exec_lidx (d : SDst) (n : Nat) :
    exec (.lidx d n) s = .next (s.queued 1 0 (.scalar d (((s.level n).map fun l => l.index.setWidth 64).getD 0))) := rfl

theorem exec_lcnt (d : SDst) (n : Nat) :
    exec (.lcnt d n) s = .next (s.queued 1 0 (.scalar d (((s.level n).map fun l => l.count.setWidth 64).getD 0))) := rfl

theorem level_of_lt (h : n < s.seq.loops.length) : s.level n = s.seq.loops[s.seq.loops.length - 1 - n]? := List.getElem?_reverse h

theorem level_of_ge (h : s.seq.loops.length ≤ n) : s.level n = none := List.getElem?_eq_none (by rwa [List.length_reverse])

end

end Sys2Proof.Machine

namespace Sys2Proof.Proofs

open Sys2Proof Sys2Proof.Machine

/-- Settles O6: the class of a register decides its access, its width what a landed SETK leaves of it. -/
theorem stateRegistersAndFormat : Obligations.StateRegistersAndFormat := by
  refine ⟨fun s d k hk => ?_, fun s k x hk => ?_, fun s d k x => ⟨fun hp hk => ?_, fun hp hk => ?_, fun hk => ?_⟩,
    fun s v hs hy hg => ?_, fun s d x n => ?_⟩
  · refine settle_getk ?_
    rw [kAccess_eq]
    cases ho : kSupervisorOnly k
    · simp only [Bool.false_eq_true, if_false]; split_ifs <;> decide
    · simp only [hk ho, if_true]; split_ifs <;> decide
  · refine settle_setk ?_
    obtain hw | ⟨hw, hp⟩ := hk
    · rw [kAccess_eq, not_kReadOnly_of_writes (.inl hw), hw]; rfl
    · simp only [kAccess_eq, not_kReadOnly_of_writes (.inr hw), hp, Bool.false_eq_true, if_false, if_true, ite_self]
  · refine settle_getk_privilege ?_
    have hw := kSupervisorWrites_of_only hk
    rw [kAccess_eq, not_kReadOnly_of_writes (.inr hw), not_kProgramWrites_of_supervisor hw, hp, hk]; rfl
  · refine settle_setk_privilege ?_
    rw [kAccess_eq, not_kReadOnly_of_writes (.inr hk), not_kProgramWrites_of_supervisor hk, hp]
    cases kSupervisorOnly k <;> decide
  · exact settle_setk_privilege (by rw [kAccess_eq, if_pos hk]; decide)
  · obtain ⟨h14, h48, h56, h8, h16, h32⟩ := getK_setK_narrow s v
    exact ⟨getK_setK_wide s v, h14, h48, h56, h8, h16, h32, getK_setK_status s v, fun n hn => getK_setK_y s v hn hy,
      fun n hn => getK_setK_shadow s v hn hs, fun n hn => getK_setK_group s v hn hg, setK_frame s v⟩
  · intro f ok
    refine ⟨rfl, fun h => settle_setf s (decide_eq_true h), fun h => settle_setf_format s (decide_eq_false h), fun l hn hl => ?_, fun hn => ?_⟩
    · have hlevel : s.level n = some l := (level_of_lt s hn).trans hl
      exact ⟨(exec_lidx ..).trans (by rw [hlevel]; rfl), (exec_lcnt ..).trans (by rw [hlevel]; rfl)⟩
    · have hlevel : s.level n = none := level_of_ge s hn
      exact ⟨(exec_lidx ..).trans (by rw [hlevel]; rfl), (exec_lcnt ..).trans (by rw [hlevel]; rfl)⟩

end Sys2Proof.Proofs
end

section
/-! # O54: the result queues (02_registers, R55, R56) -/

namespace Sys2Proof.Machine

/-! ## What a landing does to the queues -/

@[simp] theorem Regs.writeS_q (r : Regs) (sup : Bool) (n : Nat) (v : DWord) : (r.writeS sup n v).q = r.q := by
  rw [Regs.writeS]
  split
  · rfl
  · split <;> rfl

@[simp] theorem Regs.writeS_qv (r : Regs) (sup : Bool) (n : Nat) (v : DWord) : (r.writeS sup n v).qv = r.qv := by
  rw [Regs.writeS]
  split
  · rfl
  · split <;> rfl

@[simp] theorem Regs.landS_q (r : Regs) (sup : Bool) (d : SDst) (v : DWord) : (r.landS sup d v).q = pushQ r.q (.full v) := by cases d <;> rfl

@[simp] theorem Regs.landS_qv (r : Regs) (sup : Bool) (d : SDst) (v : DWord) : (r.landS sup d v).qv = r.qv := by
  cases d with
  | reg n => exact r.writeS_qv sup n v
  | queue => rfl

theorem Regs.landV_queues (r : Regs) (d : VDst) (v m : VReg) : ∃ x, (r.landV d v m).qv = pushQ r.qv (.full x) ∧ (r.landV d v m).q = r.q := by
  cases d <;> exact ⟨_, rfl, rfl⟩

/-- Landings that each enter a queue age what it held by as many places. -/
theorem foldl_land_ages {α : Type} {q : State → List (QEntry α)} {P : InFlight → Prop} (h : ∀ s f, P f → ∃ e, q (s.land f) = pushQ (q s) e)
    (fs : List InFlight) (hfs : ∀ f ∈ fs, P f) (s : State) (n : Nat) (hn : n + fs.length < 16) :
    (q (fs.foldl State.land s))[n + fs.length]? = (q s)[n]? := by
  induction fs generalizing s n with
  | nil => rfl
  | cons f fs ih =>
    rw [List.length_cons] at hn ⊢
    obtain ⟨e, he⟩ := h s f (hfs f (.head _))
    have hrest := ih (fun g hg => hfs g (.tail _ hg)) (s.land f) (n + 1) (by omega)
    rw [show n + (fs.length + 1) = n + 1 + fs.length by omega, List.foldl_cons, hrest, he, pushQ_succ _ _ (by omega)]

/-! ## What an arrival does to the queues -/

section
variable {α : Type} {q : List (QEntry α)} {id n : Nat}

theorem fillQ_of_pending (v : α) (h : q[n]? = some (.pending id)) : (fillQ q id v)[n]? = some (.full v) := by
  rw [fillQ, List.getElem?_map, h, Option.map_some]
  exact congrArg some (if_pos rfl)

theorem fillQ_of_not_pending (v : α) (h : q[n]? ≠ some (.pending id)) : (fillQ q id v)[n]? = q[n]? := by
  rw [fillQ, List.getElem?_map]
  cases he : q[n]? with
  | none => rfl
  | some e =>
    cases e with
    | empty => rfl
    | full x => rfl
    | pending i =>
      have hi : i ≠ id := fun c => h (by rw [he, c])
      exact congrArg some (if_neg hi)

end

theorem arriveS_q (s : State) (w : Wait) (v : DWord) : (s.arriveS w v).q = fillQ s.regs.q w.id v := by
  rw [State.arriveS]
  dsimp only
  split
  · rw [Regs.writeS_q]
  · rfl

theorem arriveV_qv (s : State) (w : Wait) (v : VReg) : (s.arriveV w v).1.qv = fillQ s.regs.qv w.id (s.arriveV w v).2 := by
  rw [State.arriveV]
  split <;> rfl

section
variable {s : State} {w : Wait} (hw : s.pipe.waits.find? (fun x => x.id == w.id && x.outstanding) = some w)
include hw

theorem arrive_scalar_q (v : DWord) : (s.arrive w.id (.scalar v) 0).regs.q = fillQ s.regs.q w.id v := by
  rw [State.arrive, hw]
  exact arriveS_q (s.setStatus 0) w v

theorem arrive_vector_qv (v : VReg) : (s.arrive w.id (.vector v) 0).regs.qv = fillQ s.regs.qv w.id (s.arriveV w v).2 := by
  rw [State.arrive, hw]
  exact arriveV_qv (s.setStatus 0) w v

end

end Sys2Proof.Machine

namespace Sys2Proof.Proofs

open Sys2Proof Sys2Proof.Machine

/-- Settles O54: every landing pushes onto its queue, and an arrival fills the position that pends for it. -/
theorem queuesAge : Obligations.QueuesAge := by
  refine ⟨fun s f d v hf => ?_, fun s fs hfs _ n hn => ?_, fun s f d v m hf => ?_, fun s f d v n i hf hn hi => ?_, fun s w v n _ hw => ?_,
    fun s fs hfs _ n hn => ?_, fun s w v n hw => ?_⟩
  · rw [land_scalar hf]
    exact ⟨Regs.landS_q .., Regs.landS_qv ..⟩
  · refine foldl_land_ages (q := fun s => s.regs.q) (fun s f hf => ?_) fs hfs s n hn
    obtain ⟨d, v, hf⟩ := hf
    rw [land_scalar hf]
    exact ⟨_, Regs.landS_q ..⟩
  · rw [land_vector hf]
    exact Regs.landV_queues ..
  · rw [land_scalar hf, Regs.landS_q, pushQ_succ _ _ hn, hi]
  · refine ⟨fun h => ?_, fun h => ?_⟩
    · rw [State.srcS, arrive_scalar_q hw, fillQ_of_pending v h]; rfl
    · rw [arrive_scalar_q hw, fillQ_of_not_pending v h]
  · refine foldl_land_ages (q := fun s => s.regs.qv) (fun s f hf => ?_) fs hfs s n hn
    obtain ⟨d, v, m, hf⟩ := hf
    obtain ⟨x, hx, -⟩ := s.regs.landV_queues d v m
    exact ⟨_, by rw [land_vector hf]; exact hx⟩
  · intro x
    have hx : (s.arriveV w v).2 = x := by
      dsimp only [x]
      rw [State.arriveV]
      rcases w.vd with _ | _ | _ <;> rfl
    refine ⟨fun h => ?_, fun h => ?_⟩
    · rw [State.srcV, arrive_vector_qv hw, fillQ_of_pending _ h]; exact hx
    · rw [arrive_vector_qv hw, fillQ_of_not_pending _ h]

end Sys2Proof.Proofs
end

section
/-! # O55: what reset leaves (02_registers, R50, R58, R66) -/

namespace Sys2Proof.Machine

theorem getD_replicate {α : Type} (n i : Nat) (a : α) : (List.replicate n a)[i]?.getD a = a := by
  rw [List.getElem?_replicate]; split <;> rfl

theorem Regs.readS_reset (sup : Bool) (n : Nat) : Regs.reset.readS sup n = 0 := by
  rw [Regs.readS]
  split
  · rfl
  · split <;> exact getD_replicate ..

theorem Regs.readP_reset (n : Nat) : Regs.reset.readP n = decide (n = 0) := by
  cases n with
  | zero => rfl
  | succ n =>
    have h : (1#16).getLsbD (n + 1) = false := by simp
    exact h

theorem getK_reset {k : Nat} : State.reset.getK k = if k = 0x005 then 1 else if k = 0x020 then 4 else if k = 0x034 then 0x8017FE000040#64
    else if k = 0x035 then 1 else if k = 0x060 then 0x1F#64 else 0 := by
  unfold State.getK
  dsimp only
  split
  case h_31 =>
    have hfar (i : Nat) : State.reset.srcY i = 0 ∧ (State.reset.regs.s[i]?).getD 0 = 0 ∧ (State.reset.k.gtable[i]?).getD 0 = 0 :=
      ⟨getD_replicate .., getD_replicate .., getD_replicate ..⟩
    obtain ⟨hy, -, -⟩ := hfar (k - 0x100)
    obtain ⟨-, hs, -⟩ := hfar (k - 0x200 + 48)
    obtain ⟨-, -, hg⟩ := hfar (k - 0x400)
    rw [if_neg ‹k = 0x005 → False›, if_neg ‹k = 0x020 → False›, if_neg ‹k = 0x034 → False›, if_neg ‹k = 0x035 → False›,
      if_neg ‹k = 0x060 → False›, hy, hs, hg]
    split_ifs <;> rfl
  all_goals rfl

end Sys2Proof.Machine

namespace Sys2Proof.Proofs

open Sys2Proof Sys2Proof.Machine

/-- Settles O55: every register file, memory and queue of the reset state repeats one value, and every other part is a literal. -/
theorem resetValues : Obligations.ResetValues := by
  unfold Obligations.ResetValues
  intro s
  have hrtcfg : bits s.fab.rtcfg 50 14 = 0 ∧ bits s.fab.rtcfg 47 3 = 4 ∧ s.fab.rtcfg.getLsbD 46 = false ∧ bits s.fab.rtcfg 30 16 = 450
      ∧ bits s.fab.rtcfg 14 16 = 1373 := by decide
  have hbind : bits s.eng.bind.gstat 52 4 = 15 := by decide
  have hqueue (q : Nat) : s.queue q = .reset := getD_replicate ..
  refine ⟨fun n => ⟨Regs.readS_reset .., ?_, getD_replicate .., ?_, Regs.readP_reset n, getD_replicate ..⟩, fun k _ => getK_reset,
    rfl, rfl, rfl, rfl, rfl, fun i hi => ⟨getD_replicate .., ?_⟩, rfl, rfl, rfl, rfl, rfl, rfl, rfl, rfl, rfl, hbind, fun a => ⟨rfl, rfl⟩,
    fun v hv => ?_, rfl, fun q _ => ?_, rfl, rfl, rfl, rfl, rfl, rfl, rfl, hrtcfg⟩
  · exact congrArg QEntry.value (getD_replicate 16 n .empty)
  · exact congrArg QEntry.value (getD_replicate 16 n .empty)
  · exact List.getElem?_replicate_of_lt hi
  · exact List.getElem?_replicate_of_lt hv
  · rw [hqueue]; exact ⟨rfl, rfl, rfl, rfl, rfl⟩

end Sys2Proof.Proofs
end

section
/-! # O41: the next address -/

namespace Sys2Proof.Machine

/-! ## The loops that a bundle ends (R89) -/

theorem loopEnd_nil (here next : VAddr) (n : Nat) : loopEnd here n [] next = ([], next) := by cases n <;> rfl

section
variable {here next : VAddr} {n : Nat} {l : LoopLevel} {ls : List LoopLevel}

theorem loopEnd_of_inside (h : l.fin ≠ here) : loopEnd here n (l :: ls) next = (l :: ls, next) := by
  cases n with
  | zero => rfl
  | succ n => rw [loopEnd, if_neg h]

theorem loopEnd_of_again (h : l.fin = here) (hc : 1 < l.count.toNat) :
    loopEnd here (n + 1) (l :: ls) next = ({ l with index := l.index + 1, count := l.count - 1 } :: ls, l.start) := by
  rw [loopEnd, if_pos h, if_pos hc]

theorem loopEnd_of_last (h : l.fin = here) (hc : l.count.toNat ≤ 1) : loopEnd here (n + 1) (l :: ls) next = loopEnd here n ls next := by
  rw [loopEnd, if_pos h, if_neg (by omega)]

theorem loopEnd_of_head (h : ∀ m, ls.head? = some m → m.fin ≠ here) : loopEnd here n ls next = (ls, next) := by
  cases ls with
  | nil => exact loopEnd_nil ..
  | cons m ls => exact loopEnd_of_inside (h m rfl)

end

/-- A bundle that pushes, skips and leaves no loop ends those whose end it is. -/
theorem nextAddr_of_still {a : VAddr} {f : BundleEnd} (hp : f.pushed = none) (hs : f.skip = none) (hl : f.leaves = 0) (ls : List LoopLevel) :
    nextAddr a f ls = loopEnd a 7 ls (a + 16) := by
  rw [nextAddr, hp, hs, hl]; rfl

/-! ## The redirect that stands (R88) -/

/-- R88: issued before another redirect, or in a lower slot of its bundle. -/
def Redirect.precedes (r x : Redirect) : Prop := r.seq < x.seq ∨ (r.seq = x.seq ∧ r.slot < x.slot)

theorem pickRedirect_cons_of_some {r x : Redirect} {l : List Redirect} (h : pickRedirect l = some x) :
    pickRedirect (r :: l) = if r.seq < x.seq ∨ (r.seq = x.seq ∧ r.slot ≤ x.slot) then some r else some x := by
  rw [pickRedirect, h]

theorem mem_of_pickRedirect {l : List Redirect} {r : Redirect} (h : pickRedirect l = some r) : r ∈ l := by
  induction l generalizing r with
  | nil => cases h
  | cons y l ih =>
    cases hl : pickRedirect l with
    | none =>
      rw [pickRedirect, hl] at h
      cases h; exact List.mem_cons_self
    | some x =>
      rw [pickRedirect_cons_of_some hl] at h
      split at h
      · cases h; exact List.mem_cons_self
      · cases h; exact List.mem_cons_of_mem _ (ih hl)

theorem pickRedirect_eq_some {l : List Redirect} {r : Redirect} (hr : r ∈ l) (hfirst : ∀ x ∈ l, x = r ∨ r.precedes x) : pickRedirect l = some r := by
  induction l with
  | nil => cases hr
  | cons y l ih =>
    obtain ⟨hy, hl⟩ := List.forall_mem_cons.1 hfirst
    by_cases hyr : y = r
    · subst hyr
      cases hp : pickRedirect l with
      | none => rw [pickRedirect, hp]
      | some x =>
        rw [pickRedirect_cons_of_some hp, if_pos]
        obtain rfl | hlt | ⟨hseq, hslot⟩ := hl x (mem_of_pickRedirect hp)
        · exact .inr ⟨rfl, le_rfl⟩
        · exact .inl hlt
        · exact .inr ⟨hseq, hslot.le⟩
    · have hmem : r ∈ l := (List.mem_cons.1 hr).resolve_left (Ne.symm hyr)
      rw [pickRedirect_cons_of_some (ih hmem hl), if_neg]
      have hlater : r.precedes y := hy.resolve_left hyr
      unfold Redirect.precedes at hlater
      omega

/-! ## Where the sequencer goes (R12, R88) -/

/-- The redirects that are due at the end of this bundle. -/
def State.dueRedirects (s : State) : List Redirect := s.seq.redirects.filter fun r => r.left == 0

/-- `s` with loops `ls`, at address `a`, after redirect `won`, if any: the other redirects that are due have lost. -/
def State.goes (s : State) (ls : List LoopLevel) (a : VAddr) (won : Option Redirect) : State :=
  { s with seq := { s.seq with
    loops := ls, pc := a &&& ~~~0xF#48, redirects := s.seq.redirects.filter (fun r => r.left != 0)
    held := s.seq.held.map fun b => b.lost (s.dueRedirects.filter fun r => some r != won) } }

section
variable {s : State} {a next : VAddr} {f : BundleEnd} {ls : List LoopLevel}

theorem advance_of_none_due (h : nextAddr a f s.seq.loops = (ls, next)) (hd : s.dueRedirects = []) : s.advance a f = s.goes ls next none := by
  have hd' : s.seq.redirects.filter (fun r => r.left == 0) = [] := hd
  simp only [State.advance, State.goes, h, hd, hd', pickRedirect]

theorem advance_of_first_due {r : Redirect} (h : nextAddr a f s.seq.loops = (ls, next)) (hr : r ∈ s.dueRedirects)
    (hfirst : ∀ x ∈ s.dueRedirects, x = r ∨ r.precedes x) : s.advance a f = s.goes ls r.target (some r) := by
  have hwin : pickRedirect (s.seq.redirects.filter fun r => r.left == 0) = some r := pickRedirect_eq_some hr hfirst
  simp only [State.advance, State.goes, State.dueRedirects, h, hwin]

end

end Sys2Proof.Machine

namespace Sys2Proof.Proofs
open Sys2Proof Sys2Proof.Machine

/-- Settles O41: the loop action of the bundle gives the loops and the next address, and the first redirect that is due goes before it. -/
theorem nextAddress : Obligations.NextAddress := by
  intro s ls next pc due goes after
  refine ⟨fun hp hs hl hafter => ?_, rfl⟩
  have hnext : nextAddr pc s.fin s.seq.loops = (ls, next) := by
    rw [nextAddr_of_still (f := s.fin) hp hs hl]
    obtain ⟨h0, rfl, rfl⟩ | ⟨l, r, h0, hfin, rfl, rfl⟩ | ⟨l, r, h0, hfin, hc, rfl, rfl⟩ | ⟨l, r, h0, hfin, hc, hr, rfl, rfl⟩ := hafter
    · rw [h0]; exact loopEnd_nil ..
    · rw [h0]; exact loopEnd_of_inside hfin
    · rw [h0]; exact loopEnd_of_again hfin hc
    · rw [h0, loopEnd_of_last hfin hc]; exact loopEnd_of_head hr
  exact ⟨fun hd => congrArg _ (advance_of_none_due hnext hd), fun r hr hfirst => congrArg _ (advance_of_first_due hnext hr hfirst)⟩

end Sys2Proof.Proofs
end

section
/-! # O50: the host's windows -/

namespace Sys2Proof.Machine

/-! ## Fields and bytes of a doubleword (R7, R412) -/

/-- What replaces a field stands between the bits below it and those above. -/
theorem sub_bits_add_eq {w : Nat} (v : BitVec w) (lo n x : Nat) : v.toNat - bits v lo n * 2 ^ lo + x % 2 ^ n * 2 ^ lo =
    2 ^ lo * (2 ^ n * (v.toNat / 2 ^ lo / 2 ^ n) + x % 2 ^ n) + v.toNat % 2 ^ lo := by
  have hlow := Nat.div_add_mod v.toNat (2 ^ lo)
  have hfield : 2 ^ lo * (v.toNat / 2 ^ lo) = 2 ^ lo * (2 ^ n * (v.toNat / 2 ^ lo / 2 ^ n)) + bits v lo n * 2 ^ lo := by
    conv_lhs => rw [← Nat.div_add_mod (v.toNat / 2 ^ lo) (2 ^ n)]
    rw [bits]; ring
  have hput : 2 ^ lo * (2 ^ n * (v.toNat / 2 ^ lo / 2 ^ n) + x % 2 ^ n) = 2 ^ lo * (2 ^ n * (v.toNat / 2 ^ lo / 2 ^ n)) + x % 2 ^ n * 2 ^ lo := by ring
  omega

theorem getLsbD_putBits {w i : Nat} (v : BitVec w) (lo n x : Nat) (h : i < w) :
    (putBits v lo n x).getLsbD i = if lo ≤ i ∧ i < lo + n then x.testBit (i - lo) else v.getLsbD i := by
  have hv : v.getLsbD i = v.toNat.testBit i := rfl
  rw [putBits, BitVec.getLsbD_ofNat, decide_eq_true h, Bool.true_and, sub_bits_add_eq, hv,
    Nat.testBit_two_pow_mul_add _ (Nat.mod_lt _ (Nat.two_pow_pos lo)), Nat.testBit_two_pow_mul_add _ (Nat.mod_lt _ (Nat.two_pow_pos n))]
  by_cases hlo : i < lo
  · rw [if_pos hlo, if_neg (by omega), Nat.testBit_mod_two_pow, decide_eq_true hlo, Bool.true_and]
  · rw [if_neg hlo]
    by_cases hn : i - lo < n
    · rw [if_pos hn, if_pos (by omega), Nat.testBit_mod_two_pow, decide_eq_true hn, Bool.true_and]
    · rw [if_neg hn, if_neg (by omega), Nat.testBit_div_two_pow, Nat.testBit_div_two_pow]
      congr 1; omega

/-- A one-bit field. -/
theorem getLsbD_putBits_one {w i : Nat} (v : BitVec w) (b : Nat) (c : Bool) (h : i < w) :
    (putBits v b 1 (if c then 1 else 0)).getLsbD i = if i = b then c else v.getLsbD i := by
  rw [getLsbD_putBits v b 1 _ h]
  by_cases hb : i = b
  · rw [if_pos (by omega), if_pos hb, hb, Nat.sub_self]; cases c <;> rfl
  · rw [if_neg (by omega), if_neg hb]

theorem map_dwByte (v : DWord) : (List.range 8).map (dwByte v) = toBytes 8 v.toNat := by
  refine List.ext_getElem? fun i => ?_
  by_cases h : i < 8
  · rw [toBytes_getElem? _ _ _ h, List.getElem?_map, List.getElem?_range h, Option.map_some, dwByte, bits,
      show 256 ^ i = 2 ^ (8 * i) by rw [Nat.pow_mul]]
    exact congrArg some (BitVec.eq_of_toNat_eq (by simp))
  · rw [List.getElem?_eq_none (by simp; omega), List.getElem?_eq_none (by simp; omega)]

theorem ofNat_leNat_toBytes (v : DWord) : BitVec.ofNat 64 (leNat (toBytes 8 v.toNat)) = v := by
  rw [leNat_toBytes, Nat.mod_eq_of_lt (b := 256 ^ 8) v.isLt, BitVec.ofNat_toNat, BitVec.setWidth_eq]

/-! ## The memory window (R410, R411) -/

/-- An offset of the memory window lies in the aperture of this node. -/
def State.inAperture (s : State) (o : Nat) : Prop := o / s.hst.aperture = s.k.nodeId.toNat % 4

/-- The physical address behind an offset in this node's aperture. -/
def State.windowAddr (s : State) (o : Nat) : Nat := s.hst.mwbase.toNat / s.hst.aperture * s.hst.aperture + o % s.hst.aperture

section
variable {s : State}

theorem windowPa_of_mine {o : Nat} (h : s.inAperture o) : s.windowPa o = some (s.windowAddr o) := if_pos h

theorem windowPa_of_not_mine {o : Nat} (h : ¬ s.inAperture o) : s.windowPa o = none := if_neg h

theorem writeHome_here {a : Nat} {bs : List Byte} (attr : Attr) (h : a + bs.length ≤ hbmEnd) : s.writeHome (.here a) attr bs none =
    { s with hbm := Memory.write s.hbm a bs, l2 := l2Span s.l2 a bs.length attr true, rtags := tagWrite s.rtags (.here a) bs.length none } := by
  have e : bs.take (hbmEnd - a) = bs := List.take_of_length_le (by omega)
  rw [State.writeHome, State.writeHbm, e]

theorem exec_hostMemoryWrite_within (h : s.inAperture s.ev.off) (ha : s.windowAddr s.ev.off + s.ev.bytes.length ≤ hbmEnd) :
    exec .hostMemoryWrite s = .next { s with
      hbm := Memory.write s.hbm (s.windowAddr s.ev.off) s.ev.bytes
      l2 := l2Span s.l2 (s.windowAddr s.ev.off) s.ev.bytes.length physAttr true
      rtags := tagWrite s.rtags (.here (s.windowAddr s.ev.off)) s.ev.bytes.length none } := by
  show execHostMemoryWrite s = _
  rw [execHostMemoryWrite, windowPa_of_mine h]
  exact congrArg _ ((if_neg (Nat.not_lt.2 ha)).trans (writeHome_here _ ha))

theorem exec_hostMemoryWrite_beyond (h : s.inAperture s.ev.off) (ha : hbmEnd < s.windowAddr s.ev.off + s.ev.bytes.length) :
    exec .hostMemoryWrite s = .next (s.setHint 6) := by
  show execHostMemoryWrite s = _
  rw [execHostMemoryWrite, windowPa_of_mine h]
  exact congrArg _ (if_pos ha)

theorem exec_hostMemoryWrite_of_not_mine (h : ¬ s.inAperture s.ev.off) : exec .hostMemoryWrite s = .next s := by
  show execHostMemoryWrite s = _
  rw [execHostMemoryWrite, windowPa_of_not_mine h]

/-- `s` after a host read that `bs` answered. -/
def State.answers (s : State) (bs : List Byte) : State := { s with hst := { s.hst with readData := bs } }

theorem exec_hostMemoryRead_within (h : s.inAperture s.ev.off) (hf : s.ev.flag = false) (hn : s.ev.num ≠ 2)
    (ha : s.windowAddr s.ev.off + s.ev.count ≤ hbmEnd) :
    exec .hostMemoryRead s = .next (s.answers (Memory.bytes s.hbm (s.windowAddr s.ev.off) s.ev.count)) := by
  show execHostMemoryRead s = _
  rw [execHostMemoryRead, hf, if_neg Bool.false_ne_true, if_neg hn, windowPa_of_mine h]
  exact congrArg _ (if_neg (Nat.not_lt.2 ha))

theorem exec_hostMemoryRead_beyond (h : s.inAperture s.ev.off) (hf : s.ev.flag = false) (hn : s.ev.num ≠ 2)
    (ha : hbmEnd < s.windowAddr s.ev.off + s.ev.count) :
    exec .hostMemoryRead s = .next ((s.answers (List.replicate s.ev.count 0xFF#8)).setHint 6) := by
  show execHostMemoryRead s = _
  rw [execHostMemoryRead, hf, if_neg Bool.false_ne_true, if_neg hn, windowPa_of_mine h]
  exact congrArg _ (if_pos ha)

theorem exec_hostMemoryRead_of_not_mine (h : ¬ s.inAperture s.ev.off) (hf : s.ev.flag = false) (hn : s.ev.num ≠ 2) : exec .hostMemoryRead s = .next s := by
  show execHostMemoryRead s = _
  rw [execHostMemoryRead, hf, if_neg Bool.false_ne_true, if_neg hn, windowPa_of_not_mine h]

/-! ## Reads of the control window (R412) and of the launch window (R373) -/

theorem controlRead_doubleword {o : Nat} (ho : o < 0x10000) (h8 : o % 8 = 0) :
    s.controlRead (s.k.nodeId.toNat % 4 * 0x10000 + o) 8 = toBytes 8 (s.controlWord o).toNat := by
  rw [← map_dwByte]
  refine List.map_congr_left fun i hi => ?_
  have hi : i < 8 := List.mem_range.1 hi
  have hword : (s.k.nodeId.toNat % 4 * 0x10000 + o + i) % 0x10000 / 8 * 8 = o := by omega
  have hbyte : (s.k.nodeId.toNat % 4 * 0x10000 + o + i) % 8 = i := by omega
  dsimp only
  rw [if_neg (by omega), if_pos (by omega), hword, hbyte]

theorem exec_hostMemoryRead_control {o : Nat} (hf : s.ev.flag = false) (hn : s.ev.num = 2) (hoff : s.ev.off = s.k.nodeId.toNat % 4 * 0x10000 + o)
    (hc : s.ev.count = 8) (ho : o < 0x10000) (h8 : o % 8 = 0) : exec .hostMemoryRead s = .next (s.answers (toBytes 8 (s.controlWord o).toNat)) := by
  show execHostMemoryRead s = _
  rw [execHostMemoryRead, hf, if_neg Bool.false_ne_true, if_pos hn, hoff, hc, controlRead_doubleword ho h8]; rfl

/-- Past the registers that have an offset each stand the vaults' and the telemetry. -/
theorem controlWord_of_ge {o : Nat} (h : 0x0D8 ≤ o) : s.controlWord o =
    if 0x100 ≤ o ∧ o < 0x200 then (s.vaults[(o - 0x100) / 8]?).elim 0 Vault.vown
    else if 0x200 ≤ o ∧ o < 0x300 then (s.hst.telem[(o - 0x200) / 8]?).getD 0
    else 0 := by
  unfold State.controlWord
  dsimp only
  split
  case h_25 => rfl
  all_goals omega

/-- Registers that only take writes, and offsets that are not listed. -/
theorem controlWord_unreadable {o : Nat} (h : o = 0x068 ∨ o = 0x070 ∨ o = 0x088 ∨ (0x0D8 ≤ o ∧ o < 0x100) ∨ (0x300 ≤ o ∧ o < 0x10000)) :
    s.controlWord o = 0 := by
  obtain rfl | rfl | rfl | h := h
  · rfl
  · rfl
  · rfl
  · rw [controlWord_of_ge (by omega), if_neg (by omega), if_neg (by omega)]

theorem controlWord_vault {i : Nat} {w : Vault} (hi : i < 32) (hw : s.vaults[i]? = some w) : s.controlWord (0x100 + 8 * i) = w.vown := by
  rw [controlWord_of_ge (by omega), if_pos (by omega), show (0x100 + 8 * i - 0x100) / 8 = i by omega, hw]; rfl

theorem launchRead_doubleword {q o : Nat} (hq : q < 64) (ho : o < 0x1000) (h8 : o % 8 = 0) :
    s.launchRead (s.k.nodeId.toNat % 4 * 0x40000 + q * 0x1000 + o) 8 = toBytes 8 (s.launchWord q o).toNat := by
  have hpage : launchPage (s.k.nodeId.toNat % 4 * 0x40000 + q * 0x1000 + o) = (s.k.nodeId.toNat % 4, q, o) := by
    refine Prod.ext ?_ (Prod.ext ?_ ?_) <;> simp only [launchPage] <;> omega
  rw [← map_dwByte, State.launchRead, hpage]
  dsimp only
  rw [if_neg (not_not_intro rfl)]
  refine List.map_congr_left fun i hi => ?_
  have hi : i < 8 := List.mem_range.1 hi
  rw [show (o + i) / 8 * 8 = o by omega, show (o + i) % 8 = i by omega]

theorem exec_hostMemoryRead_launch {q o : Nat} (hf : s.ev.flag = true) (hoff : s.ev.off = s.k.nodeId.toNat % 4 * 0x40000 + q * 0x1000 + o)
    (hc : s.ev.count = 8) (hq : q < 64) (ho : o < 0x1000) (h8 : o % 8 = 0) :
    exec .hostMemoryRead s = .next (s.answers (toBytes 8 (s.launchWord q o).toNat)) := by
  show execHostMemoryRead s = _
  rw [execHostMemoryRead, if_pos hf, hoff, hc, launchRead_doubleword hq ho h8]; rfl

theorem launchWord_unlisted {q o : Nat} (h1 : o ≠ 0x040) (h2 : o ≠ 0x048) (h3 : o ≠ 0x050) : s.launchWord q o = 0 := by
  unfold State.launchWord
  split
  case h_4 => rfl
  all_goals contradiction

end

/-- R412: STATE in bits 1:0 of VOWN. -/
def VState.code : VState → Nat | .free => 0 | .owned => 1 | .releasing => 2 | .scrubbing => 3

section
variable (w : Vault)

theorem Vault.vown_toNat :
    w.vown.toNat = (if w.state = .free then 0 else w.owner.toNat * 2 ^ 48) + (if w.quarantined then 4 else 0) + w.state.code := by
  have ho := w.owner.isLt
  have hs : w.state.code < 4 := by cases w.state <;> decide
  have e : w.vown = BitVec.ofNat 64 ((if w.state = .free then 0 else w.owner.toNat * 2 ^ 48) + (if w.quarantined then 4 else 0) + w.state.code) := rfl
  rw [e, BitVec.toNat_ofNat, Nat.mod_eq_of_lt]
  split_ifs <;> omega

theorem Vault.vown_state : bits w.vown 0 2 = w.state.code := by
  have hs : w.state.code < 4 := by cases w.state <;> decide
  rw [bits, w.vown_toNat]
  split_ifs <;> omega

theorem Vault.vown_quarantined : w.vown.getLsbD 2 = w.quarantined := by
  have hs : w.state.code < 4 := by cases w.state <;> decide
  have hbit : w.vown.getLsbD 2 = decide (w.vown.toNat / 2 ^ 2 % 2 = 1) := Nat.testBit_eq_decide_div_mod_eq
  have hq : w.vown.toNat / 2 ^ 2 % 2 = if w.quarantined then 1 else 0 := by rw [w.vown_toNat]; split_ifs <;> omega
  rw [hbit, hq]; cases w.quarantined <;> rfl

theorem Vault.vown_owner (h : w.state ≠ .free) : bits w.vown 48 16 = w.owner.toNat := by
  have ho := w.owner.isLt
  have hs : w.state.code < 4 := by cases w.state <;> decide
  rw [bits, w.vown_toNat, if_neg h]
  split_ifs <;> omega

end

/-! ## A fold in which one element acts -/

theorem foldl_eq_of_fixed {α β : Type} {f : β → α → β} {b : β} {l : List α} (h : ∀ a ∈ l, f b a = b) : l.foldl f b = b := by
  induction l with
  | nil => rfl
  | cons a l ih =>
    obtain ⟨ha, hl⟩ := List.forall_mem_cons.1 h
    rw [List.foldl_cons, ha, ih hl]

theorem foldl_eq_of_one {α β : Type} {f : β → α → β} {b : β} {l : List α} {x : α} (hx : x ∈ l) (hl : l.Nodup) (hb : ∀ a ∈ l, a ≠ x → f b a = b)
    (hc : ∀ a ∈ l, a ≠ x → f (f b x) a = f b x) : l.foldl f b = f b x := by
  obtain ⟨l1, l2, rfl⟩ := List.append_of_mem hx
  obtain ⟨-, htail, hdisj⟩ := List.nodup_append.1 hl
  have h1 : ∀ a ∈ l1, a ≠ x := fun a ha => hdisj a ha x List.mem_cons_self
  have h2 : ∀ a ∈ l2, a ≠ x := fun a ha e => (List.nodup_cons.1 htail).1 (e ▸ ha)
  rw [List.foldl_append, foldl_eq_of_fixed fun a ha => hb a (by simp [ha]) (h1 a ha), List.foldl_cons,
    foldl_eq_of_fixed fun a ha => hc a (by simp [ha]) (h2 a ha)]

/-! ## Deferred messages (R413) -/

/-- Vector `j` of the node sends what it has deferred, if it may. -/
def Hst.sendOne (h : Hst) (base j : Nat) : Hst :=
  if (h.msixPend[j]?).getD false && !h.masked j then { h with msixPend := h.msixPend.set j false, msixSent := h.msixSent ++ [base + j] } else h

section
variable {h : Hst} {base j : Nat}

theorem sendOne_of_masked (hm : h.masked j = true) : h.sendOne base j = h := by
  rw [Hst.sendOne, hm, Bool.not_true, Bool.and_false, if_neg Bool.false_ne_true]

theorem sendOne_of_clear (hp : h.msixPend[j]? = some false) : h.sendOne base j = h := by
  rw [Hst.sendOne, hp]; rfl

theorem sendOne_of_pending (hp : h.msixPend[j]? = some true) (hm : h.masked j = false) :
    h.sendOne base j = { h with msixPend := h.msixPend.set j false, msixSent := h.msixSent ++ [base + j] } := by
  rw [Hst.sendOne, hp, hm]; rfl

theorem sendPending_of_quiet (hq : ∀ i, i < 8 → h.masked i = true ∨ h.msixPend[i]? = some false) : h.sendPending base = h :=
  foldl_eq_of_fixed (f := fun (g : Hst) i => g.sendOne base i) fun i hi => (hq i (List.mem_range.1 hi)).elim sendOne_of_masked sendOne_of_clear

/-- The one vector that has something deferred sends it. -/
theorem sendPending_of_one (hj : j < 8) (hclear : ∀ i, i < 8 → i ≠ j → h.msixPend[i]? = some false) (hp : h.msixPend[j]? = some true)
    (hm : h.masked j = false) : h.sendPending base = { h with msixPend := h.msixPend.set j false, msixSent := h.msixSent ++ [base + j] } := by
  refine (foldl_eq_of_one (f := fun (g : Hst) i => g.sendOne base i) (List.mem_range.2 hj) List.nodup_range
    (fun i hi hij => sendOne_of_clear (hclear i (List.mem_range.1 hi) hij)) fun i hi hij => sendOne_of_clear ?_).trans (sendOne_of_pending hp hm)
  rw [sendOne_of_pending hp hm]
  exact (List.getElem?_set_ne hij.symm).trans (hclear i (List.mem_range.1 hi) hij)

end

section
variable {s : State}

/-- Vector `j` of this node with mask `b`. -/
def Hst.withMask (h : Hst) (j : Nat) (b : Bool) : Hst := { h with msixMask := h.msixMask.set j b }

theorem masked_withMask {h : Hst} {j : Nat} {b : Bool} (hl : j < h.msixMask.length) : (h.withMask j b).masked j = (h.msixFun || b) := by
  rw [Hst.masked, Hst.withMask, List.getElem?_set_self hl]; rfl

theorem exec_msixUnmask_function (hn : s.ev.num = 32) :
    exec .msixUnmask s = .next { s with hst := { s.hst with msixFun := s.ev.flag }.sendPending s.k.vector } :=
  congrArg _ (if_pos hn)

theorem exec_msixUnmask_mine {j : Nat} (hj : j < 8) (hn : s.ev.num = s.k.vector + j) :
    exec .msixUnmask s = .next { s with hst := (s.hst.withMask j s.ev.flag).sendPending s.k.vector } := by
  have hv : s.k.vector ≤ 24 := by unfold KRegs.vector; omega
  show execMsixUnmask s = _
  rw [execMsixUnmask, hn, if_neg (by omega), if_pos (by omega), Nat.add_sub_cancel_left]; rfl

/-- A mask that is set, or cleared where nothing goes out, sends nothing. -/
theorem exec_msixUnmask_quiet {j : Nat} {b : Bool} (hj : j < 8) (hn : s.ev.num = s.k.vector + j) (hf : s.ev.flag = b)
    (hclear : ∀ i, i < 8 → i ≠ j → s.hst.msixPend[i]? = some false)
    (hq : (s.hst.withMask j b).masked j = true ∨ s.hst.msixPend[j]? = some false) :
    exec .msixUnmask s = .next { s with hst := s.hst.withMask j b } := by
  have hquiet : (s.hst.withMask j b).sendPending s.k.vector = s.hst.withMask j b := sendPending_of_quiet fun i hi => by
    by_cases hij : i = j
    · rw [hij]; exact hq
    · exact .inr (hclear i hi hij)
  rw [exec_msixUnmask_mine hj hn, hf, hquiet]

theorem exec_msixUnmask_sends {j : Nat} (hj : j < 8) (hn : s.ev.num = s.k.vector + j) (hf : s.ev.flag = false)
    (hclear : ∀ i, i < 8 → i ≠ j → s.hst.msixPend[i]? = some false) (hp : s.hst.msixPend[j]? = some true)
    (hm : (s.hst.withMask j false).masked j = false) : exec .msixUnmask s = .next { s with hst :=
      { s.hst.withMask j false with msixPend := s.hst.msixPend.set j false, msixSent := s.hst.msixSent ++ [s.k.vector + j] } } := by
  rw [exec_msixUnmask_mine hj hn, hf, sendPending_of_one (h := s.hst.withMask j false) hj hclear hp hm]; rfl

theorem exec_msixUnmask_other (h : s.ev.num < s.k.vector ∨ s.k.vector + 8 ≤ s.ev.num) (hn : s.ev.num ≠ 32) : exec .msixUnmask s = .next s := by
  show execMsixUnmask s = _
  rw [execMsixUnmask, if_neg hn, if_neg (by omega)]

/-! ## Registers whose write has an effect of its own (R109, R266, R412, R413, R416) -/

theorem exec_trrdWrite (h : s.hst.traceQ = []) : exec .trrdWrite s = .next { s with hst := { s.hst with trrd := s.ev.value &&& ~~~0xF#64 } } := by
  show execTrrdWrite s = _
  rw [execTrrdWrite]
  dsimp only
  rw [h]; rfl

/-- No hint that was set becomes enabled where none is set. -/
theorem exec_hintenWrite (h : s.hst.hint = 0) : exec .hintenWrite s = .next { s with hst := { s.hst with hinten := s.ev.value.setWidth 9 } } := by
  show execHintenWrite s = _
  have hnew (b : Nat) : (s.ev.value.setWidth 9 &&& ~~~s.hst.hinten &&& s.hst.hint).getLsbD b = false := by rw [h]; simp
  simp only [execHintenWrite, hnew, Bool.false_eq_true, if_false, List.foldl_fixed]

/-- The pages of the leaf that maps a page. -/
def leafPages (lvl page : Nat) : List Nat := if lvl = 3 then (List.range 32).map fun i => page / 32 * 32 + i else [page]

theorem leafPinned_iff {e : DWord} {lvl page : Nat} :
    s.leafPinned e lvl page = true ↔ ∃ p ∈ leafPages lvl page, ∃ l ∈ pageLines s.l2 e lvl p, 0 < l.pins := by
  simp only [State.leafPinned, leafPages, List.any_eq_true, decide_eq_true_eq]

/-- The leaf of the page that a migration request names. -/
def State.migrating (s : State) : Option (Nat × DWord × Nat) := s.leafAt (BitVec.ofNat 16 (bits s.ev.value 48 16)) (bits s.ev.value 16 32)

theorem exec_migrq_unmapped (h : s.migrating = none) : exec .migrq s = .next { s with hst := { s.hst with migrs := 3, migrq := none } } := by
  show execMigrq s = _
  rw [State.migrating] at h
  rw [execMigrq]; dsimp only; rw [h]

theorem exec_migrq_mapped {x lvl : Nat} {e : DWord} (h : s.migrating = some (x, e, lvl)) : exec .migrq s = .next { s with
    hst := if s.leafPinned e lvl (bits s.ev.value 16 32) then { s.hst with migrs := 2, migrq := none }
      else { s.hst with migrs := 0, migrq := some (s.ev.value, e) } } := by
  show execMigrq s = _
  rw [State.migrating] at h
  rw [execMigrq]; dsimp only; rw [h]

theorem exec_migrq_free {x lvl : Nat} {e : DWord} (h : s.migrating = some (x, e, lvl))
    (hfree : ∀ p ∈ leafPages lvl (bits s.ev.value 16 32), ∀ l ∈ pageLines s.l2 e lvl p, l.pins = 0) :
    exec .migrq s = .next { s with hst := { s.hst with migrs := 0, migrq := some (s.ev.value, e) } } := by
  rw [exec_migrq_mapped h, if_neg]
  intro hpin
  obtain ⟨p, hp, l, hl, hpos⟩ := leafPinned_iff.1 hpin
  exact hpos.ne' (hfree p hp l hl)

theorem exec_migrq_pinned {x lvl : Nat} {e : DWord} (h : s.migrating = some (x, e, lvl))
    (hpin : ∃ p ∈ leafPages lvl (bits s.ev.value 16 32), ∃ l ∈ pageLines s.l2 e lvl p, 0 < l.pins) :
    exec .migrq s = .next { s with hst := { s.hst with migrs := 2, migrq := none } } := by
  rw [exec_migrq_mapped h, if_pos (leafPinned_iff.2 hpin)]

/-! ## Writes by name, and by offset (R410, R412) -/

theorem exec_hostRegisterWrite_named {r : HostReg} (hf : s.ev.flag = false) (hr : s.ev.reg = r) :
    exec .hostRegisterWrite s = .next (s.hostWrite r s.ev.value) := by
  show execHostRegisterWrite s = _
  rw [execHostRegisterWrite, hf, hr]; rfl

theorem hostWrite_pwrcap {v : DWord} (h1 : 500 ≤ v.toNat) (h2 : v.toNat ≤ 3200) : s.hostWrite .pwrcap v = { s with hst := { s.hst with pwrcap := v } } :=
  if_pos ⟨h1, h2⟩

theorem hostWrite_pwrcap_outside {v : DWord} (h : v.toNat < 500 ∨ 3200 < v.toNat) : s.hostWrite .pwrcap v = s := if_neg (by omega)

/-- The sizes that BAR 4 may take (R410). -/
theorem mem_windowSizes {i : Nat} : i ∈ (List.range 10).map (30 + ·) ↔ 30 ≤ i ∧ i < 40 := by
  simp only [List.mem_map, List.mem_range]
  exact ⟨by omega, fun h => ⟨i - 30, by omega⟩⟩

theorem hostWrite_bar4 {v : DWord} {i : Nat} (h1 : 30 ≤ i) (h2 : i < 40) (hv : v.toNat = 2 ^ i) :
    s.hostWrite .bar4 v = { s with hst := { s.hst with window := i } } := by
  have hfind : ((List.range 10).map (30 + ·)).find? (fun j => v.toNat == 2 ^ j) = some i := by
    cases hf : ((List.range 10).map (30 + ·)).find? (fun j => v.toNat == 2 ^ j) with
    | none => exact absurd hv (by simpa using List.find?_eq_none.1 hf i (mem_windowSizes.2 ⟨h1, h2⟩))
    | some j =>
      have hj : v.toNat = 2 ^ j := by simpa using List.find?_some hf
      rw [Nat.pow_right_injective le_rfl (hj.symm.trans hv)]
  rw [State.hostWrite, hfind]; rfl

theorem hostWrite_bar4_outside {v : DWord} (h : ∀ i, 30 ≤ i → i < 40 → v.toNat ≠ 2 ^ i) : s.hostWrite .bar4 v = s := by
  have hfind : ((List.range 10).map (30 + ·)).find? (fun j => v.toNat == 2 ^ j) = none :=
    List.find?_eq_none.2 fun i hi => by
      obtain ⟨h1, h2⟩ := mem_windowSizes.1 hi
      simpa using h i h1 h2
  rw [State.hostWrite, hfind]; rfl

/-- R328: bit 46 of RTCFG is writable where its feature has been acknowledged. -/
theorem getLsbD_rtcfg_written {v : DWord} {i : Nat} (b : Bool) (hi : i < 64) :
    (if b then v else putBits v 46 1 0).getLsbD i = if i = 46 then v.getLsbD 46 && b else v.getLsbD i := by
  cases b with
  | true => by_cases h : i = 46 <;> simp [h]
  | false =>
    rw [if_neg Bool.false_ne_true, Bool.and_false]
    exact getLsbD_putBits_one v 46 false hi

theorem exec_hostRegisterWrite_word {v : DWord} {o : Nat} {u : State} (hf : s.ev.flag = true) (hb : s.ev.bytes = toBytes 8 v.toNat)
    (hoff : s.ev.off = s.k.nodeId.toNat % 4 * 0x10000 + o) (ho : o < 0x10000) (h8 : o % 8 = 0) (hw : s.controlWrite o v = .next u) :
    exec .hostRegisterWrite s = .next { u with ev := s.ev } := by
  show execHostRegisterWrite s = _
  have hmine : s.ev.off / 0x10000 = s.k.nodeId.toNat % 4 ∧ s.ev.off % 8 = 0 ∧ s.ev.bytes.length = 8 :=
    ⟨by omega, by omega, by rw [hb, toBytes_length]⟩
  rw [execHostRegisterWrite, hf, Bool.not_true, if_neg Bool.false_ne_true, if_neg (by omega), if_pos hmine, show s.ev.off % 0x10000 = o by omega, hb,
    ofNat_leNat_toBytes, hw]

/-- A write that is no aligned doubleword of this node's block. -/
theorem exec_hostRegisterWrite_elsewhere (hf : s.ev.flag = true) (hoff : s.ev.off < 0x40000)
    (h : s.ev.off / 0x10000 ≠ s.k.nodeId.toNat % 4 ∨ s.ev.off % 8 ≠ 0) : exec .hostRegisterWrite s = .next s := by
  show execHostRegisterWrite s = _
  rw [execHostRegisterWrite, hf, Bool.not_true, if_neg Bool.false_ne_true, if_neg (by omega), if_neg (by omega)]

theorem exec_hostRegisterWrite_package (hf : s.ev.flag = true) (h1 : 0x40000 ≤ s.ev.off) (h2 : s.ev.off < 0x50000) :
    exec .hostRegisterWrite s = .next (s.packageWrite (s.ev.off - 0x40000) s.ev.bytes) := by
  show execHostRegisterWrite s = _
  rw [execHostRegisterWrite, hf, Bool.not_true, if_neg Bool.false_ne_true, if_pos ⟨h1, h2⟩]

/-- R424: PWRCAP in the package block. -/
theorem packageWrite_pwrcap (v : DWord) : s.packageWrite 0x40 (toBytes 8 v.toNat) = s.hostWrite .pwrcap v := by
  rw [State.packageWrite, toBytes_length, if_neg (by omega), if_neg (by omega), if_pos rfl, ofNat_leNat_toBytes]

theorem exec_hostRegisterWrite_pwrcap {v : DWord} (hf : s.ev.flag = true) (hb : s.ev.bytes = toBytes 8 v.toNat) (hoff : s.ev.off = 0x40040)
    (h1 : 500 ≤ v.toNat) (h2 : v.toNat ≤ 3200) : exec .hostRegisterWrite s = .next { s with hst := { s.hst with pwrcap := v } } := by
  rw [exec_hostRegisterWrite_package hf (by omega) (by omega), show s.ev.off - 0x40000 = 0x40 by omega, hb, packageWrite_pwrcap, hostWrite_pwrcap h1 h2]

theorem controlWrite_of_ge {v : DWord} {o : Nat} (h : 0x0D8 ≤ o) : s.controlWrite o v = .next s := by
  unfold State.controlWrite
  dsimp only
  split
  case h_19 => rfl
  all_goals omega

/-- Registers that are only read, and offsets that are not listed. -/
theorem controlWrite_unwritable {v : DWord} {o : Nat} (h : o = 0x020 ∨ o = 0x078 ∨ o = 0x090 ∨ o = 0x0B0 ∨ (0x0D8 ≤ o ∧ o < 0x10000)) :
    s.controlWrite o v = .next s := by
  obtain rfl | rfl | rfl | rfl | ⟨h, -⟩ := h
  · rfl
  · rfl
  · rfl
  · rfl
  · exact controlWrite_of_ge h

end

end Sys2Proof.Machine

namespace Sys2Proof.Proofs
open Sys2Proof Sys2Proof.Machine

/-- Settles O50: an offset of a window names its aperture, its doubleword or its register, and a register named either way has one effect. -/
theorem hostWindows : Obligations.HostWindows := by
  refine ⟨fun s => ?_, fun s => ?_, fun s v o => ?_⟩
  · intro h v n mine a put
    refine ⟨exec_hostMemoryWrite_within, exec_hostMemoryWrite_beyond, exec_hostMemoryWrite_of_not_mine, exec_hostMemoryRead_of_not_mine,
      fun o hf hn hoff hc => ?_, fun q o hf hoff hq hc => ?_, exec_hostMemoryRead_within, exec_hostMemoryRead_beyond,
      ⟨_, rfl, fun i hi => getLsbD_putBits_one _ _ _ hi⟩, ⟨_, rfl, fun i hi => getLsbD_putBits_one _ _ _ hi⟩,
      ⟨_, rfl, fun i hi => getLsbD_putBits_one _ _ _ hi⟩, rfl, exec_trrdWrite, rfl, rfl, exec_hintenWrite, fun hs => congrArg _ (if_neg (by simp [h, hs])),
      fun hs => congrArg _ (if_pos hs), ?_, ?_⟩
    · intro reads
      have hread {w : DWord} (ho : o < 0x10000) (h8 : o % 8 = 0) (hw : s.controlWord o = w) : reads w := by
        rw [← hw]; exact exec_hostMemoryRead_control hf hn hoff hc ho h8
      have hat {k : Nat} {w : DWord} (hk : k < 0x10000 ∧ k % 8 = 0) (hw : s.controlWord k = w) (ho : o = k) : reads w := by
        subst ho; exact hread hk.1 hk.2 hw
      refine ⟨hat (by decide) rfl, hat (by decide) rfl, hat (by decide) rfl, hat (by decide) rfl, hat (by decide) rfl, hat (by decide) rfl,
        hat (by decide) rfl, hat (by decide) rfl, hat (by decide) rfl, hat (by decide) rfl, hat (by decide) rfl, hat (by decide) rfl,
        hat (by decide) rfl, hat (by decide) rfl, fun i w hi ho hw => ?_, fun h8 ho => hread (by omega) h8 (controlWord_unreadable ho)⟩
      exact ⟨w.vown, hat (by omega) (controlWord_vault hi hw) ho, w.vown_quarantined, w.vown_owner, w.vown_state⟩
    · intro reads
      have hread {w : DWord} (ho : o < 0x1000) (h8 : o % 8 = 0) (hw : s.launchWord q o = w) : reads w := by
        rw [← hw]; exact exec_hostMemoryRead_launch hf hoff hc hq ho h8
      have hat {k : Nat} {w : DWord} (hk : k < 0x1000 ∧ k % 8 = 0) (hw : s.launchWord q k = w) (ho : o = k) : reads w := by
        subst ho; exact hread hk.1 hk.2 hw
      exact ⟨hat (by decide) rfl, fun ho hr => hat (k := 0x048) (by decide) (if_pos hr) ho,
        fun ho hr => hat (k := 0x048) (by decide) (if_neg hr) ho, hat (by decide) rfl, fun ho h8 h1 h2 h3 => hread ho h8 (launchWord_unlisted h1 h2 h3)⟩
    · intro e
      exact ⟨exec_migrq_unmapped, fun x w lvl he => ⟨exec_migrq_free he, exec_migrq_pinned he⟩⟩
    · intro base
      refine ⟨fun j hj hn hlen _ hclear => ?_, fun hn hf => ?_, fun hn hf hclear => ?_, exec_msixUnmask_other⟩
      · have hset (b : Bool) : (h.withMask j b).masked j = (h.msixFun || b) := masked_withMask (by omega)
        refine ⟨fun hf hfun hp => exec_msixUnmask_sends hj hn hf hclear hp ?_, fun hf hq => exec_msixUnmask_quiet hj hn hf hclear ?_,
          fun hf => exec_msixUnmask_quiet hj hn hf hclear (.inl ?_)⟩
        · rw [hset, hfun]; rfl
        · exact hq.imp_left fun hfun => by rw [hset, hfun]; rfl
        · rw [hset, Bool.or_true]
      · rw [exec_msixUnmask_function hn, hf]
        exact congrArg put (sendPending_of_quiet fun i _ => .inl rfl)
      · rw [exec_msixUnmask_function hn, hf]
        exact congrArg put (sendPending_of_quiet fun i hi => .inr (hclear i hi))
  · intro h v r put n hf
    have hname {x : HostReg} {t : State} (hw : s.hostWrite x v = t) (hr : r = x) : exec .hostRegisterWrite s = .next t := by
      rw [← hw]; exact exec_hostRegisterWrite_named hf hr
    exact ⟨hname rfl, hname rfl, hname rfl, hname rfl, hname rfl, hname rfl, hname rfl,
      fun i hr h1 h2 hv => hname (hostWrite_bar4 h1 h2 hv) hr, fun hr hv => hname (hostWrite_bar4_outside hv) hr, hname rfl,
      fun hr h1 h2 => hname (hostWrite_pwrcap h1 h2) hr, fun hr hv => hname (hostWrite_pwrcap_outside hv) hr,
      fun hr => ⟨_, hname rfl hr, fun i hi => getLsbD_rtcfg_written _ hi⟩⟩
  · intro h put hf hb
    refine ⟨fun hoff => ?_, fun hlt hn => exec_hostRegisterWrite_elsewhere hf hlt (.inl hn), exec_hostRegisterWrite_pwrcap hf hb⟩
    have hat {k : Nat} {u : State} (ho : o = k) (hk : k < 0x10000 ∧ k % 8 = 0) (hw : s.controlWrite k v = .next u) :
        exec .hostRegisterWrite s = .next { u with ev := s.ev } := by
      subst ho; exact exec_hostRegisterWrite_word hf hb hoff hk.1 hk.2 hw
    refine ⟨fun ho => (hat ho (by decide) rfl).trans rfl, fun ho => (hat ho (by decide) rfl).trans rfl, fun ho => (hat ho (by decide) rfl).trans rfl,
      fun ho => (hat ho (by decide) rfl).trans rfl, fun ho => (hat ho (by decide) rfl).trans rfl, fun ho => ?_⟩
    by_cases h8 : o % 8 = 0
    · exact hat rfl ⟨by omega, h8⟩ (controlWrite_unwritable ho)
    · exact exec_hostRegisterWrite_elsewhere hf (by omega) (.inr (by omega))

end Sys2Proof.Proofs
end

section
/-! # O9 to O12: what loads, stores, reductions and atomics do at their issue -/

namespace Sys2Proof.Machine

/-! ## Checks in sequence -/

theorem bind_eq_ok {α β : Type} {x : Except Issue α} {f : α → Except Issue β} {b : β} : (x >>= f) = .ok b ↔ ∃ a, x = .ok a ∧ f a = .ok b := by
  cases x <;> simp

theorem checkAt_eq_ok {b : Bool} {c : Cause} {a : VAddr} {u : Unit} : checkAt b c a = .ok u ↔ b = true := by cases b <;> simp

section
variable {s : State} {va : VAddr} {l : Xlat} {acc : Access} {pol : BitVec 32} {a : DWord} {n : Nat}

/-! ## Where an access of the node's own lies (R232, R233, R240, R250) -/

theorem homeOf_ne_remote {k : KRegs} {e : DWord} {lvl : Nat} {loc : Loc} (h : k.homeOf e lvl va = .ok loc) (node : BitVec 14) (x : VAddr) :
    loc ≠ .remote node x := by
  unfold KRegs.homeOf at h
  dsimp only at h
  split at h
  · cases h; exact nofun
  · split at h
    · cases h; exact nofun
    · cases h

theorem page_ne_remote {rq : Requester} {job : BitVec 16} (h : s.page rq job va acc pol = .ok l) (node : BitVec 14) (x : VAddr) : l.loc ≠ .remote node x := by
  unfold State.page at h
  split at h
  · cases h
  · simp only [bind_eq_ok] at h
    obtain ⟨_, _, loc, hloc, heq⟩ := h
    cases heq
    exact homeOf_ne_remote hloc node x

theorem translate_ne_remote (h : s.translate va acc pol = .ok l) (node : BitVec 14) (x : VAddr) : l.loc ≠ .remote node x := by
  unfold State.translate State.translateBy at h
  split at h
  · simp only [bind_eq_ok] at h
    obtain ⟨_, _, heq⟩ := h
    cases heq
    exact nofun
  · simp only [bind_eq_ok] at h
    obtain ⟨_, _, y, hy, _, _, heq⟩ := h
    cases heq
    exact page_ne_remote hy node x

/-- What an access that passes has formed, and where it lies. -/
theorem access_ok (h : s.access a n acc pol = .ok (va, l)) : formVa a = .ok va ∧ 0x10000000 ≤ va.toNat ∧ ∀ node x, l.loc ≠ .remote node x := by
  unfold State.access at h
  simp only [bind_eq_ok, checkAt_eq_ok] at h
  obtain ⟨va', hva, _, hlow, _, _, x, hx, _, _, heq⟩ := h
  cases heq
  refine ⟨hva, ?_, translate_ne_remote hx⟩
  rw [Bool.or_eq_true, decide_eq_true_eq] at hlow
  exact hlow.elim (fun h47 => le_trans (by decide) (Nat.ge_two_pow_of_testBit h47)) id

theorem formVa_setWidth (va : VAddr) : formVa (va.setWidth 64) = .ok va := by
  have h0 : bits (va.setWidth 64) 48 16 = 0 := by
    have := va.isLt
    simp only [bits, BitVec.toNat_setWidth]
    omega
  simp [formVa, h0]

/-! ## Rooms and flags (R68, R247) -/

theorem lsRoom_of_lt (h : s.requests < 8192) : s.lsRoom = .ok () := by rw [State.lsRoom, decide_eq_true h]; rfl

theorem applyAll_endFlags (s : State) (f : Flags) : applyAll s (endFlags f) = s.flagged f := by
  unfold endFlags State.flagged; split <;> rfl

/-! ## Loads (R123, R251, R252, R256) -/

section
variable {d : SDst} {t : Ty}

/-- A wait for a scalar result. -/
def scalarWait (d : SDst) (lat : Nat) (op : WaitOp) : Wait := ⟨0, 0, 0, false, false, some d, none, 0, none, lat, false, .no, op⟩

/-- `s` with a load of a program that has issued: its destination joined to the write set, its page's translation kept, its request to come. -/
def State.loading (s : State) (lat : Nat) (d : SDst) (va : VAddr) (l : Xlat) (t : Ty) (pol : BitVec 32) : State :=
  ({ s.writesOf (sDstUnits d) with tlb := l.tlb }.awaiting (scalarWait d lat (.load va l.loc l.attr t pol none))).flagged
    (if s.acquireOut pol l.loc then flagScopeMiss else 0)

theorem settle_loadEffects (lat : Nat) (hp : s.k.priv = false) (hb : s.requests < 8192) (hc : s.noClash (sDstUnits d)) :
    s.settle (issueOf (s.loadEffects lat d va l t pol)) = .next (s.loading lat d va l t pol) := by
  obtain ⟨us, hus, ha⟩ := varWrite_of_noClash hc
  simp only [State.loadEffects, lsRoom_of_lt hb, hus, hp, ok_bind, issueOf_ok, settle_done, applyAll_append, applyAll_endFlags, ha]
  rfl

/-- R331: a load of a peer's page issues once its flow has room for its request. -/
theorem settle_ldIssue_program {x : SSrc} {off : Int} {p : Nat} (hp : s.k.priv = false) (hr : s.rgn.isSome = true) (hb : s.requests < 8192)
    (hc : s.noClash (sDstUnits d)) (h : s.access (s.srcS x + BitVec.ofInt 64 (tyBytes t * off)) (tyBytes t) .read (s.srcY p) = .ok (va, l))
    (hf : ∀ node a, l.loc = .peer node a → s.flowRoom s.k.jobtag node (polClass (s.srcY p)) = true) :
    s.settle (s.ldIssue d x off p t) = .next (s.loading 24 d va l t (s.srcY p)) := by
  obtain ⟨hva, hlow, _⟩ := access_ok h
  rw [← settle_loadEffects 24 hp hb hc, State.ldIssue, needRegion_of_regional (.inr (.inl hr))]
  simp only [ok_bind, hva, if_neg (not_lt.2 hlow), hp, Bool.false_eq_true, if_false, h]
  cases hl : l.loc with
  | peer node a => simp only [hf node a hl, await_true, ok_bind]
  | _ => rfl

/-- R331: so does a load that names another node. -/
theorem settle_ldxIssue {x y : SSrc} {p : Nat} (hp : s.k.priv = false) (hr : s.rgn.isSome = true) (hb : s.requests < 8192)
    (hc : s.noClash (sDstUnits d)) (h : s.remote (s.srcS x) (s.srcS y) (tyBytes t) .read (s.srcY p) = .ok (va, l))
    (hf : ∀ node a, l.loc = .remote node a → s.flowRoom s.k.jobtag node (polClass (s.srcY p)) = true) :
    s.settle (s.ldxIssue d x y p t) = .next (s.loading 64 d va l t (s.srcY p)) := by
  rw [← settle_loadEffects 64 hp hb hc, State.ldxIssue, needRegion_of_regional (.inr (.inl hr))]
  simp only [ok_bind, h]
  cases hl : l.loc with
  | remote node a => simp only [hf node a hl, await_true, ok_bind]
  | _ => rfl

section
variable {x : SSrc} {off : Int} {p : Nat} (ha : s.srcS x + BitVec.ofInt 64 (tyBytes t * off) = va.setWidth 64) (hlt : va.toNat < 0x10000000)
  (hal : va.toNat % tyBytes t = 0) (hm : s.mayUse va.toNat (tyBytes t) .read) (hw : s.bankWait (banksOf [(va.toNat, tyBytes t)]) = .ok ())
  (hb : s.requests < 8192)
include ha hlt hal hm hw hb

/-- R210: a program's load of the scratchpad window waits for its data as a load does. -/
theorem settle_ldIssue_window (hp : s.k.priv = false) (hr : s.rgn.isSome = true) (hc : s.noClash (sDstUnits d)) :
    s.settle (s.ldIssue d x off p t) =
      .next (((s.writesOf (sDstUnits d)).awaiting (scalarWait d 24 (.window va.toNat t))).banking (banksOf [(va.toNat, tyBytes t)]) 24) := by
  obtain ⟨us, hus, happ⟩ := varWrite_of_noClash hc
  rw [State.ldIssue, needRegion_of_regional (.inr (.inl hr))]
  simp only [ok_bind, ha, formVa_setWidth, if_pos hlt, hal, BEq.rfl, check_true, spCheck_of_mayUse hm, hw, lsRoom_of_lt hb, hp, Bool.false_eq_true, if_false,
    hus, issueOf_ok, settle_done, applyAll_append, happ]
  rfl

/-- R251: the supervisor's performs at issue. -/
theorem settle_ldIssue_window_direct (hp : s.k.priv = true) : s.settle (s.ldIssue d x off p t) =
    .next ((applyAll s (s.directLoad d va ⟨.spad va.toNat, physAttr, s.tlb⟩ t)).banking (banksOf [(va.toNat, tyBytes t)]) 24) := by
  rw [State.ldIssue, needRegion_of_regional (.inl hp)]
  simp only [ok_bind, ha, formVa_setWidth, if_pos hlt, hal, BEq.rfl, check_true, spCheck_of_mayUse hm, hw, lsRoom_of_lt hb, hp, if_true,
    issueOf_ok, settle_done, applyAll_append]
  rfl

end

/-- R251: an access of the supervisor that has asked nobody begins. -/
theorem directly_of_unasked (h : s.unasked) (first : Except Issue (List Effect)) (done : Answer → List Effect) : s.directly first done = first := by
  obtain ⟨_, hans, hask, _⟩ := h
  simp only [State.directly, hans, hask, Bool.false_eq_true, if_false]

theorem settle_ldIssue_direct {x : SSrc} {off : Int} {p pa : Nat} {attr : Attr} {tlb : Tlb} (hp : s.k.priv = true) (hu : s.unasked)
    (h : s.access (s.srcS x + BitVec.ofInt 64 (tyBytes t * off)) (tyBytes t) .read (s.srcY p) = .ok (va, ⟨.here pa, attr, tlb⟩)) :
    s.settle (s.ldIssue d x off p t) = .next (applyAll s (s.directLoad d va ⟨.here pa, attr, tlb⟩ t)) := by
  obtain ⟨hva, hlow, _⟩ := access_ok h
  rw [State.ldIssue, needRegion_of_regional (.inl hp)]
  simp only [ok_bind, hva, if_neg (not_lt.2 hlow), hp, if_true, directly_of_unasked hu, h, lsRoom_of_lt hu.1, issueOf_ok, settle_done]

end
end
end Sys2Proof.Machine

namespace Sys2Proof.Proofs
open Sys2Proof Sys2Proof.Machine

/-- Settles O9: a program's load waits for its data once its flow has room; a supervisor's reads at once. -/
theorem loadsIssue : Obligations.LoadsIssue := by
  refine ⟨fun s d x y off p t va l => ?_, fun s d x off p t va pa attr tlb => ?_⟩
  · intro n pol w issued hp hr hb hc
    exact ⟨fun h hf => settle_ldIssue_program hp hr hb hc h hf, fun h hf => settle_ldxIssue hp hr hb hc h hf,
      fun ha hlt hal hext hd hw => settle_ldIssue_window ha hlt hal ⟨⟨hext, .inr hd⟩, fun h => absurd h (by simp [hp])⟩ hw hb hp hr hc⟩
  · intro n now hp hu
    exact ⟨fun h _ => settle_ldIssue_direct hp hu h, fun ha hlt hal hm hw => settle_ldIssue_window_direct ha hlt hal hm hw hu.1 hp⟩

end Sys2Proof.Proofs
end

section
/-! # O10: stores -/

namespace Sys2Proof.Machine

section
variable {s : State} {va : VAddr} {l : Xlat} {pol : BitVec 32} {n : Nat}

/-! ## Bytes (R7, R233) -/

/-- A number written little-endian gives its bytes to an extent of a memory, and to nothing else. -/
theorem read_write_toBytes {m : Memory} (a n v x : Nat) (h : Memory.wf m = true) :
    Memory.read (Memory.write m a (toBytes n v)) x = if a ≤ x ∧ x < a + n then BitVec.ofNat 8 (v / 256 ^ (x - a)) else Memory.read m x := by
  rw [Memory.read_write a x _ h, toBytes_length]
  split
  · rw [toBytes_getElem? n v (x - a) (by omega)]; rfl
  · rfl

/-- R233: bytes that end below the end of the HBM are all kept. -/
theorem take_toBytes {pa n : Nat} (v : Nat) (h : pa + n ≤ hbmEnd) : (toBytes n v).take (hbmEnd - pa) = toBytes n v :=
  List.take_of_length_le (by rw [toBytes_length]; omega)

/-! ## Entries of the store buffer (R122, R336) -/

theorem bufRoom_of_has {cost : Nat} (h : s.bufferHas cost) : s.bufRoom cost = .ok () := by
  obtain ⟨hbudget, hroom⟩ := h
  rw [State.bufRoom, decide_eq_true hroom]
  cases hr : s.rgn with
  | none => rfl
  | some r => simp only [decide_eq_true (hbudget r hr), check_true, await_true, ok_bind]

theorem apply_buffer_newEntry (s : State) (cost : Nat) (pol : BitVec 32) (out : List Nat) (op : BufOp) :
    (Effect.buffer (newEntry cost pol out op)).apply s = s.buffered cost pol out op := by
  simp only [Effect.apply, State.entered, newEntry, State.buffered]
  split <;> rfl

theorem routeInfo_flow (l : Loc) (ty : Nat) (chk : Bool) : (s.routeInfo l pol ty chk).flow = polClass pol := by
  unfold State.routeInfo; split <;> rfl

/-- `s` with an entry of a program in its buffer, and SCOPEMISS set where its release is dropped (R279). -/
def State.entering (s : State) (l : Loc) (pol : BitVec 32) (out : List Nat) (op : BufOp) (t : State) : State :=
  (t.buffered 1 pol out op).flagged (if s.releaseOut pol l then flagScopeMiss else 0)

section
variable {kind ty : Nat} {op : BufOp} (hp : s.k.priv = false) (hh : s.bufferHas 1) (hb : s.requests < 8192)
include hp hh hb

theorem settle_bufferIssue (hl : ∀ node a, l.loc ≠ .remote node a) :
    s.settle (issueOf (s.bufferIssue kind l pol ty op)) = .next (s.entering l.loc pol [] op { s with tlb := l.tlb }) := by
  rw [State.bufferIssue, bufRoom_of_has hh, lsRoom_of_lt hb]
  simp only [ok_bind, hp, Bool.not_false, Bool.true_and]
  cases hloc : l.loc with
  | remote node a => exact absurd hloc (hl node a)
  | _ => simp only [issueOf_ok, settle_done, applyAll_cons, apply_buffer_newEntry, applyAll_endFlags]; rfl

theorem settle_bufferIssue_remote {node : BitVec 14} {a : VAddr} (hl : l.loc = .remote node a) (hf : s.flowRoom s.k.jobtag node (polClass pol) = true) :
    let q := s.fab.request s.clock s.k.nodeId (.bufCheck s.nextId) kind node s.k.jobtag (s.routeInfo l.loc pol ty true) []
    s.settle (issueOf (s.bufferIssue kind l pol ty op)) = .next (s.entering l.loc pol [q.2] op { s with fab := q.1 }) := by
  rw [State.bufferIssue, bufRoom_of_has hh, lsRoom_of_lt hb]
  simp only [ok_bind, hp, Bool.not_false, Bool.true_and, hl, State.checkSent, routeInfo_flow, hf, await_true, issueOf_ok, settle_done, applyAll_cons,
    apply_buffer_newEntry, applyAll_endFlags]
  rfl

end

/-! ## Stores (R251, R252, R256) -/

section
variable {d x y : SSrc} {off : Int} {p : Nat} {t : Ty}

theorem stIssue_program (hp : s.k.priv = false) (hr : s.rgn.isSome = true)
    (h : s.access (s.srcS x + BitVec.ofInt 64 (tyBytes t * off)) (tyBytes t) .write (s.srcY p) = .ok (va, l)) :
    s.stIssue d x off p t = issueOf (s.bufferIssue 6 l (s.srcY p) (tyCode t) (.store l.loc l.attr va (tyBytes t) (s.srcS d))) := by
  rw [State.stIssue, needRegion_of_regional (.inr (.inl hr))]
  simp only [ok_bind, hp, Bool.false_eq_true, if_false, h]

theorem stxIssue_eq (hr : s.rgn.isSome = true) (h : s.remote (s.srcS x) (s.srcS y) (tyBytes t) .write (s.srcY p) = .ok (va, l)) :
    s.stxIssue d x y p t = issueOf (s.bufferIssue 6 l (s.srcY p) (tyCode t) (.store l.loc l.attr va (tyBytes t) (s.srcS d))) := by
  rw [State.stxIssue, needRegion_of_regional (.inr (.inl hr))]
  simp only [ok_bind, h]

end

/-- R251: a write of the supervisor's performs here once the buffer is empty. -/
theorem directWrite_here {kind : Nat} {find : Except Issue (VAddr × Xlat)} {r : Loc → RouteInfo} {here : Xlat → List Effect} {pa : Nat} {attr : Attr}
    {tlb : Tlb} (hu : s.unasked) (hf : find = .ok (va, ⟨.here pa, attr, tlb⟩)) (hb : s.buf = []) :
    s.directWrite kind find r here = .ok (here ⟨.here pa, attr, tlb⟩) := by
  rw [State.directWrite, directly_of_unasked hu, hf, hb]
  simp only [ok_bind, List.isEmpty_nil, await_true, lsRoom_of_lt hu.1]

theorem directWrite_waits {kind : Nat} {find : Except Issue (VAddr × Xlat)} {r : Loc → RouteInfo} {here : Xlat → List Effect}
    (hu : s.unasked) (hf : find = .ok (va, l)) (hb : s.buf ≠ []) : s.directWrite kind find r here = .error (.stall 0x09) := by
  rw [State.directWrite, directly_of_unasked hu, hf]
  simp only [ok_bind, List.isEmpty_eq_false_iff.2 hb, await_false, error_bind]

section
variable {d x : SSrc} {off : Int} {p : Nat} {t : Ty}

theorem stIssue_supervisor (hp : s.k.priv = true) : s.stIssue d x off p t =
    issueOf (s.directWrite 6 (s.access (s.srcS x + BitVec.ofInt 64 (tyBytes t * off)) (tyBytes t) .write (s.srcY p))
      (fun l => { s.routeInfo l (s.srcY p) (tyCode t) false with d3 := s.srcS d })
      (fun x => .setTlb x.tlb :: s.homeEffects x.loc x.attr (toBytes (tyBytes t) (s.srcS d).toNat) none)) := by
  rw [State.stIssue, needRegion_of_regional (.inl hp)]
  simp only [ok_bind, hp, if_true]

theorem settle_stIssue_direct {pa : Nat} {attr : Attr} {tlb : Tlb} (hp : s.k.priv = true) (hu : s.unasked)
    (h : s.access (s.srcS x + BitVec.ofInt 64 (tyBytes t * off)) (tyBytes t) .write (s.srcY p) = .ok (va, ⟨.here pa, attr, tlb⟩)) (hb : s.buf = [])
    (hpa : pa + tyBytes t ≤ hbmEnd) : s.settle (s.stIssue d x off p t) = .next { s with
      tlb := tlb, hbm := Memory.write s.hbm pa (toBytes (tyBytes t) (s.srcS d).toNat), l2 := s.touch (.here pa) attr true
      rtags := tagWrite s.rtags (.here pa) (tyBytes t) none } := by
  rw [stIssue_supervisor hp, directWrite_here hu h hb]
  simp only [State.homeEffects, issueOf_ok, settle_done, applyAll_cons, applyAll_nil, apply_setTlb, apply_hbm, apply_setL2, apply_setRtags, State.writeHbm,
    take_toBytes _ hpa, toBytes_length]

theorem settle_stIssue_waits (hp : s.k.priv = true) (hu : s.unasked)
    (h : s.access (s.srcS x + BitVec.ofInt 64 (tyBytes t * off)) (tyBytes t) .write (s.srcY p) = .ok (va, l)) (hb : s.buf ≠ []) :
    s.settle (s.stIssue d x off p t) = .next (s.stalls 0x09) := by
  rw [stIssue_supervisor hp, directWrite_waits hu h hb]; rfl

end

end
end Sys2Proof.Machine

namespace Sys2Proof.Proofs
open Sys2Proof Sys2Proof.Machine

/-- Settles O10: a program's store becomes an entry, with its check where it goes to another node; a supervisor's writes the bytes of its operand. -/
theorem storesIssue : Obligations.StoresIssue := by
  refine ⟨fun s d x y off p t va l => ?_, fun s d x off p ty va pa attr tlb => ?_⟩
  · intro n pol fl op here hp hr hh hb
    refine ⟨fun h => ?_, fun h => ⟨fun pa hl => ?_, fun node a hl hf => ?_⟩⟩
    · exact (congrArg s.settle (stIssue_program hp hr h)).trans (settle_bufferIssue hp hh hb (access_ok h).2.2)
    · exact (congrArg s.settle (stxIssue_eq hr h)).trans (settle_bufferIssue hp hh hb fun node a e => nomatch hl.symm.trans e)
    · exact (congrArg s.settle (stxIssue_eq hr h)).trans (settle_bufferIssue_remote hp hh hb hl hf)
  · intro n hp hu h
    exact ⟨fun hb hpa hwf => ⟨_, settle_stIssue_direct hp hu h hb hpa, fun a => read_write_toBytes pa n _ a hwf, rfl, rfl, rfl, rfl, rfl, rfl⟩,
      settle_stIssue_waits hp hu h⟩

end Sys2Proof.Proofs
end

section
/-! # O34: a region commits or is discarded -/

namespace Sys2Proof.Machine

/-! ## Commits (R122, R128, R134, R212, R213, R230) -/

section
variable {s t u : State}

/-- What the commit of buffered entries may change: the buffer, the vaults, the acquisitions that wait, the ranges that copies must read anew. -/
def State.EntriesCommit (s t : State) : Prop :=
  ∃ b vs as n cs, t = { s with buf := b, vaults := vs, acqs := as, nextId := n, eng := { s.eng with copies := cs } }

theorem State.EntriesCommit.refl (s : State) : s.EntriesCommit s := ⟨_, _, _, _, _, rfl⟩

theorem State.EntriesCommit.trans (h : s.EntriesCommit t) (h' : t.EntriesCommit u) : s.EntriesCommit u := by
  obtain ⟨_, _, _, _, _, rfl⟩ := h
  obtain ⟨_, _, _, _, _, rfl⟩ := h'
  exact ⟨_, _, _, _, _, rfl⟩

theorem entriesCommit_commitEntry (s : State) (e : BufEntry) : s.EntriesCommit (s.commitEntry e) := by
  unfold State.commitEntry
  split <;> exact ⟨_, _, _, _, _, rfl⟩

theorem entriesCommit_foldl (l : List BufEntry) (s : State) : s.EntriesCommit (l.foldl State.commitEntry s) := by
  induction l generalizing s with
  | nil => exact .refl s
  | cons e l ih => exact (entriesCommit_commitEntry s e).trans (ih _)

/-- The opened entries of the buffer have committed, in program order; the region is open still. -/
def State.entriesCommitted (s : State) (r : Region) : State :=
  (s.buf.filter fun e => e.state == .opened).foldl State.commitEntry { s with err := s.serial r, buf := s.buf.filter fun e => e.state != .opened }

theorem commitRegion_of_some {r : Region} (h : s.rgn = some r) : ∃ fab xch, s.commitRegion = { s.entriesCommitted r with
    rgn := none
    mat := { (s.entriesCommitted r).mat with comm := (s.entriesCommitted r).mat.work }
    k := { (s.entriesCommitted r).k with rcount := 0 }
    fab := fab
    xch := xch
    seq := { (s.entriesCommitted r).seq with trapReq := none, dueTrap := (s.entriesCommitted r).seq.trapReq } } := by
  unfold State.commitRegion
  split
  · next h' => cases h.symm.trans h'
  · next r' h' =>
    obtain rfl : r = r' := Option.some.inj (h.symm.trans h')
    exact ⟨_, _, rfl⟩

theorem entriesCommit_entriesCommitted (s : State) (r : Region) : State.EntriesCommit { s with err := s.serial r } (s.entriesCommitted r) :=
  State.EntriesCommit.trans ⟨_, _, _, _, _, rfl⟩ (entriesCommit_foldl _ _)

/-- What a commit leaves of the units that no entry of the buffer touches. -/
theorem commitRegion_frame {r : Region} (h : s.rgn = some r) :
    s.commitRegion.rgn = none ∧ s.commitRegion.mat = { s.mat with comm := s.mat.work } ∧ s.commitRegion.k = { s.k with rcount := 0 }
    ∧ s.commitRegion.regs = s.regs ∧ s.commitRegion.sp = s.sp ∧ s.commitRegion.hbm = s.hbm
    ∧ s.commitRegion.seq = { s.seq with trapReq := none, dueTrap := s.seq.trapReq } := by
  obtain ⟨_, _, hc⟩ := commitRegion_of_some h
  obtain ⟨_, _, _, _, _, he⟩ := entriesCommit_entriesCommitted s r
  rw [hc, he]
  exact ⟨rfl, rfl, rfl, rfl, rfl, rfl, rfl⟩

/-- R134: reading a signature moves the TLB and the L2 alone. -/
theorem signed_eq (s : State) (r : Region) : ∃ tlb l2, s.signed r = { s with tlb := tlb, l2 := l2 } := by
  unfold State.signed
  split
  · split <;> exact ⟨_, _, rfl⟩
  · exact ⟨_, _, rfl⟩

/-! ### Entries of the buffer -/

/-- An entry with more ranges that its copy, if it is one, must read anew (R90). -/
def BufEntry.withInvals (e : BufEntry) (l : List (Nat × Nat)) : BufEntry :=
  match e.op with
  | .copy c => { e with op := .copy { c with invals := c.invals ++ l } }
  | _ => e

theorem withInvals_copy {e : BufEntry} {c : CopyCmd} (h : e.op = .copy c) (l : List (Nat × Nat)) :
    e.withInvals l = { e with op := .copy { c with invals := c.invals ++ l } } := by
  rw [BufEntry.withInvals, h]

theorem withInvals_other {e : BufEntry} (h : ∀ c, e.op ≠ .copy c) (l : List (Nat × Nat)) : e.withInvals l = e := by
  unfold BufEntry.withInvals
  split
  · next c hc => exact absurd hc (h c)
  · rfl

@[simp] theorem withInvals_nil (e : BufEntry) : e.withInvals [] = e := by
  by_cases h : ∃ c, e.op = .copy c
  · obtain ⟨c, hc⟩ := h
    rw [withInvals_copy hc, List.append_nil, ← hc]
  · exact withInvals_other (not_exists.1 h) []

theorem withInvals_withInvals (e : BufEntry) (l l' : List (Nat × Nat)) : (e.withInvals l).withInvals l' = e.withInvals (l ++ l') := by
  by_cases h : ∃ c, e.op = .copy c
  · obtain ⟨c, hc⟩ := h
    rw [withInvals_copy hc, withInvals_copy hc, withInvals_copy rfl, List.append_assoc]
  · have h := not_exists.1 h
    rw [withInvals_other h, withInvals_other h, withInvals_other h]

@[simp] theorem withInvals_state (e : BufEntry) (l : List (Nat × Nat)) : (e.withInvals l).state = e.state := by
  unfold BufEntry.withInvals; split <;> rfl

/-- An entry commits: it starts to drain. -/
def BufEntry.committed (e : BufEntry) : BufEntry := { e with state := .draining }

/-- An entry that changes owners, and so never drains. -/
def BufEntry.isOwnership (e : BufEntry) : Prop := ∃ m, e.op = .acquire m ∨ e.op = .release m

/-- The buffer after the commit of one entry: the others, some of them marked by an INVAL, and then itself, unless it only changes owners. -/
theorem commitEntry_buf (s : State) (e : BufEntry) : ∃ f : BufEntry → BufEntry, (∀ x, ∃ l, f x = x.withInvals l)
    ∧ ((s.commitEntry e).buf = s.buf.map f ++ [e.committed] ∨ e.isOwnership ∧ (s.commitEntry e).buf = s.buf.map f) := by
  have hid (x : BufEntry) : ∃ l, id x = x.withInvals l := ⟨[], (withInvals_nil x).symm⟩
  have hmap : s.buf = s.buf.map id := (List.map_id s.buf).symm
  unfold State.commitEntry
  split
  · next m h => exact ⟨id, hid, .inr ⟨⟨m, .inl h⟩, hmap⟩⟩
  · next m h => exact ⟨id, hid, .inr ⟨⟨m, .inr h⟩, hmap⟩⟩
  · next va len _ _ =>
    refine ⟨_, fun x => ?_, .inl rfl⟩
    split
    · next c hc =>
      split
      · exact hid x
      · dsimp only
        split
        · exact ⟨_, (withInvals_copy hc _).symm⟩
        · rw [← hc]; exact hid x
    · exact hid x
  · exact ⟨id, hid, .inl (congrArg (· ++ [e.committed]) hmap)⟩

/-- Whatever the buffer held is there still, after any number of commits. -/
theorem exists_withInvals_mem_foldl {x : BufEntry} (l : List BufEntry) {s : State} (h : x ∈ s.buf) :
    ∃ is, x.withInvals is ∈ (l.foldl State.commitEntry s).buf := by
  induction l generalizing s x with
  | nil => exact ⟨[], (withInvals_nil x).symm ▸ h⟩
  | cons e l ih =>
    obtain ⟨f, hf, hb⟩ := commitEntry_buf s e
    have hx : f x ∈ (s.commitEntry e).buf := by
      obtain hb | ⟨_, hb⟩ := hb
      · exact hb ▸ List.mem_append_left _ (List.mem_map_of_mem h)
      · exact hb ▸ List.mem_map_of_mem h
    obtain ⟨i, hi⟩ := hf x
    obtain ⟨j, hj⟩ := ih hx
    exact ⟨i ++ j, by rwa [hi, withInvals_withInvals] at hj⟩

/-- An entry that drains is there once it has committed. -/
theorem exists_committed_mem_foldl {x : BufEntry} {l : List BufEntry} {s : State} (h : x ∈ l) (ho : ¬ x.isOwnership) :
    ∃ is, x.committed.withInvals is ∈ (l.foldl State.commitEntry s).buf := by
  induction l generalizing s with
  | nil => cases h
  | cons e l ih =>
    obtain rfl | h := List.mem_cons.1 h
    · refine exists_withInvals_mem_foldl l ?_
      obtain ⟨f, _, hb | ⟨hx, _⟩⟩ := commitEntry_buf s x
      · exact hb ▸ List.mem_append_right _ (List.mem_singleton_self _)
      · exact absurd hx ho
    · exact ih h

/-- Commits leave no opened entry where there was none. -/
theorem not_opened_foldl (l : List BufEntry) {s : State} (h : ∀ x ∈ s.buf, x.state ≠ .opened) :
    ∀ x ∈ (l.foldl State.commitEntry s).buf, x.state ≠ .opened := by
  induction l generalizing s with
  | nil => exact h
  | cons e l ih =>
    refine ih ?_
    obtain ⟨f, hf, hb⟩ := commitEntry_buf s e
    have hmap : ∀ y ∈ s.buf.map f, y.state ≠ .opened := fun y hy => by
      obtain ⟨x, hx, rfl⟩ := List.mem_map.1 hy
      obtain ⟨i, hi⟩ := hf x
      rw [hi, withInvals_state]
      exact h x hx
    obtain hb | ⟨_, hb⟩ := hb <;> rw [hb]
    · refine List.forall_mem_append.2 ⟨hmap, fun y hy => ?_⟩
      rw [List.mem_singleton.1 hy]
      exact nofun
    · exact hmap

/-! ### Vaults -/

theorem mapVaults_getElem? (vs : List Vault) (m : BitVec 32) (f : Vault → Vault) (v : Nat) :
    (mapVaults vs m f)[v]? = (vs[v]?).map fun w => if m.getLsbD v then f w else w := by
  simp [mapVaults, List.getElem?_zipIdx, Function.comp_def]

theorem commitEntry_vaults_of_not_ownership {e : BufEntry} (h : ¬ e.isOwnership) (s : State) : (s.commitEntry e).vaults = s.vaults := by
  unfold State.commitEntry
  split
  · next m hm => exact absurd ⟨m, .inl hm⟩ h
  · next m hm => exact absurd ⟨m, .inr hm⟩ h
  · rfl
  · rfl

theorem commitEntry_vaults_release {e : BufEntry} {m : BitVec 32} (h : e.op = .release m) (s : State) :
    (s.commitEntry e).vaults = mapVaults s.vaults m (releaseOne e.job) := by
  unfold State.commitEntry
  rw [h]

/-- R213: a vault that the one BREL among the entries names is released by their commits. -/
theorem foldl_vaults_release {e : BufEntry} {m : BitVec 32} {v : Nat} {w : Vault} (hop : e.op = .release m) (hv : m.getLsbD v = true)
    (hw : w.state = .owned) (hj : w.owner = e.job) {l : List BufEntry} (hl : ∀ x ∈ l, x ≠ e → ¬ x.isOwnership) {s : State}
    (h : s.vaults[v]? = some { w with state := .releasing } ∨ e ∈ l ∧ s.vaults[v]? = some w) :
    (l.foldl State.commitEntry s).vaults[v]? = some { w with state := .releasing } := by
  have hrel (t : State) (x : Vault) (hx : t.vaults[v]? = some x) : (t.commitEntry e).vaults[v]? = some (releaseOne e.job x) := by
    rw [commitEntry_vaults_release hop, mapVaults_getElem?, hx, Option.map_some, if_pos hv]
  induction l generalizing s with
  | nil => exact h.elim id fun h => nomatch h.1
  | cons x l ih =>
    refine ih (fun y hy => hl y (List.mem_cons_of_mem x hy)) ?_
    by_cases hx : x = e
    · subst hx
      obtain h | ⟨_, h⟩ := h
      · exact .inl (hrel s _ h)
      · exact .inl ((hrel s w h).trans (congrArg some (if_pos ⟨hw, hj⟩)))
    · rw [commitEntry_vaults_of_not_ownership (hl x List.mem_cons_self hx)]
      exact h.imp_right fun ⟨he, h⟩ => ⟨(List.mem_cons.1 he).resolve_left (Ne.symm hx), h⟩

end

/-! ### The commit of a region -/

section
variable {s : State} {r : Region}

theorem commitRegion_buf (h : s.rgn = some r) : s.commitRegion.buf = (s.entriesCommitted r).buf := by
  obtain ⟨_, _, hc⟩ := commitRegion_of_some h
  rw [hc]

theorem commitRegion_vaults (h : s.rgn = some r) : s.commitRegion.vaults = (s.entriesCommitted r).vaults := by
  obtain ⟨_, _, hc⟩ := commitRegion_of_some h
  rw [hc]

theorem mem_opened {e : BufEntry} : e ∈ s.buf.filter (fun e => e.state == .opened) ↔ e ∈ s.buf ∧ e.state = .opened := by
  rw [List.mem_filter, beq_iff_eq]

theorem mem_not_opened {e : BufEntry} : e ∈ s.buf.filter (fun e => e.state != .opened) ↔ e ∈ s.buf ∧ e.state ≠ .opened := by
  rw [List.mem_filter, bne_iff_ne]

theorem commitRegion_not_opened (h : s.rgn = some r) : ∀ e ∈ s.commitRegion.buf, e.state ≠ .opened := by
  rw [commitRegion_buf h]
  exact not_opened_foldl _ fun x hx => (mem_not_opened.1 hx).2

/-- R122: every entry of the buffer drains once its region has committed, but for those that only change owners. -/
theorem commitRegion_drains (h : s.rgn = some r) {e : BufEntry} (he : e ∈ s.buf) (ho : e.state = .opened → ¬ e.isOwnership) :
    ∃ is, (if e.state = .opened then e.committed else e).withInvals is ∈ s.commitRegion.buf := by
  rw [commitRegion_buf h]
  split
  · next hs => exact exists_committed_mem_foldl (mem_opened.2 ⟨he, hs⟩) (ho hs)
  · next hs => exact exists_withInvals_mem_foldl _ (mem_not_opened.2 ⟨he, hs⟩)

theorem commitRegion_releases (h : s.rgn = some r) {e : BufEntry} {m : BitVec 32} {v : Nat} {w : Vault} (he : e ∈ s.buf) (hs : e.state = .opened)
    (hop : e.op = .release m) (hv : m.getLsbD v = true) (hx : s.vaults[v]? = some w) (hw : w.state = .owned) (hj : w.owner = e.job)
    (hl : ∀ x ∈ s.buf, x.state = .opened → x ≠ e → ¬ x.isOwnership) : s.commitRegion.vaults[v]? = some { w with state := .releasing } := by
  rw [commitRegion_vaults h]
  exact foldl_vaults_release hop hv hw hj (fun x hx => hl x (mem_opened.1 hx).1 (mem_opened.1 hx).2) (.inr ⟨mem_opened.2 ⟨he, hs⟩, hx⟩)

end
end Sys2Proof.Machine
end

section
/-! # O34, O53: causes and discards -/

namespace Sys2Proof.Machine

/-! ## Trace and error records (R109, R408) -/

section
variable {s t u : State}

/-- A record may change the HBM, its release tags, the host's windows and the counts of the errors. -/
def State.Records (s t : State) : Prop := ∃ m rt h e, t = { s with hbm := m, rtags := rt, hst := h, err := e }

theorem State.Records.refl (s : State) : s.Records s := ⟨_, _, _, _, rfl⟩

theorem State.Records.trans (h : s.Records t) (h' : t.Records u) : s.Records u := by
  obtain ⟨_, _, _, _, rfl⟩ := h
  obtain ⟨_, _, _, _, rfl⟩ := h'
  exact ⟨_, _, _, _, rfl⟩

theorem records_flushTrace (n : Nat) (s : State) : s.Records (s.flushTrace n) := by
  induction n generalizing s with
  | zero => exact .refl s
  | succ n ih =>
    unfold State.flushTrace
    split
    · exact .refl s
    · split
      · exact ⟨_, _, _, _, rfl⟩
      · exact State.Records.trans ⟨_, _, _, _, rfl⟩ (ih _)

theorem records_traceAt (s : State) (issued : BitVec 48) (kind detail : Nat) (w : DWord) : s.Records (s.traceAt issued kind detail w) := by
  unfold State.traceAt
  split
  · exact State.Records.trans ⟨_, _, _, _, rfl⟩ (records_flushTrace _ _)
  · exact .refl s

theorem records_foldl_traceBranch (l : List BranchRec) (s : State) : s.Records (l.foldl State.traceBranch s) := by
  induction l generalizing s with
  | nil => exact .refl s
  | cons x l ih => exact (records_traceAt ..).trans (ih _)

theorem records_dropBranches (s : State) : State.Records { s with seq := { s.seq with held := [] } } s.dropBranches := records_foldl_traceBranch _ _

theorem records_errorRecord (s : State) (kind : Nat) (job cause : BitVec 16) (queue uclass unit_ : Nat) (epc eva : VAddr) (einfo : DWord)
    (windowed : Bool) (named : BitVec 14) (csn : Option (BitVec 48)) :
    s.Records (s.errorRecord kind job cause queue uclass unit_ epc eva einfo windowed named csn) := by
  unfold State.errorRecord
  dsimp only
  split <;> exact ⟨_, _, _, _, rfl⟩

end

/-! ## Discards (R130, R131) -/

section
variable {s : State} {r : Region}

/-- RCOUNT after one more discard. -/
def KRegs.recounted (k : KRegs) : BitVec 8 := if k.rcount = 255 then 255 else k.rcount + 1

theorem dropRegion_rgn : (s.dropRegion r).rgn = some { r with
    again := !r.byBoundary, committing := false, reads := [], writes := [], counted := 0, crc := 0xFFFFFFFF#32, used := 0, resIssued := false } := rfl

/-- What a discard leaves of the program's state. -/
theorem dropRegion_frame :
    (s.dropRegion r).regs = { s.regs.emptyQueues with masks := r.snap.masks, fmt := r.snap.fmt }
    ∧ (s.dropRegion r).k = { s.k with rngCtr := r.snap.rngCtr, rcount := s.k.recounted }
    ∧ (s.dropRegion r).pipe.inflight = [] ∧ (s.dropRegion r).pipe.waits = s.pipe.waits.filter (fun w => !w.inRgn)
    ∧ (s.dropRegion r).buf = s.buf.filter (fun e => e.state != .opened)
    ∧ (s.dropRegion r).mat = { s.mat with work := s.mat.comm, queue := [], aanch := 0 }
    ∧ (s.dropRegion r).sp = s.sp ∧ (s.dropRegion r).sch = s.sch := by
  obtain ⟨_, _, _, _, e⟩ := records_dropBranches s
  unfold State.dropRegion
  rw [e]
  exact ⟨rfl, rfl, rfl, rfl, rfl, rfl, rfl, rfl⟩

/-- Records leave all of this as the discard left it. -/
theorem State.Records.dropped {d : State} (h : (s.dropRegion r).Records d) :
    d.regs = { s.regs.emptyQueues with masks := r.snap.masks, fmt := r.snap.fmt } ∧ d.k = { s.k with rngCtr := r.snap.rngCtr, rcount := s.k.recounted }
    ∧ d.pipe.inflight = [] ∧ d.pipe.waits = s.pipe.waits.filter (fun w => !w.inRgn) ∧ d.buf = s.buf.filter (fun e => e.state != .opened)
    ∧ d.mat = { s.mat with work := s.mat.comm, queue := [], aanch := 0 } ∧ d.sp = s.sp ∧ d.sch = s.sch := by
  obtain ⟨_, _, _, _, rfl⟩ := h
  exact dropRegion_frame

/-- R131: the program goes on at the region's entry. -/
theorem dropRegion_program :
    (s.dropRegion r).seq.pc = r.snap.entry ∧ (s.dropRegion r).seq.loops = r.snap.loops ∧ (s.dropRegion r).seq.redirects = []
    ∧ (s.dropRegion r).seq.trapReq = none ∧ (s.dropRegion r).seq.delay = 0 ∧ (s.dropRegion r).eng.bind = r.snap.bind ∧ (s.dropRegion r).eng.gram = [] :=
  ⟨rfl, rfl, rfl, rfl, rfl, rfl, rfl⟩

/-! ## Entries to the supervisor (R395, R398) -/

theorem Cause.code_lt (c : Cause) : c.code < 2 ^ 12 := by cases c <;> decide

/-- The reserved bits of CAUSE are zero in every word of a class and a code. -/
theorem causeWord_and_causeMask (n : Nat) (c : Cause) : causeWord n c.code &&& causeMask = causeWord n c.code := by
  refine BitVec.eq_of_getLsbD_eq fun i hi => ?_
  have hmask : ∀ i < 16, causeMask.getLsbD i = true ∨ 12 ≤ i ∧ i < 14 := by decide
  rw [BitVec.getLsbD_and]
  obtain hm | ⟨h12, h14⟩ := hmask i hi
  · rw [hm, Bool.and_true]
  · have hbit : (causeWord n c.code).getLsbD i = false := by
      rw [causeWord, BitVec.getLsbD_ofNat, Nat.mul_comm, Nat.testBit_two_pow_mul_add _ (c.code_lt.trans (by decide)), if_pos h14,
        Nat.testBit_lt_two_pow (c.code_lt.trans_le (Nat.pow_le_pow_right (by decide) h12)), Bool.and_false]
    rw [hbit, Bool.false_and]

section
variable (cause : BitVec 16) (epc eva : VAddr) (einfo : DWord) (h : Hold) (q : Option Region)

theorem enter_frame (s : State) :
    (s.enter cause epc eva einfo h q).k = { s.k with cause := cause &&& causeMask, epc := epc, eva := eva, einfo := einfo, priv := true }
    ∧ (s.enter cause epc eva einfo h q).regs = s.regs.emptyQueues ∧ (s.enter cause epc eva einfo h q).sp = s.sp
    ∧ (s.enter cause epc eva einfo h q).mat = s.mat ∧ (s.enter cause epc eva einfo h q).buf = s.buf ∧ (s.enter cause epc eva einfo h q).pipe = s.pipe
    ∧ (s.enter cause epc eva einfo h q).seq.loops = s.seq.loops := by
  obtain ⟨_, _, _, _, e⟩ := records_dropBranches s
  unfold State.enter
  rw [e]
  exact ⟨rfl, rfl, rfl, rfl, rfl, rfl, rfl⟩

/-- The queue that ran is held. -/
theorem enter_queue (s : State) {n : Nat} (hn : s.sch.running = some n) (hlt : n < s.sch.queues.length) :
    ((s.enter cause epc eva einfo h q).queue n).state = .held ∧ ((s.enter cause epc eva einfo h q).queue n).hold = h := by
  obtain ⟨_, _, _, _, e⟩ := records_dropBranches s
  unfold State.enter
  rw [e]
  simp [State.queue, hn, updQueue, List.getElem?_eq_getElem hlt]

end

/-! ## Causes that are taken (R113, R130, R131, R137, R138, R394, R397, R401) -/

section
variable {c : Trap}

/-- R131: one retrace more than RETRACE allows. -/
def Trap.noProgress (c : Trap) (s : State) : Bool := decide (c.cause.class_ ≠ 2 ∧ c.cause ≠ .stateLoss ∧ s.k.retrace < s.k.recounted)

/-- How the queue is held. -/
def Trap.hold (c : Trap) : Hold := if c.cause.class_ = 2 then .fatal else if c.cause = .stateLoss then .loss else .region

/-- CAUSE, EVA and EINFO of a cause that has discarded the open region. -/
def Trap.enters (c : Trap) (s d : State) (r : Region) : State :=
  d.enter (if c.noProgress s then causeWord 3 Cause.noProgress.code else causeWord c.cause.class_ c.cause.code) r.snap.entry
    (if c.noProgress s then 0 else c.eva) (if c.noProgress s then 0 else s.einfoOf c) c.hold d.rgn

theorem enters_queue (s : State) {d : State} {n : Nat} (hn : d.sch.running = some n) (hlt : n < d.sch.queues.length) :
    ((c.enters s d r).queue n).state = .held ∧ ((c.enters s d r).queue n).hold = c.hold := enter_queue _ _ _ _ _ _ d hn hlt

/-- The node after a cause: the bundle ends with it. -/
def State.trappedBy (s : State) (c : Trap) (slot : Nat) : State := { s with seq := { s.seq with bun := { Bundle.start with slot := slot, trapped := some c } } }

theorem noProgress_eq : (decide (c.cause.class_ ≠ 2) && decide (c.cause ≠ Cause.stateLoss) && decide ((s.dropRegion r).k.retrace < (s.dropRegion r).k.rcount)) =
    c.noProgress s := by
  obtain ⟨_, hk, _⟩ := dropRegion_frame (s := s) (r := r)
  rw [hk, Trap.noProgress, Bool.decide_and, Bool.decide_and, Bool.and_assoc]

theorem records_traceDiscard (s : State) (code : Nat) (epc : VAddr) : s.Records (s.traceDiscard code epc) := records_traceAt ..

/-- A cause that is no event discards the open region and enters the supervisor. -/
theorem takeTrap_region (hp : s.k.priv = false) (hr : s.rgn = some r) (hc : c.cause.class_ ≠ 3) :
    ∃ d, (s.dropRegion r).Records d ∧ s.takeTrap c = (c.enters s d r).trappedBy c s.seq.bun.slot := by
  have hrabt : c.cause ≠ .deliberateAbort := fun h => hc (h ▸ rfl)
  unfold State.takeTrap
  simp only [hp, hr, Bool.false_eq_true, if_false, noProgress_eq, hrabt, false_and]
  have hd := records_traceDiscard (s.dropRegion r) (if c.noProgress s = true then Cause.noProgress.code else c.cause.code) r.snap.entry
  generalize (s.dropRegion r).traceDiscard _ _ = d at hd ⊢
  by_cases h2 : c.cause.class_ = 2
  · have hn : c.noProgress s = false := by simp [Trap.noProgress, h2]
    refine ⟨_, hd.trans (records_errorRecord d 0 s.k.jobtag (causeWord 2 c.cause.code) s.curQueue c.uclass c.unit r.snap.entry c.eva
      (s.einfoOf c) false c.dims none), ?_⟩
    have hrgn : (d.errorRecord 0 s.k.jobtag (causeWord 2 c.cause.code) s.curQueue c.uclass c.unit r.snap.entry c.eva (s.einfoOf c) false c.dims none).rgn
        = d.rgn := by
      obtain ⟨_, _, _, _, e⟩ := records_errorRecord d 0 s.k.jobtag (causeWord 2 c.cause.code) s.curQueue c.uclass c.unit r.snap.entry c.eva
        (s.einfoOf c) false c.dims none
      rw [e]
    rw [if_pos h2, Trap.enters, hn, Trap.hold, if_pos h2, h2, hrgn]
    rfl
  · obtain ⟨e, he⟩ : ∃ e, (if c.cause.class_ = 1 then { d with err := d.untested c (causeWord c.cause.class_ c.cause.code) r.snap.entry (s.einfoOf c) }
        else d) = { d with err := e } := by
      split <;> exact ⟨_, rfl⟩
    rw [if_neg h2, he]
    refine ⟨{ d with err := e }, hd.trans ⟨_, _, _, _, rfl⟩, ?_⟩
    rw [Trap.enters, Trap.hold, if_neg h2]
    cases c.noProgress s <;> rfl

/-- RABT while RCOUNT stays within RETRACE: the region is discarded, and the program goes on. -/
theorem takeTrap_deliberateAbort (hc : c.cause = .deliberateAbort) (hp : s.k.priv = false) (hr : s.rgn = some r) (hlt : s.k.rcount < s.k.retrace) :
    ∃ d, (s.dropRegion r).Records d ∧ s.takeTrap c = d.trappedBy c s.seq.bun.slot := by
  have hle : s.k.recounted ≤ s.k.retrace := by unfold KRegs.recounted; split <;> bv_omega
  have h3 : c.cause.class_ = 3 := hc ▸ rfl
  unfold State.takeTrap
  simp only [hp, hr, Bool.false_eq_true, if_false, noProgress_eq]
  have hd := records_traceDiscard (s.dropRegion r) (if c.noProgress s = true then Cause.noProgress.code else c.cause.code) r.snap.entry
  generalize (s.dropRegion r).traceDiscard _ _ = d at hd ⊢
  have hk : d.k.rcount ≤ s.k.retrace := by
    obtain ⟨_, _, _, _, e⟩ := hd
    rw [e, dropRegion_frame.2.1]
    exact hle
  have h2 : ¬ c.cause.class_ = 2 := by rw [h3]; decide
  have h1 : ¬ c.cause.class_ = 1 := by rw [h3]; decide
  refine ⟨d, hd, ?_⟩
  rw [if_neg h2, if_neg h1, if_pos ⟨hc, hk⟩]
  rfl

/-- A cause at the fetch of the bundle at the program counter (R113). -/
def Trap.atFetch (c : Trap) (s : State) : Bool :=
  decide (c.eva = s.seq.pc ∧ (c.cause = .pageNotPresent ∨ c.cause = .malformedEntry ∨ c.cause = .executeProtection))

/-- How the queue is held for a cause outside region mode. -/
def Trap.holdOutside (c : Trap) (s : State) : Hold := if c.atFetch s then .outside else .fatal

/-- CAUSE, EVA and EINFO of a cause outside region mode. -/
def Trap.entersOutside (c : Trap) (s d : State) : State :=
  d.enter (causeWord (if c.atFetch s then 0 else 2) c.cause.code) s.seq.pc c.eva (s.einfoOf c) (c.holdOutside s) none

theorem entersOutside_queue (s : State) {d : State} {n : Nat} (hn : d.sch.running = some n) (hlt : n < d.sch.queues.length) :
    ((c.entersOutside s d).queue n).state = .held ∧ ((c.entersOutside s d).queue n).hold = c.holdOutside s := enter_queue _ _ _ _ _ _ d hn hlt

/-- Outside region mode a cause is fatal, but for a fetch fault. -/
theorem takeTrap_outside (hp : s.k.priv = false) (hr : s.rgn = none) : ∃ d p, s.Records d
    ∧ s.takeTrap c = State.trappedBy { c.entersOutside s d with pipe := p } c s.seq.bun.slot := by
  unfold State.takeTrap
  rw [if_neg (by rw [hp]; exact Bool.false_ne_true)]
  split
  case h_1 r h => exact nomatch hr.symm.trans h
  dsimp only
  by_cases hf : c.eva = s.seq.pc ∧ (c.cause = .pageNotPresent ∨ c.cause = .malformedEntry ∨ c.cause = .executeProtection)
  · rw [if_pos hf]
    simp only [Trap.entersOutside, Trap.holdOutside, Trap.atFetch, decide_eq_true hf]
    exact ⟨s, _, .refl s, rfl⟩
  · obtain ⟨e, he⟩ : ∃ e, (if c.cause.class_ = 1 then { s with err := s.untested c (causeWord 2 c.cause.code) s.seq.pc (s.einfoOf c) } else s) = { s with err := e } := by
      split <;> exact ⟨_, rfl⟩
    rw [if_neg hf, he]
    simp only [Trap.entersOutside, Trap.holdOutside, Trap.atFetch, decide_eq_false hf]
    exact ⟨_, ⟨[], [], []⟩, .trans ⟨_, _, _, _, rfl⟩ (records_errorRecord { s with err := e } 0 s.k.jobtag (causeWord 2 c.cause.code) s.curQueue c.uclass c.unit
      s.seq.pc c.eva (s.einfoOf c) false c.dims none), rfl⟩

end
end

/-! ## Faults of the supervisor (R401) -/

section
variable {s : State}

/-- A notice to other nodes may change the packets that wait for the links and the map of presence. -/
def State.Announces (s t : State) : Prop := ∃ f sc, t = { s with fab := f, sch := sc }

theorem announces_foldl {α : Type} {f : State → α → State} (hf : ∀ (s : State) (a : α), s.Announces (f s a)) (l : List α) (s : State) : s.Announces (l.foldl f s) := by
  induction l generalizing s with
  | nil => exact ⟨_, _, rfl⟩
  | cons a l ih =>
    obtain ⟨_, _, h⟩ := hf s a
    obtain ⟨_, _, h'⟩ := ih (f s a)
    rw [List.foldl_cons, h', h]
    exact ⟨_, _, rfl⟩

theorem announces_announce (s : State) (job : BitVec 16) (p : Presence) : s.Announces (s.announce job p) := by
  unfold State.announce
  split
  · exact ⟨_, _, rfl⟩
  · next c _ =>
    obtain ⟨_, _, h⟩ := announces_foldl (f := fun s d => s.control d job _) (fun s d => ⟨_, _, rfl⟩) (mapDims c.dimmap (popc c.submask))
      { s with sch := { s.sch with presence := setPresence s.sch.presence job (logicalOf s.k.nodeId c.submask c.dimmap) p } }
    exact ⟨_, _, h⟩

theorem message_hint (h : Hst) (base j : Nat) : (h.message base j).hint = h.hint := by unfold Hst.message; split <;> rfl

theorem setHint_hint (h : Hst) (base : Nat) {b : Nat} (hb : b < 9) : (h.setHint base b).hint.getLsbD b = true := by
  unfold Hst.setHint
  split
  · assumption
  · have hset : (h.hint ||| BitVec.twoPow 9 b).getLsbD b = true := by simp [hb]
    dsimp only
    split
    · rw [message_hint]; exact hset
    · exact hset

/-- The node stops, and says so to the host; nothing of the supervisor's changes. -/
theorem supervisorFault_frame (cause : BitVec 16) (eva : VAddr) (einfo : DWord) :
    (s.supervisorFault cause eva einfo).err.stopped = true ∧ (s.supervisorFault cause eva einfo).hst.hint.getLsbD 0 = true
    ∧ (s.supervisorFault cause eva einfo).k = s.k ∧ (s.supervisorFault cause eva einfo).regs = s.regs
    ∧ (s.supervisorFault cause eva einfo).seq = s.seq ∧ (s.supervisorFault cause eva einfo).sp = s.sp := by
  unfold State.supervisorFault
  obtain ⟨_, _, _, _, h1⟩ := records_errorRecord s 5 s.k.jobtag cause (s.sch.serving.getD 0) (bits einfo 0 4) (bits einfo 8 8) s.seq.pc eva einfo false 0 none
  rw [h1]
  dsimp only
  obtain ⟨_, _, h2⟩ := announces_foldl (f := fun s j => s.announce j .service) (fun s j => announces_announce s j .service) (State.jobsHere _) _
  rw [h2]
  exact ⟨rfl, setHint_hint _ _ (by decide), rfl, rfl, rfl, rfl⟩

theorem takeTrap_supervisor {c : Trap} (hp : s.k.priv = true) : s.takeTrap c =
    { s.supervisorFault (causeWord (if c.cause.class_ = 1 then 1 else 2) c.cause.code) c.eva (s.einfoOf c) with
      seq := { s.seq with bun := { s.seq.bun with trapped := some c } } } := by
  unfold State.takeTrap
  rw [if_pos hp]

end

/-! ## The instructions (R128, R137) -/

section
variable {s : State} {r : Region}

theorem commitReady_signed_rgn (h : s.rgn = some r) : (s.signed r).rgn = some r := by
  obtain ⟨_, _, e⟩ := signed_eq s r
  rw [e]; exact h

theorem exec_regionCommit (hr : s.rgn = some r) (hc : s.commitReady r = .ok ()) : exec .regionCommit s = .next (s.signed r).commitRegion := by
  show execRegionCommit s = _
  rw [execRegionCommit, hr]
  simp only [hc, ok_bind, issueOf_ok, settle_done, applyAll_append, applyAll_signEffects, applyAll_cons, applyAll_nil, apply_commit]

theorem openRegionOf_of_program (hp : s.k.priv = false) (hr : s.rgn = some r) : s.openRegionOf = .ok r := by
  rw [State.openRegionOf, hr, hp]; rfl

theorem exec_rabt (hp : s.k.priv = false) (hr : s.rgn = some r) : exec .rabt s = s.raises .deliberateAbort := by
  show s.settle s.rabtIssue = _
  rw [State.rabtIssue, openRegionOf_of_program hp hr]; rfl

end
end Sys2Proof.Machine

namespace Sys2Proof.Proofs
open Sys2Proof Sys2Proof.Machine

/-- Settles O34: a commit moves the entries of the buffer and the owners of vaults; RABT leaves what the snapshot and the last commit hold. -/
theorem regionsEnd : Obligations.RegionsEnd := by
  refine ⟨fun s r hr hc => ⟨_, exec_regionCommit hr hc, rfl, ?_⟩, fun s r hp hr hlt => ?_⟩
  · have hr' := commitReady_signed_rgn hr
    obtain ⟨_, _, e⟩ := signed_eq s r
    generalize s.signed r = u at hr' e ⊢
    have hbuf : u.buf = s.buf := by rw [e]
    have hvaults : u.vaults = s.vaults := by rw [e]
    obtain ⟨hrgn, hmat, hk, hregs, hsp, hhbm, hseq⟩ := commitRegion_frame hr'
    refine ⟨hrgn, by rw [hmat, e], by rw [hk, e], by rw [hregs, e], by rw [hsp, e], by rw [hhbm, e], by rw [hseq, e], commitRegion_not_opened hr',
      fun x hx => ?_, fun m x hx hs hop hl v w _ hv hw hst hj => ?_⟩
    · have hop1 : (if x.state = .opened then x.committed else x).op = x.op := by split <;> rfl
      refine ⟨fun c hop => ?_, fun hop ho => ?_⟩
      · have hown : ¬ x.isOwnership := fun ⟨_, h⟩ => h.elim (fun h => nomatch hop.symm.trans h) (fun h => nomatch hop.symm.trans h)
        obtain ⟨is, h⟩ := commitRegion_drains hr' (hbuf ▸ hx) fun _ => hown
        exact ⟨is, withInvals_copy (hop1.trans hop) is ▸ h⟩
      · obtain ⟨is, h⟩ := commitRegion_drains hr' (hbuf ▸ hx) fun hs ⟨m, h⟩ => h.elim (ho hs m).1 (ho hs m).2
        exact withInvals_other (hop1 ▸ hop) is ▸ h
    · refine commitRegion_releases hr' (hbuf ▸ hx) hs hop hv (hvaults ▸ hw) hst hj fun y hy hys hyx ⟨n, h⟩ => ?_
      exact h.elim (hl y (hbuf ▸ hy) hys hyx n).1 (hl y (hbuf ▸ hy) hys hyx n).2
  · obtain ⟨d, hd, e⟩ := takeTrap_deliberateAbort (c := { cause := .deliberateAbort }) rfl hp hr hlt
    refine ⟨_, (exec_rabt hp hr).trans (congrArg Host.Outcome.next e), ?_⟩
    obtain ⟨_, _, _, _, rfl⟩ := hd
    obtain ⟨hregs, hk, hfly, hwaits, hbuf, hmat, hsp, -⟩ := dropRegion_frame (s := s) (r := r)
    obtain ⟨hpc, hloops, hredirects, htrap, hdelay, hbind, hgram⟩ := dropRegion_program (s := s) (r := r)
    have hcount : s.k.recounted = s.k.rcount + 1 := if_neg fun h => by bv_omega
    refine ⟨hpc, hloops, hredirects, htrap, hdelay, hregs, hcount ▸ hk, hfly, fun w hw => ?_, fun x hx => ?_, hmat, hbind, hgram, hsp, dropRegion_rgn (s := s)⟩
    · have hw' : w ∈ s.pipe.waits.filter (fun w => !w.inRgn) := hwaits ▸ hw
      simpa using (List.mem_filter.1 hw').2
    · exact (mem_not_opened.1 (hbuf ▸ hx)).2

/-- Settles O53: a discard and an entry leave what each of them leaves; outside region mode the entry comes alone; the supervisor's cause stops the node. -/
theorem trapsAreTaken : Obligations.TrapsAreTaken := by
  refine fun s c hc => ⟨fun r hp hr => ?_, fun hp hr => ?_, fun hp => ?_⟩
  · obtain ⟨d, hd, ht⟩ := takeTrap_region hp hr hc
    rw [ht]
    obtain ⟨hregs, hk, hfly, -, hbuf, hmat, hsp, hsch⟩ := hd.dropped
    obtain ⟨hk', hregs', hsp', hmat', hbuf', hpipe', -⟩ := enter_frame
      (if c.noProgress s then causeWord 3 Cause.noProgress.code else causeWord c.cause.class_ c.cause.code) r.snap.entry
      (if c.noProgress s then 0 else c.eva) (if c.noProgress s then 0 else s.einfoOf c) c.hold d.rgn d
    have hcause : (if c.noProgress s then causeWord 3 Cause.noProgress.code else causeWord c.cause.class_ c.cause.code) &&& causeMask =
        if c.noProgress s then 0xC064#16 else causeWord c.cause.class_ c.cause.code := by
      split
      · decide
      · exact causeWord_and_causeMask ..
    rw [hk, hcause] at hk'
    rw [hregs] at hregs'
    rw [hmat] at hmat'
    refine ⟨hk', (congrArg Regs.s hregs' :), (congrArg Regs.v hregs' :), (congrArg Regs.p hregs' :), (congrArg Regs.masks hregs' :), (congrArg Regs.fmt hregs' :), hsp'.trans hsp,
      (congrArg Mat.work hmat' :), (congrArg Mat.queue hmat' :), fun e he => ?_, (congrArg Pipe.inflight hpipe').trans hfly, fun q hq hlt => ?_⟩
    · exact (mem_not_opened.1 (hbuf ▸ hbuf' ▸ he)).2
    · rw [← hsch] at hq hlt
      exact enters_queue s hq hlt
  · obtain ⟨d, p, hd, ht⟩ := takeTrap_outside (c := c) hp hr
    obtain ⟨_, _, _, _, rfl⟩ := hd
    rw [ht]
    obtain ⟨hk, hregs, hsp, -, -, -, hloops⟩ := enter_frame (causeWord (if c.atFetch s then 0 else 2) c.cause.code) s.seq.pc c.eva (s.einfoOf c)
      (c.holdOutside s) none { s with hbm := _, rtags := _, hst := _, err := _ }
    rw [causeWord_and_causeMask] at hk
    exact ⟨hk, hregs, hsp, hloops, fun q hq hlt => entersOutside_queue s hq hlt⟩
  · obtain ⟨hstop, hhint, hk, hregs, hseq, hsp⟩ := supervisorFault_frame (s := s) (causeWord (if c.cause.class_ = 1 then 1 else 2) c.cause.code) c.eva (s.einfoOf c)
    rw [takeTrap_supervisor hp]
    exact ⟨hstop, hhint, hk, hregs, rfl, hsp⟩

end Sys2Proof.Proofs
end

section
/-! # O43: entries of the store buffer -/

namespace Sys2Proof.Machine

section
variable {s : State} {e : BufEntry}

theorem exec_bufferEntryDrain (hf : s.buf.find? (fun x => x.id == s.ev.id) = some e) (ht : s.entryTurn e = true) :
    exec .bufferEntryDrain s = .next (s.performEntry e) := by
  show execBufferEntryDrain s = _
  simp only [execBufferEntryDrain, hf, ht, if_true]

/-! ### Bytes at their home (R122, R233) -/

theorem read_write_take_toBytes {m : Memory} (a n k v x : Nat) (h : Memory.wf m = true) :
    Memory.read (Memory.write m a ((toBytes n v).take (k - a))) x =
      if a ≤ x ∧ x < a + n ∧ x < k then BitVec.ofNat 8 (v / 256 ^ (x - a)) else Memory.read m x := by
  rw [Memory.read_write a x _ h, List.length_take, toBytes_length]
  by_cases hx : a ≤ x ∧ x < a + n ∧ x < k
  · rw [if_pos hx, if_pos (by omega), List.getElem?_take_of_lt (by omega), toBytes_getElem? n v (x - a) (by omega)]
    rfl
  · rw [if_neg hx, if_neg (by omega)]

theorem writeHome_here_toBytes (s : State) (pa n v : Nat) (attr : Attr) (rel : Option (BitVec 14 × Nat)) :
    s.writeHome (.here pa) attr (toBytes n v) rel = { s with
      hbm := Memory.write s.hbm pa ((toBytes n v).take (hbmEnd - pa)), l2 := l2Span s.l2 pa n attr true, rtags := tagWrite s.rtags (.here pa) n rel } := by
  simp only [State.writeHome, State.writeHbm, toBytes_length]

theorem atomicHome_buf (s : State) (l : Loc) (attr : Attr) (op : AmoOp) (w64 : Bool) (v v2 : Nat) (rel : Option (BitVec 14 × Nat)) :
    (s.atomicHome l attr op w64 v v2 rel).1.buf = s.buf := by
  simp only [State.atomicHome]
  split
  · cases l <;> rfl
  · rfl

/-! ### Requests of the entries (R122, R276) -/

theorem dataLeaves_buf (s : State) (job : BitVec 16) (region : Option Nat) (dims : BitVec 14) : (s.dataLeaves job region dims).buf = s.buf := by
  simp only [State.dataLeaves]
  split
  · rfl
  · split
    · rfl
    · split <;> rfl

/-- An entry of one packet sends it as a request and waits for its answer. -/
theorem sendPart_single {kind : Nat} {n : BitVec 14} {r : RouteInfo} {pl : List Byte} (hp : e.prog = 0) (hl : s.lost n = false)
    (hm : s.maySend e.job n r.flow = true) (hs : s.midStream e = false) :
    let q := s.fab.request s.clock s.k.nodeId (.bufDrain e.id) kind n e.job r pl
    s.sendPart e kind [(n, r, pl)] = { { s with fab := q.1 }.dataLeaves e.job none (s.entryDims e n) with
      buf := s.buf.map fun x => if x.id = e.id then { e with prog := 1, out := e.out ++ [q.2], state := .sent } else x } := by
  simp only [State.sendPart, hp, List.getElem?_cons_zero, hl, hm, hs, Bool.false_eq_true, if_false, Bool.not_false, Bool.and_true, if_true,
    List.length_singleton, Nat.zero_add, State.setEntry, dataLeaves_buf]

end
end Sys2Proof.Machine

namespace Sys2Proof.Proofs
open Sys2Proof Sys2Proof.Machine

/-- Settles O43: the entry is performed; each clause is the case of its operation. -/
theorem entriesDrain : Obligations.EntriesDrain := by
  intro s e rest rel hf ht
  rw [exec_bufferEntryDrain hf ht]
  refine ⟨fun pa attr va w v hop hp => ⟨_, congrArg _ ?_, fun hwf a => read_write_take_toBytes pa w hbmEnd v.toNat a hwf⟩,
    fun pa attr va w v hop hp => congrArg _ ?_, fun pa attr va op w64 v v2 hop hp => congrArg _ ?_,
    fun node a v hop hn hp hl hm hs => congrArg _ ?_, fun a v hop ho => congrArg _ ?_, fun a v hop ho => congrArg _ ?_,
    fun m sc hop => congrArg _ ?_, fun c hop => congrArg _ ?_⟩
  all_goals simp only [State.performEntry, hop, if_true]
  case refine_1 => rw [hp, if_neg Bool.false_ne_true, writeHome_here_toBytes]; rfl
  case refine_2 => rw [hp, if_pos rfl]; rfl
  case refine_3 => rw [hp, if_neg Bool.false_ne_true, State.entryGone, atomicHome_buf]
  case refine_4 =>
    rw [if_neg hn, sendPart_single (r := { sigFor (s.entryK e) node a e.pol false with d3 := v }) hp hl hm hs]
    simp only [State.entryDims, hop]
  case refine_5 => rw [ho, if_neg Bool.false_ne_true]; rfl
  case refine_6 => rw [ho, if_pos rfl]; rfl
  case refine_7 => rfl
  case refine_8 => rfl

end Sys2Proof.Proofs
end

section
/-! # O11, O12: atomics and reductions -/

namespace Sys2Proof.Machine

/-! ## The word that an atomic leaves (R254) -/

section
variable {op : AmoOp} {w : Nat} {b : Bool}

/-- The operands count modulo the width of the word. -/
theorem amoNew_mod (hw : w = if b then 64 else 32) (old v v2 : Nat) : amoNew op b old (v % 2 ^ w) (v2 % 2 ^ w) = amoNew op b old v v2 := by
  unfold amoNew
  simp only [← hw, Nat.mod_mod]

theorem slt_iff_bmod (x y : BitVec w) : x.slt y = true ↔ Int.bmod x.toNat (2 ^ w) < Int.bmod y.toNat (2 ^ w) := by
  rw [BitVec.slt_iff_toInt_lt, BitVec.toInt_eq_toNat_bmod, BitVec.toInt_eq_toNat_bmod]

/-- The model's number is that of the specification's word. -/
theorem amoSpec_toNat (hw : w = if b then 64 else 32) (old v v2 : BitVec w) :
    (amoSpec op old v v2).map (·.toNat) = (amoNew op b old.toNat v.toNat v2.toNat).map (· % 2 ^ w) := by
  have hold := old.isLt
  have hv := v.isLt
  unfold amoNew
  simp only [← hw, Nat.mod_eq_of_lt hv, Nat.mod_eq_of_lt v2.isLt]
  cases op <;> simp only [amoSpec, Option.map_some, Option.some.injEq]
  case add => rw [BitVec.toNat_add, Nat.mod_mod]
  case smin => simp only [slt_iff_bmod, apply_ite BitVec.toNat, apply_ite (· % 2 ^ w), Nat.mod_eq_of_lt hold, Nat.mod_eq_of_lt hv]
  case smax => simp only [slt_iff_bmod, apply_ite BitVec.toNat, apply_ite (· % 2 ^ w), Nat.mod_eq_of_lt hold, Nat.mod_eq_of_lt hv]
  case zmin =>
    rw [Nat.mod_eq_of_lt (by omega)]
    simp only [BitVec.ult, decide_eq_true_eq, apply_ite BitVec.toNat]
    split <;> omega
  case zmax =>
    rw [Nat.mod_eq_of_lt (by omega)]
    simp only [BitVec.ult, decide_eq_true_eq, apply_ite BitVec.toNat]
    split <;> omega
  case and => rw [BitVec.toNat_and, Nat.mod_eq_of_lt (Nat.and_lt_two_pow _ hv)]
  case or => rw [BitVec.toNat_or, Nat.mod_eq_of_lt (Nat.or_lt_two_pow hold hv)]
  case xor => rw [BitVec.toNat_xor, Nat.mod_eq_of_lt (Nat.xor_lt_two_pow hold hv)]
  case swap => exact (Nat.mod_eq_of_lt hv).symm
  case cas =>
    by_cases h : old = v
    · rw [if_pos h, if_pos (congrArg _ h), Option.map_some, Option.map_some, Nat.mod_eq_of_lt v2.isLt]
    · rw [if_neg h, if_neg (mt BitVec.eq_of_toNat_eq h)]
      rfl
  all_goals exact BitVec.toNat_ofNat ..

theorem amoWord_eq {old : Nat} (h : old < 256 ^ (if b then 8 else 4)) (v v2 : DWord) :
    amoWord op b old v v2 = (amoNew op b old v.toNat v2.toNat).map (· % 256 ^ (if b then 8 else 4)) := by
  cases b with
  | true =>
    have h : (BitVec.ofNat 64 old).toNat = old := Nat.mod_eq_of_lt h
    rw [amoWord, if_pos rfl, amoSpec_toNat (w := 64) (b := true) rfl, h]
    rfl
  | false =>
    have h : (BitVec.ofNat 32 old).toNat = old := Nat.mod_eq_of_lt h
    rw [amoWord, if_neg Bool.false_ne_true, amoSpec_toNat (w := 32) (b := false) rfl, h, BitVec.toNat_setWidth, BitVec.toNat_setWidth, amoNew_mod (w := 32) rfl]
    rfl

end

/-! ## The word in memory -/

theorem toBytes_mod (n v : Nat) : toBytes n (v % 256 ^ n) = toBytes n v := by
  have h := toBytes_leNat (toBytes n v)
  rwa [toBytes_length, leNat_toBytes] at h

theorem bytes_write_toBytes {m : Memory} (a n v : Nat) (ok : Memory.wf m = true) : Memory.bytes (Memory.write m a (toBytes n v)) a n = toBytes n v := by
  have h := toBytes_leNat (Memory.bytes (Memory.write m a (toBytes n (v % 256 ^ n))) a n)
  have hw := Memory.word_write a n (v % 256 ^ n) ok (Nat.mod_lt _ (by positivity))
  rw [Memory.word] at hw
  rw [Memory.bytes_length, hw, toBytes_mod] at h
  exact h.symm

section
variable (s : State) (pa n : Nat) (attr : Attr) (rel : Option (BitVec 14 × Nat))

/-- What an atomic does to the memory here: the bytes of its word, the lines of the L2 and the release tags, of which an atomic that writes
nothing leaves the first and the last. -/
def State.wordEffects (new : Option Nat) : List Effect :=
  [.hbm pa (match new with | some v => toBytes n v | none => Memory.bytes s.hbm pa n),
    .setL2 (if new.isSome then l2Span s.l2 pa n attr true else s.touch (.here pa) attr false),
    .setRtags (if new.isSome then tagWrite s.rtags (.here pa) n rel else s.rtags)]

variable {s pa n attr rel}

/-- The effects that an issue reads off the atomic at its home are those of the word it leaves. -/
theorem atomicHome_effects {op : AmoOp} {b : Bool} (v v2 : DWord) (hpa : pa + (if b then 8 else 4) ≤ hbmEnd) (hwf : Memory.wf s.hbm = true) :
    let h := s.atomicHome (.here pa) attr op b v.toNat v2.toNat rel
    let old := Memory.word s.hbm pa (if b then 8 else 4)
    h.2 = old ∧ ([.hbm pa (h.1.readHome (.here pa) (if b then 8 else 4)), .setL2 h.1.l2, .setRtags h.1.rtags] : List Effect) =
      s.wordEffects pa (if b then 8 else 4) attr rel (amoWord op b old v v2) := by
  have hold : Memory.word s.hbm pa (if b then 8 else 4) < 256 ^ (if b then 8 else 4) := by
    have := leNat_lt (Memory.bytes s.hbm pa (if b then 8 else 4))
    rwa [Memory.bytes_length] at this
  dsimp only
  rw [amoWord_eq hold]
  unfold State.atomicHome
  simp only [State.readHome]
  rw [← Memory.word]
  cases amoNew op b (Memory.word s.hbm pa (if b then 8 else 4)) v.toNat v2.toNat with
  | none => exact ⟨rfl, rfl⟩
  | some x =>
    simp only [writeHome_here_toBytes, take_toBytes _ hpa, bytes_write_toBytes _ _ _ hwf, State.wordEffects, Option.map_some, toBytes_mod,
      Option.isSome_some, if_true, true_and]

end

/-! ## Atomics at home (R124, R254, R255) -/

section
variable {s : State} {op : AmoOp} {b : Bool} {d : SDst} {pa : Nat} {attr : Attr} {tlb : Tlb} {pol : BitVec 32} {v v2 : DWord} {va : VAddr}

/-- What an atomic here does: its word, and the old word that lands. -/
def State.atomicEffects (s : State) (op : AmoOp) (b : Bool) (d : SDst) (pa : Nat) (attr : Attr) (tlb : Tlb) (rel : Option (BitVec 14 × Nat)) (fl : Flags)
    (v v2 : DWord) : List Effect :=
  let n := if b then 8 else 4
  let old := Memory.word s.hbm pa n
  .setTlb tlb :: (s.wordEffects pa n attr rel (amoWord op b old v v2) ++ .land 0 fl (.scalar d (BitVec.ofNat 64 old)) :: s.traceValue (BitVec.ofNat 64 old))

/-- R279: an order that reaches no further than its scope, and an acquire of what a release outside it has marked. -/
def State.orderMissed (s : State) (pol : BitVec 32) (l : Loc) : Bool :=
  s.acquireOut pol l || s.releaseOut pol l || (polAcquire pol && s.acquireDrops s.k l s.k.nodeId (polScope pol))

theorem amoFlags_here (s : State) (pol : BitVec 32) (pa : Nat) :
    s.amoFlags pol s.k.nodeId (!s.acquireDrops s.k (.here pa) s.k.nodeId (polScope pol)) =
    if s.orderMissed pol (.here pa) then 0x100#32 else 0 := by
  simp only [State.amoFlags, State.orderMissed, State.acquireOut, State.releaseOut, State.homeNode, Bool.not_not]
  refine if_congr ?_ rfl rfl
  cases polAcquire pol <;> cases s.k.inScope (polScope pol) s.k.nodeId <;> simp

theorem amoHere_here (hpa : pa + (if b then 8 else 4) ≤ hbmEnd) (hwf : Memory.wf s.hbm = true) : s.amoHere op b d ⟨.here pa, attr, tlb⟩ pol v v2 =
    s.atomicEffects op b d pa attr tlb (s.relOf pol s.k.nodeId) (if s.orderMissed pol (.here pa) && !s.k.priv then 0x100#32 else 0) v v2 := by
  obtain ⟨hold, heff⟩ := atomicHome_effects (s := s) (attr := attr) (rel := s.relOf pol s.k.nodeId) (op := op) v v2 hpa hwf
  have hfl : (if s.k.priv then 0 else if s.orderMissed pol (.here pa) then 0x100#32 else 0) =
      if s.orderMissed pol (.here pa) && !s.k.priv then 0x100#32 else 0 := by
    cases s.k.priv <;> simp
  unfold State.atomicEffects
  dsimp only
  rw [← heff, ← hold, ← hfl, ← amoFlags_here]
  rfl

/-- R251: the supervisor's atomic carries no order. -/
theorem settle_amoIssue_direct {a : DWord} {p : Nat} (hp : s.k.priv = true) (hu : s.unasked) (hb : s.buf = [])
    (h : s.access a (if b then 8 else 4) .write (s.srcY p) = .ok (va, ⟨.here pa, attr, tlb⟩)) (hpa : pa + (if b then 8 else 4) ≤ hbmEnd)
    (hwf : Memory.wf s.hbm = true) : s.settle (s.amoIssue op b d a p v v2) = .next (applyAll s (s.atomicEffects op b d pa attr tlb none 0 v v2)) := by
  have hrel : s.relOf (s.srcY p) s.k.nodeId = none := by rw [State.relOf, hp]; rfl
  rw [State.amoIssue, if_pos hp, State.amoDirect, directly_of_unasked hu, h]
  simp only [ok_bind, hb, List.isEmpty_nil, await_true, lsRoom_of_lt hu.1, amoHere_here hpa hwf, hrel, hp, Bool.not_true, Bool.and_false,
    Bool.false_eq_true, if_false, issueOf_ok, settle_done]

/-! ## Atomics as boundary instructions (R124) -/

theorem amoPerform_here {find : Except Issue (VAddr × Xlat)} (hn : s.fab.answerTo s.k.jobtag s.performer = none)
    (ha : s.fab.asking s.k.jobtag s.performer = false) (hf : find = .ok (va, ⟨.here pa, attr, tlb⟩)) (hw : s.atomicWaits pol (.here pa) = .ok ())
    (hpa : pa + (if b then 8 else 4) ≤ hbmEnd) (hwf : Memory.wf s.hbm = true) : s.amoPerform op b d pol v v2 find =
      .ok (s.atomicEffects op b d pa attr tlb (s.relOf pol s.k.nodeId) (if s.orderMissed pol (.here pa) && !s.k.priv then 0x100#32 else 0) v v2) := by
  unfold State.amoPerform
  simp only [hn, ha, hf, Bool.false_eq_true, if_false, hw, ok_bind, amoHere_here hpa hwf]

theorem amoPerform_answered {find : Except Issue (VAddr × Xlat)} {a : Answer} (hn : s.fab.answerTo s.k.jobtag s.performer = some a) :
    s.amoPerform op b d pol v v2 find = .ok (s.amoAnswered d pol a) := by
  unfold State.amoPerform
  rw [hn]

theorem performing_priv (s : State) : s.performing.k.priv = s.k.priv := by
  unfold State.performing
  split
  · next r _ hr =>
    obtain ⟨_, _, e⟩ := signed_eq s r
    obtain ⟨_, _, hk, _⟩ := commitRegion_frame (commitReady_signed_rgn hr)
    rw [hk, e]
  · rfl

theorem bounded_of_some {o : Opening} (h : s.seq.perform = some o) (es : List Effect) : s.bounded es = applyAll s (es ++ [.perform none, .opens o]) := by
  rw [State.bounded, h]

theorem performing_of_some {o : Opening} (h : s.seq.perform = some o) : s.performing = s := by rw [State.performing, h]

end

/-! ## The issue of an atomic (R124, R255, R256) -/

section
variable {s : State} {op : AmoOp} {b : Bool} {d : SDst} {a : DWord} {p : Nat} {v v2 : DWord} {es : List Effect}

theorem settle_amoIssue (hp : s.k.priv = false) (hr : s.regional) (hbr : s.boundaryReady)
    (hc : s.seq.perform = none → s.requests < 8192 ∧ ∃ q, s.access a (if b then 8 else 4) .write (s.srcY p) = .ok q)
    (hf : s.performing.amoPerform op b d (s.srcY p) v v2 (s.performing.access a (if b then 8 else 4) .write (s.srcY p)) = .ok es) :
    s.settle (s.amoIssue op b d a p v v2) = .next (s.bounded es) := by
  rw [State.amoIssue, if_neg (by rw [hp]; exact Bool.false_ne_true)]
  refine settle_boundary hbr (fun h => ?_) hf
  obtain ⟨hlt, q, hq⟩ := hc h
  simp only [needRegion_of_regional hr, hq, ok_bind, lsRoom_of_lt hlt]

theorem settle_amxIssue {set : DWord} (hr : s.regional) (hbr : s.boundaryReady)
    (hc : s.seq.perform = none → s.requests < 8192 ∧
      ∃ va q, s.remote a set (if b then 8 else 4) .write (s.srcY p) = .ok (va, q) ∧ ∃ pa, q.loc = .here pa)
    (hf : s.performing.amoPerform op b d (s.srcY p) v v2 (s.performing.remote a set (if b then 8 else 4) .write (s.srcY p)) = .ok es) :
    s.settle (s.amxIssue op b d a set p v v2) = .next (s.bounded es) := by
  unfold State.amxIssue
  refine settle_boundary hbr (fun h => ?_) hf
  obtain ⟨hlt, va, q, hq, pa, hl⟩ := hc h
  simp only [needRegion_of_regional hr, ok_bind, hq, hl, lsRoom_of_lt hlt, ite_self]

end

/-! ## Reductions (R251, R255, R256) -/

theorem w64Type_eq (op : AmoOp) (w64 : Bool) : w64Type op w64 = amoType op w64 := by cases op <;> rfl

section
variable {s : State} {op : AmoOp} {b : Bool} {a : DWord} {set : Option DWord} {p : Nat} {v v2 : DWord} {va : VAddr} {l : Xlat}

theorem settle_redIssue_direct {pa : Nat} {attr : Attr} {tlb : Tlb} (hp : s.k.priv = true) (hu : s.unasked) (hb : s.buf = [])
    (h : s.access a (if b then 8 else 4) .write (s.srcY p) = .ok (va, ⟨.here pa, attr, tlb⟩)) (hpa : pa + (if b then 8 else 4) ≤ hbmEnd)
    (hwf : Memory.wf s.hbm = true) : s.settle (s.redIssue op a none p b v v2) = .next (applyAll s (.setTlb tlb ::
      s.wordEffects pa (if b then 8 else 4) attr none (amoWord op b (Memory.word s.hbm pa (if b then 8 else 4)) v v2))) := by
  rw [State.redIssue, needRegion_of_regional (.inl hp), ← (atomicHome_effects v v2 hpa hwf).2]
  simp only [ok_bind, hp, Option.isNone_none, Bool.and_true, if_true, directWrite_here hu h hb, issueOf_ok, settle_done]
  rfl

theorem settle_redIssue_waits (hp : s.k.priv = true) (hu : s.unasked) (h : s.access a (if b then 8 else 4) .write (s.srcY p) = .ok (va, l))
    (hb : s.buf ≠ []) : s.settle (s.redIssue op a none p b v v2) = .next (s.stalls 0x09) := by
  rw [State.redIssue, needRegion_of_regional (.inl hp)]
  simp only [ok_bind, hp, Option.isNone_none, Bool.and_true, if_true, directWrite_waits hu h hb]
  rfl

/-- Where a reduction of a program goes: to its page's home, or to the target that REDX names. -/
def State.redTarget (s : State) (a : DWord) (set : Option DWord) (n : Nat) (pol : BitVec 32) : Except Issue (VAddr × Xlat) :=
  match set with
  | none => s.access a n .write pol
  | some y => s.remote a y n .write pol

theorem redIssue_program (hp : s.k.priv = false) (hr : s.rgn.isSome = true) (h : s.redTarget a set (if b then 8 else 4) (s.srcY p) = .ok (va, l)) :
    s.redIssue op a set p b v v2 = issueOf (s.bufferIssue 8 l (s.srcY p) (amoType op b) (.reduce l.loc l.attr va op b v v2)) := by
  rw [State.redIssue, needRegion_of_regional (.inr (.inl hr))]
  unfold State.redTarget at h
  cases set <;> simp only [ok_bind, hp, Bool.false_and, Bool.false_eq_true, if_false, h, w64Type_eq]

end

/-! ## The instructions -/

section
variable (s : State) (op : AmoOp) (d : SDst) (x y : SSrc) (m p r : Nat) (w64 : Bool) (t : ATy)

theorem exec_amoInstr : exec (amoInstr op d x y m p w64) s =
    s.settle (s.amoIssue op (w64 && !amoIsFloat op) d (s.srcS x) p (s.amoOperand op y m) (s.amoSwap op m)) := by
  cases w64 <;> cases op <;> rfl

theorem exec_redInstr : exec (redInstr op x y m p w64) s =
    s.settle (s.redIssue op (s.srcS x) none p (w64 && !amoIsFloat op) (s.amoOperand op y m) (s.amoSwap op m)) := by
  cases w64 <;> cases op <;> rfl

theorem atyW64_eq : atyW64 t = decide (t = .i64 ∨ t = .z64) := by cases t <;> rfl

theorem exec_amx : exec (.amx op d r y p t) s = s.settle (s.amxIssue op (decide (t = .i64 ∨ t = .z64)) d (s.srcS (.reg r)) (s.srcS y) p
    (s.srcS (.reg (r + 1))) (s.amxSwap op d)) := by
  rw [← atyW64_eq]; rfl

theorem exec_redx : exec (.redx op r y p t) s = s.settle (s.redIssue op (s.srcS (.reg r)) (some (s.srcS y)) p (decide (t = .i64 ∨ t = .z64))
    (s.srcS (.reg (r + 1))) 0) := by
  rw [← atyW64_eq]; rfl

end

end Sys2Proof.Machine

namespace Sys2Proof.Proofs
open Sys2Proof Sys2Proof.Machine

/-- Settles O11: the atomic performs at home as its word says, or lands what its request was answered with. -/
theorem atomicsPerform : Obligations.AtomicsPerform := by
  refine ⟨fun s op d x y m p w64 va pa attr tlb => ⟨?_, fun hp hu hb h hpa hwf => ?_⟩, fun s op d y r p t va pa attr tlb => ?_,
    fun s op d x y m p r w64 t o a => ?_⟩
  · intro hp hr hbr hc hn ha hf hw hpa hwf
    rw [exec_amoInstr]
    refine (settle_amoIssue hp hr hbr hc (amoPerform_here hn ha hf hw hpa hwf)).trans ?_
    rw [performing_priv, hp, Bool.not_false, Bool.and_true]
    rfl
  · rw [exec_amoInstr]
    exact settle_amoIssue_direct hp hu hb h hpa hwf
  · intro wide n pol s1 old swap new missed hr hbr hc hn ha hf hw hpa hwf hfloat
    rw [exec_amx]
    exact settle_amxIssue hr hbr hc (amoPerform_here hn ha hf hw hpa hwf)
  · intro pol out fl done hp ho hn
    have hr : s.regional := .inr (.inr (by rw [ho]; rfl))
    have hbr : s.boundaryReady := fun h => nomatch ho.symm.trans h
    have hdone : s.bounded (s.amoAnswered d pol a) = done := by
      rw [bounded_of_some ho, State.amoAnswered, hp]
      rfl
    have hc (h : s.seq.perform = none) : False := nomatch ho.symm.trans h
    have hs := performing_of_some ho
    rw [exec_amoInstr, exec_amx, ← hdone]
    exact ⟨settle_amoIssue hp hr hbr (fun h => (hc h).elim) (hs.symm ▸ amoPerform_answered hn),
      settle_amxIssue hr hbr (fun h => (hc h).elim) (hs.symm ▸ amoPerform_answered hn)⟩

/-- Settles O12: the supervisor's reduction acts on the word at once; a program's becomes an entry, with its check where it goes to another node. -/
theorem reductionsEnterBuffer : Obligations.ReductionsEnterBuffer := by
  refine ⟨fun s op x y m p w64 va pa attr tlb => ?_, fun s op x y m p r w64 t va l => ?_⟩
  · intro wide n new hp hu h
    rw [exec_redInstr]
    exact ⟨fun hb hpa hwf => settle_redIssue_direct hp hu hb h hpa hwf, settle_redIssue_waits hp hu h⟩
  · intro wide n wx nx pol fl hp hr hh hb
    rw [exec_redInstr, exec_redx]
    refine ⟨fun h => ?_, fun h => ⟨fun pa hl => ?_, fun node a hl hf => ?_⟩⟩
    · rw [redIssue_program (set := none) hp hr h]
      exact settle_bufferIssue hp hh hb (access_ok h).2.2
    · rw [redIssue_program (set := some _) hp hr h]
      exact settle_bufferIssue hp hh hb fun node a e => nomatch hl.symm.trans e
    · rw [redIssue_program (set := some _) hp hr h]
      exact settle_bufferIssue_remote hp hh hb hl hf

end Sys2Proof.Proofs
end

section
/-! # O33: region instructions and the chunks of a resumable operation -/

namespace Sys2Proof.Machine

/-! ## RGN, CMT, REND, RABT (R113 to R117, R128) -/

section
variable {s : State} {x y : SSrc} {o : Opening} {r : Region}

theorem opening_of_owned (ha : s.allArrived = true) (hw : s.ownsAll (o.rmask ||| o.wmask) = true) :
    s.opening o = .ok [.perform none, .opens o] := by
  simp only [State.opening, ha, hw, await_true, ok_bind]

theorem opening_of_not_owned (ha : s.allArrived = true) (hw : s.ownsAll (o.rmask ||| o.wmask) = false) : s.opening o = .error (.stall 0x0F) := by
  simp only [State.opening, ha, hw, await_true, await_false, ok_bind, error_bind]

theorem performing_perform (s : State) : s.performing.seq.perform = s.seq.perform := by
  unfold State.performing
  split
  · next r hn hr =>
    obtain ⟨_, _, e⟩ := signed_eq s r
    obtain ⟨_, _, _, _, _, _, hseq⟩ := commitRegion_frame (commitReady_signed_rgn hr)
    rw [hseq, e]
  · rfl

theorem performing_of_none (hr : s.rgn = none) : s.performing = s := by
  unfold State.performing
  rw [hr]
  cases s.seq.perform <;> rfl

theorem performing_of_region (hn : s.seq.perform = none) (hr : s.rgn = some r) : s.performing = (s.signed r).commitRegion := by
  unfold State.performing
  rw [hn, hr]

/-- RGN's region (R114). -/
def State.rgnOpening (s : State) (x y : SSrc) : Opening :=
  ⟨(s.srcS x).setWidth 32, (s.srcS x >>> 32).setWidth 32, s.srcS y, false, true, 0⟩

section
variable (hp : s.k.priv = false) (hn : s.seq.perform = none) (hd : s.descriptorOk (s.srcS x) (s.srcS y) = true) (hb : s.boundaryReady)
include hp hn hd hb

/-- RGN commits the open region first, if there is one, and then opens its own or waits at its boundary to issue again. -/
theorem rgnIssue_first : ∃ first, applyAll s first = s.performing
    ∧ (∀ es, s.performing.opening (s.rgnOpening x y) = .ok es → s.rgnIssue x y = .done (first ++ es))
    ∧ (∀ c, s.performing.opening (s.rgnOpening x y) = .error (.stall c) → s.rgnIssue x y = .pause (first ++ [.perform (some (s.rgnOpening x y))]) c) := by
  unfold State.rgnIssue State.rgnOpening
  simp only [hn, hp, hd, Bool.not_false, check_true, ok_bind]
  obtain hr | ⟨r, hr⟩ := Option.eq_none_or_eq_some s.rgn
  · rw [performing_of_none hr]
    simp only [hr]
    exact ⟨[], rfl, fun es ho => by rw [ho]; rfl, fun c ho => by rw [ho]; rfl⟩
  · rw [performing_of_region hn hr]
    simp only [hr, hb hn r hr, ok_bind]
    exact ⟨s.signEffects r ++ [.commit], by rw [applyAll_append, applyAll_signEffects]; rfl, fun es ho => by rw [ho]; rfl, fun c ho => by rw [ho]; rfl⟩

theorem settle_rgnIssue {es : List Effect} (ho : s.performing.opening (s.rgnOpening x y) = .ok es) :
    s.settle (s.rgnIssue x y) = .next (applyAll s.performing es) := by
  obtain ⟨first, hfirst, hopens, -⟩ := rgnIssue_first (x := x) (y := y) hp hn hd hb
  rw [hopens es ho, settle_done, applyAll_append, hfirst]

theorem settle_rgnIssue_stall {c : Nat} (ho : s.performing.opening (s.rgnOpening x y) = .error (.stall c)) :
    s.settle (s.rgnIssue x y) = .next { s.performing with seq := { s.performing.seq with
      perform := some (s.rgnOpening x y), bun := { s.performing.seq.bun with stalled := some c, kept := true } } } := by
  obtain ⟨first, hfirst, -, hwaits⟩ := rgnIssue_first (x := x) (y := y) hp hn hd hb
  rw [hwaits c ho]
  simp only [State.settle, applyAll_append, hfirst, applyAll_cons, applyAll_nil, apply_perform]

end

theorem setPerform_none (h : s.seq.perform = none) : { s with seq := { s.seq with perform := none } } = s := by rw [← h]

theorem settle_rgnIssue_again {o : Opening} (hn : s.seq.perform = some o) (ha : s.allArrived = true) (hw : s.ownsAll (o.rmask ||| o.wmask) = true) :
    s.settle (s.rgnIssue x y) = .next (applyAll s [.perform none, .opens o]) := by
  unfold State.rgnIssue
  simp only [hn, opening_of_owned ha hw, issueOf_ok, settle_done]

theorem settle_rgnIssue_supervisor (hp : s.k.priv = true) (hn : s.seq.perform = none) : s.settle (s.rgnIssue x y) = s.raises .regionContext := by
  unfold State.rgnIssue
  simp only [hn, hp, Bool.not_true, check_false, error_bind]
  rfl

theorem settle_rgnIssue_descriptor (hp : s.k.priv = false) (hn : s.seq.perform = none) (hd : s.descriptorOk (s.srcS x) (s.srcS y) = false) :
    s.settle (s.rgnIssue x y) = s.raises .descriptor := by
  unfold State.rgnIssue
  simp only [hn, hp, hd, Bool.not_false, check_true, check_false, ok_bind, error_bind]
  rfl

theorem settle_cmtIssue (hp : s.k.priv = false) (hr : s.rgn = some r) (hc : s.commitReady r = .ok ()) :
    s.settle s.cmtIssue = .next (applyAll (s.signed r).commitRegion [.opens (r.next false)]) := by
  rw [State.cmtIssue, openRegionOf_of_program hp hr]
  simp only [ok_bind, hc, issueOf_ok, settle_done, applyAll_append, applyAll_signEffects, applyAll_cons, applyAll_nil, apply_commit]

theorem settle_rendIssue (hp : s.k.priv = false) (hr : s.rgn = some r) (hc : s.commitReady r = .ok ()) :
    s.settle s.rendIssue = .next (applyAll (s.signed r).commitRegion [.rend]) := by
  rw [State.rendIssue, openRegionOf_of_program hp hr]
  simp only [ok_bind, hc, issueOf_ok, settle_done, applyAll_append, applyAll_signEffects, applyAll_cons, applyAll_nil, apply_commit]

theorem openRegionOf_of_not (h : s.k.priv = true ∨ s.rgn = none) : s.openRegionOf = .error (.cause .regionContext) := by
  unfold State.openRegionOf
  split
  · next r hr => rw [if_pos (h.resolve_right (hr ▸ nofun))]
  · rfl

theorem settle_close_of_not (h : s.k.priv = true ∨ s.rgn = none) : s.settle s.cmtIssue = s.raises .regionContext
    ∧ s.settle s.rendIssue = s.raises .regionContext ∧ s.settle s.rabtIssue = s.raises .regionContext := by
  rw [State.cmtIssue, State.rendIssue, State.rabtIssue, openRegionOf_of_not h]
  exact ⟨rfl, rfl, rfl⟩

/-! ## RSTAT and the count of the bundles outside a region (R117, R137) -/

theorem rstatValue_of_none (hr : s.rgn = none) : s.rstatValue = 0 := by rw [State.rstatValue, hr]

theorem rstatValue_bits (hr : s.rgn = some r) : bits s.rstatValue 0 8 = s.k.rtag.toNat ∧ bits s.rstatValue 8 8 = s.k.rcount.toNat
    ∧ bits s.rstatValue 16 3 = 1 ∧ s.rstatValue.getLsbD 19 = r.check ∧ s.rstatValue.getLsbD 20 = r.resum
    ∧ bits s.rstatValue 21 11 = r.used % 2 ^ 11 ∧ bits s.rstatValue 32 32 = if r.resum then r.prog % 2 ^ 32 else 0 := by
  have htag := s.k.rtag.isLt
  have hcount := s.k.rcount.isLt
  have hused : r.used % 2 ^ 11 < 2 ^ 11 := Nat.mod_lt _ (by decide)
  have hprog : (if r.resum then r.prog % 2 ^ 32 else 0) < 2 ^ 32 := by split <;> omega
  rw [State.rstatValue, hr]
  dsimp only [bits, BitVec.getLsbD]
  generalize (if r.resum then r.prog % 2 ^ 32 else 0) = prog at hprog ⊢
  generalize r.used % 2 ^ 11 = used at hused ⊢
  simp only [BitVec.toNat_ofNat, Nat.testBit_eq_decide_div_mod_eq, Nat.pow_zero, Nat.div_one]
  cases r.check <;> cases r.resum
  all_goals
    simp only [Bool.false_eq_true, if_true, if_false, decide_eq_true_eq, decide_eq_false_iff_not]
    exact ⟨by omega, by omega, by omega, by omega, by omega, by omega, by omega⟩

theorem exec_outsideRegionLimit (hp : s.k.priv = false) (hr : s.rgn = none) (h : 4095 ≤ s.seq.outside) :
    exec .outsideRegionLimit s = .next (s.takeTrap { cause := .regionContext, slotless := true }) := by
  show execOutsideRegionLimit s = _
  rw [execOutsideRegionLimit, hp, State.inRegion, hr, decide_eq_true h]
  rfl

end

/-! ## Lanes of four bytes (R162, R164) -/

theorem testBit_joinN {c j : Nat} (hj : j < c) (l : List Nat) (i : Nat) : (joinN (2 ^ c) l).testBit (c * i + j) = ((l[i]?).getD 0).testBit j := by
  induction l generalizing i with
  | nil => simp [joinN]
  | cons x l ih =>
    have hx : x % 2 ^ c < 2 ^ c := Nat.mod_lt _ (by positivity)
    rw [joinN, Nat.add_comm, Nat.testBit_two_pow_mul_add _ hx]
    cases i with
    | zero => simp [hj]
    | succ i =>
      have hi : c * (i + 1) + j = c * i + j + c := by ring
      rw [if_neg (by omega), hi, Nat.add_sub_cancel, ih]
      rfl

theorem splitN_getElem? (n b x : Nat) {i : Nat} (h : i < n) : (splitN n b x)[i]? = some (x / b ^ i % b) := by
  induction n generalizing x i with
  | zero => omega
  | succ n ih =>
    cases i with
    | zero => simp [splitN]
    | succ i => rw [splitN, List.getElem?_cons_succ, ih _ (by omega), Nat.div_div_eq_div_mul, Nat.pow_succ']

section
variable {i j : Nat} (hi : i < 2048) (hj : j < 32)
include hi hj

theorem getLsbD_ofLanes (l : List Nat) : (ofLanes 4 l).getLsbD (32 * i + j) = ((l[i]?).getD 0).testBit j := by
  rw [ofLanes, BitVec.getLsbD_ofNat, testBit_joinN hj, decide_eq_true (by omega), Bool.true_and]

theorem getLsbD_laneBits (act : List Bool) : (laneBits 4 act).getLsbD (32 * i + j) = (act[i]?).getD false := by
  rw [laneBits, getLsbD_ofLanes hi hj, List.getElem?_map]
  rcases act[i]? with _ | _ | _
  · exact Nat.zero_testBit j
  · exact Nat.zero_testBit j
  · exact (Nat.testBit_two_pow_sub_one 32 j).trans (decide_eq_true hj)

end

theorem testBit_laneVal (v : VReg) (i j : Nat) : (laneVal 4 v i).testBit j = (decide (j < 32) && v.getLsbD (32 * i + j)) :=
  BitVec.getLsbD_extractLsb' (i := j) ..

/-- A merge of lanes takes each lane of the one or of the other. -/
theorem laneVal_mergeV (old : VReg) (vs : List Nat) (act : List Bool) {i : Nat} (hi : i < 2048) :
    laneVal 4 (mergeV old (ofLanes 4 vs) (laneBits 4 act)) i = if (act[i]?).getD false then ((vs[i]?).getD 0) % 2 ^ 32 else laneVal 4 old i := by
  refine Nat.eq_of_testBit_eq fun j => ?_
  rw [testBit_laneVal, apply_ite (Nat.testBit · j), Nat.testBit_mod_two_pow, testBit_laneVal]
  by_cases hj : j < 32
  · rw [getLsbD_mergeV _ _ _ (by omega), getLsbD_laneBits hi hj, getLsbD_ofLanes hi hj, decide_eq_true hj, Bool.true_and, Bool.true_and, Bool.true_and]
  · simp only [decide_eq_false hj, Bool.false_and, ite_self]

theorem active_four_getElem? (m : Mask) {i : Nat} (hi : i < 2048) : (active m 4)[i]? = some (m.getLsbD i) := by
  show ((splitN 2048 2 m.toNat).map (· == 1))[i]? = _
  rw [List.getElem?_map, splitN_getElem? _ _ _ hi, BitVec.getLsbD, Nat.testBit_eq_decide_div_mod_eq]
  rfl

theorem laneWindow_getElem? (lo hi : Nat) (act : List Bool) (i : Nat) :
    (laneWindow lo hi act)[i]? = (act[i]?).map fun a => a && decide (lo ≤ i ∧ i < hi) := by
  simp [laneWindow, List.getElem?_zipIdx, Function.comp_def]

/-! ## Chunks (R132) -/

section
variable {s : State} {r : Region}

theorem progress_of_some (hr : s.rgn = some r) : s.progress = r.prog := by rw [State.progress, hr]

section
variable (hr : s.rgn = some r) (hd : r.desc.getLsbD 16 = true) (hi : r.resIssued = true)
include hr hd hi

theorem exec_chunkCommit_wait {w : Wait} (hq : s.mat.queue = []) (hw : s.pipe.waits.find? (fun w => w.outstanding && w.inRgn) = some w) :
    exec .chunkCommit s = .next (s.waitChunk w) := by
  show s.nextChunk = _
  unfold State.nextChunk
  simp only [hr, Region.resum, hd, hi, hq, hw, List.head?_nil, Bool.not_true, Bool.or_false, Bool.false_eq_true, if_false]

theorem exec_chunkCommit_mac {e : MatEntry} {mul : Bool} {t : Nat} {a b : List DWord} {av : List VReg} {k : BitVec 32}
    (hq : s.mat.queue.head? = some e) (hop : e.op = .mac mul t a av b k true) (hk : k.toNat ≤ r.prog) :
    exec .chunkCommit s = .next (s.macEnd e mul t k.toNat) := by
  show s.nextChunk = _
  unfold State.nextChunk
  simp only [hr, Region.resum, hd, hi, hq, hop, Bool.not_true, Bool.or_false, Bool.false_eq_true, if_false, State.macChunks, progress_of_some hr, hk, if_true]

end

/-- The chunk of a gather: its 256 lanes. -/
theorem waitChunk_gather {w : Wait} {b m idx ew d vs} (hr : s.rgn = some r) (hop : w.op = .gather b idx m ew true) (hvd : w.vd = some (.reg d))
    (hlt : r.prog < 2048) (hvs : s.gatherLanes (ewBytes ew) (gatherAddrs b (ewBytes ew) r.prog (r.prog + 256) idx m) = .ok vs) :
    s.waitChunk w = State.chunked { s with regs := { s.regs with
      v := s.regs.v.set d (mergeV ((s.regs.v[d]?).getD 0) (ofLanes 4 vs) (laneBits 4 (laneWindow r.prog (r.prog + 256) (active m 4)))) } } 256 := by
  unfold State.waitChunk
  simp only [hop, progress_of_some hr, hlt, if_true, State.gatherChunk, hvs, hvd]

theorem popQueue_eq (l : List MatEntry) : popQueue l = l.tail.dropWhile fun e => e.op == .wait := by cases l <;> rfl

/-- A tile that is written with itself changes nothing. -/
theorem setWork_tile (m : Mat) (n : Nat) : m.setWork n (m.tile n) = m := by
  have h : m.work.set n (m.tile n) = m.work := by
    by_cases hn : n < m.work.length
    · rw [Mat.tile, List.getElem?_eq_getElem hn, Option.getD_some, List.set_getElem_self]
    · exact List.set_eq_of_length_le (by omega)
  rw [Mat.setWork, h]

theorem macTile_of_mul {e : MatEntry} {t : Nat} {a b : List DWord} {av : List VReg} {k : BitVec 32}
    (hr : s.rgn = some r) (hop : e.op = .mac true t a av b k true) :
    s.macTile e true t = if r.prog = 0 then ⟨s.startAnchor e, []⟩ else s.mat.tile t := by
  have hfirst : s.firstStep e = r.prog := by rw [State.firstStep, hop]; exact progress_of_some hr
  rw [State.macTile, hfirst, Bool.true_and]
  simp only [beq_iff_eq]
  rfl

/-- The end of a resumable MMAC: a MMUL of no steps clears its tile, unless a chunk has. -/
theorem macEnd_eq {e : MatEntry} {mul : Bool} {t : Nat} {a b : List DWord} {av : List VReg} {k : BitVec 32}
    (hr : s.rgn = some r) (hop : e.op = .mac mul t a av b k true) :
    s.macEnd e mul t k.toNat = { s with mat := { s.mat with
      work := if mul = true ∧ k = 0 ∧ r.prog = 0 then s.mat.work.set t ⟨s.startAnchor e, []⟩ else s.mat.work, queue := s.restOfQueue } } := by
  have hk : (mul && k.toNat == 0) = decide (mul = true ∧ k = 0) := by simp [BitVec.toNat_eq, Bool.beq_eq_decide_eq]
  rw [State.macEnd, popQueue_eq, hk]
  simp only [decide_eq_true_eq, ← and_assoc]
  by_cases h : mul = true ∧ k = 0
  · rw [if_pos h, h.1, macTile_of_mul hr (h.1 ▸ hop)]
    by_cases h0 : r.prog = 0
    · have hc : (true = true ∧ k = 0) ∧ r.prog = 0 := ⟨⟨rfl, h.2⟩, h0⟩
      rw [if_pos h0, if_pos hc]
      rfl
    · have hc : ¬ ((true = true ∧ k = 0) ∧ r.prog = 0) := fun hc => h0 hc.2
      rw [if_neg h0, if_neg hc, setWork_tile]
      rfl
  · have hc : ¬ ((mul = true ∧ k = 0) ∧ r.prog = 0) := fun hc => h hc.1
    rw [if_neg h, if_neg hc]
    rfl

end
end Sys2Proof.Machine

namespace Sys2Proof.Proofs
open Sys2Proof Sys2Proof.Machine

/-- Settles O33: each region instruction by mode and region, and the two chunks. -/
theorem regionInstructions : Obligations.RegionInstructions := by
  refine ⟨fun s d x y => ?_, fun s => ⟨exec_outsideRegionLimit, fun r w d b idx m ew vs hr hd hi hq hw hop hvd hlt hvs => ?_,
    fun r e mul t a av b k hr hd hi hq hop hk => (exec_chunkCommit_mac hr hd hi hq hop hk).trans (congrArg _ (macEnd_eq hr hop))⟩⟩
  · intro masks desc t opening
    refine ⟨fun hp hn hd hb ha hw => ?_, fun hp hn hd hb ha hw => ?_, fun o hn ha hw => settle_rgnIssue_again hn ha hw,
      settle_rgnIssue_supervisor, settle_rgnIssue_descriptor, fun r hp hr hc => ⟨settle_cmtIssue hp hr hc, settle_rendIssue hp hr hc⟩, fun h => ?_,
      s.rstatValue, rfl, rstatValue_of_none, fun r hr => rstatValue_bits hr⟩
    · refine (settle_rgnIssue hp hn hd hb (opening_of_owned ha hw)).trans (congrArg _ ?_)
      have hperform : t.seq.perform = none := (performing_perform s).trans hn
      rw [applyAll_cons, apply_perform, setPerform_none hperform]
      rfl
    · exact settle_rgnIssue_stall hp hn hd hb (opening_of_not_owned ha hw)
    · exact settle_close_of_not h
  · refine ⟨_, (exec_chunkCommit_wait hr hd hi hq hw).trans (congrArg _ (waitChunk_gather hr hop hvd hlt hvs)), congrArg (Option.map _) hr,
      rfl, rfl, rfl, rfl, rfl, rfl, fun e he => List.getElem?_set_ne (Ne.symm he), fun old v hold hv i hi => ?_⟩
    have hlane : (((laneWindow r.prog (r.prog + 256) (active m 4))[i]?).getD false = true) ↔ (r.prog ≤ i ∧ i < r.prog + 256 ∧ m.getLsbD i = true) := by
      rw [laneWindow_getElem?, active_four_getElem? m hi, Option.map_some, Option.getD_some, Bool.and_eq_true, decide_eq_true_eq, and_comm, and_assoc]
    have hset := List.getElem?_set_self (List.getElem?_eq_some_iff.1 hold).1
      (a := mergeV ((s.regs.v[d]?).getD 0) (ofLanes 4 vs) (laneBits 4 (laneWindow r.prog (r.prog + 256) (active m 4))))
    obtain rfl := Option.some.inj (hv.symm.trans hset)
    rw [laneVal_mergeV _ _ _ hi, hold, Option.getD_some]
    exact if_congr hlane rfl rfl

end Sys2Proof.Proofs
end

section
/-! # O5: encodings of a format and the numbers that they stand for (05_formats, R139, R140) -/

namespace Sys2Proof.Machine

/-! ## Magnitudes -/

/-- The steps above the least exponent of a magnitude `b`: its exponent field less one, and none in a subnormal. -/
def Fmt.steps (f : Fmt) (b : Nat) : Nat := b / 2 ^ f.m - 1

/-- The number that the exponent and fraction bits `b` stand for. -/
def Fmt.mag (f : Fmt) (b : Nat) : ℚ := ((b - f.steps b * 2 ^ f.m : Nat) : ℚ) * (2 : ℚ) ^ ((f.steps b : ℤ) + f.emin - f.m)

section
variable {f : Fmt}

theorem mag_zero : f.mag 0 = 0 := by simp [Fmt.mag]

theorem steps_mul_le (b : Nat) : f.steps b * 2 ^ f.m ≤ b :=
  (Nat.mul_le_mul_right _ (Nat.sub_le _ 1)).trans (Nat.div_mul_le_self b _)

/-- Each magnitude is a step count and a coefficient of at most m + 1 bits, which is full unless the step count is 0. -/
theorem coefficient_bounds (b : Nat) :
    b - f.steps b * 2 ^ f.m < 2 ^ (f.m + 1) ∧ (f.steps b = 0 ∨ 2 ^ f.m ≤ b - f.steps b * 2 ^ f.m) := by
  have hd := Nat.div_add_mod b (2 ^ f.m)
  have hr := Nat.mod_lt b (Nat.two_pow_pos f.m)
  unfold Fmt.steps
  cases hq : b / 2 ^ f.m with
  | zero =>
    rw [hq] at hd
    refine ⟨?_, .inl rfl⟩
    rw [pow_succ]
    omega
  | succ q =>
    rw [hq, mul_comm, Nat.succ_mul] at hd
    rw [Nat.add_sub_cancel, pow_succ]
    omega

theorem steps_encode {j k : Nat} (hk : k < 2 ^ (f.m + 1)) (h : j = 0 ∨ 2 ^ f.m ≤ k) : f.steps (j * 2 ^ f.m + k) = j := by
  have hpos := Nat.two_pow_pos f.m
  rw [pow_succ] at hk
  unfold Fmt.steps
  rw [add_comm, Nat.add_mul_div_right _ _ hpos]
  by_cases hkm : 2 ^ f.m ≤ k
  · have h1 : k / 2 ^ f.m = 1 := by rw [Nat.div_eq_iff hpos]; omega
    omega
  · rw [Nat.div_eq_of_lt (by omega)]
    omega

/-- A full coefficient, or one at the least exponent, encodes its multiple of the step's unit; so does the coefficient after the last. -/
theorem mag_encode {j k : Nat} (hk : k ≤ 2 ^ (f.m + 1)) (h : j = 0 ∨ 2 ^ f.m ≤ k) :
    f.mag (j * 2 ^ f.m + k) = (k : ℚ) * (2 : ℚ) ^ ((j : ℤ) + f.emin - f.m) := by
  rcases hk.lt_or_eq with hk | rfl
  · rw [Fmt.mag, steps_encode hk h, Nat.add_sub_cancel_left]
  · have e : j * 2 ^ f.m + 2 ^ (f.m + 1) = (j + 1) * 2 ^ f.m + 2 ^ f.m := by ring
    have hs : f.steps ((j + 1) * 2 ^ f.m + 2 ^ f.m) = j + 1 := steps_encode (Nat.pow_lt_pow_succ one_lt_two) (.inr le_rfl)
    rw [e, Fmt.mag, hs, Nat.add_sub_cancel_left]
    push_cast
    rw [pow_succ, mul_assoc, ← zpow_one_add₀ two_ne_zero]
    congr 2
    ring

theorem mag_strictMono : StrictMono f.mag := by
  refine strictMono_nat_of_lt_succ fun b => ?_
  obtain ⟨hk, h⟩ := coefficient_bounds (f := f) b
  have hb : b + 1 = f.steps b * 2 ^ f.m + (b - f.steps b * 2 ^ f.m + 1) := by have := steps_mul_le (f := f) b; omega
  have hmag := mag_encode (f := f) (Nat.succ_le_of_lt hk) (h.imp_right fun h => h.trans (Nat.le_succ _))
  rw [hb, hmag, Fmt.mag]
  push_cast
  gcongr
  exact lt_add_one _

theorem mag_nonneg (b : Nat) : 0 ≤ f.mag b := mag_zero (f := f) ▸ mag_strictMono.monotone (Nat.zero_le b)

/-! ## Decoded values -/

/-- −1 or 1. -/
def signOf (neg : Bool) : ℚ := if neg then -1 else 1

theorem abs_signOf (neg : Bool) : |signOf neg| = 1 := by cases neg <;> simp [signOf]

theorem exactValue_eq (neg : Bool) (n : Nat) (e : Int) : exactValue neg n e = signOf neg * ((n : ℚ) * 2 ^ e) := mul_assoc ..

theorem value_fin (neg : Bool) (n : Nat) (e : Int) : (FVal.fin neg n e).value = some (exactValue neg n e) := rfl
theorem value_zero (neg : Bool) : (FVal.zero neg).value = some 0 := rfl

/-- R139: a pattern up to the greatest finite one is a zero, a subnormal or a normal number, by its step count. -/
theorem decode_of_le {x : Nat} (hb : x % f.signBit ≤ f.top) :
    f.decode x = if x % f.signBit = 0 then .zero (decide (f.signBit ≤ x)) else .fin (decide (f.signBit ≤ x))
      (x % f.signBit - f.steps (x % f.signBit) * 2 ^ f.m) ((f.steps (x % f.signBit) : ℤ) + f.emin - f.m) := by
  refine (if_pos hb).trans ?_
  generalize x % f.signBit = b
  have hd := Nat.div_add_mod b (2 ^ f.m)
  change (if b / 2 ^ f.m = 0 then (if b % 2 ^ f.m = 0 then _ else _) else _) = _
  rw [Fmt.steps]
  cases hq : b / 2 ^ f.m with
  | zero =>
    rw [hq, mul_zero, zero_add] at hd
    simp [hd]
  | succ q =>
    have hpos := Nat.two_pow_pos f.m
    rw [hq, mul_comm, Nat.succ_mul] at hd
    have hk : b - q * 2 ^ f.m = 2 ^ f.m + b % 2 ^ f.m := by omega
    have he : ((q + 1 : Nat) : ℤ) - f.bias - f.m = q + f.emin - f.m := by rw [Fmt.emin]; push_cast; ring
    rw [if_neg (Nat.succ_ne_zero q), if_neg (by omega : b ≠ 0), he, Nat.add_sub_cancel, hk]

theorem decode_value_of_lt {x : Nat} (hb : f.top < x % f.signBit) : (f.decode x).value = none := by
  have h : f.decode x = if f.infs && x % f.signBit == f.top + 1 then .inf (decide (f.signBit ≤ x)) else .nan := if_neg (not_le.2 hb)
  rw [h]
  split <;> rfl

theorem decode_value {x : Nat} (hb : x % f.signBit ≤ f.top) :
    (f.decode x).value = some (signOf (decide (f.signBit ≤ x)) * f.mag (x % f.signBit)) := by
  rw [decode_of_le hb]
  split
  next h => rw [h, mag_zero, mul_zero, value_zero]
  next => rw [value_fin, exactValue_eq, Fmt.mag]

theorem le_top_of_value {x : Nat} {v : ℚ} (h : (f.decode x).value = some v) : x % f.signBit ≤ f.top := by
  by_contra hb
  rw [decode_value_of_lt (not_le.1 hb)] at h
  cases h

/-- The finite numbers of a format are its magnitudes up to the greatest, of either sign. -/
theorem exists_mag_of_value {x : Nat} {v : ℚ} (h : (f.decode x).value = some v) :
    ∃ b ≤ f.top, v = signOf (decide (f.signBit ≤ x)) * f.mag b := by
  have hb := le_top_of_value h
  exact ⟨_, hb, Option.some.inj (h.symm.trans (decode_value hb))⟩

theorem abs_of_value {x : Nat} {v : ℚ} (h : (f.decode x).value = some v) : ∃ b ≤ f.top, |v| = f.mag b := by
  obtain ⟨b, hb, rfl⟩ := exists_mag_of_value h
  exact ⟨b, hb, by rw [abs_mul, abs_signOf, one_mul, abs_of_nonneg (mag_nonneg b)]⟩

/-- The number of a finite encoding has at most m + 1 bits, and its unit is at least that of the subnormals. -/
theorem decode_fin {x : Nat} {neg : Bool} {n : Nat} {e : Int} (h : f.decode x = .fin neg n e) :
    0 < n ∧ n < 2 ^ (f.m + 1) ∧ f.emin - f.m ≤ e := by
  have hb := le_top_of_value (x := x) (v := exactValue neg n e) (by rw [h, value_fin])
  obtain ⟨hlt, hle⟩ := coefficient_bounds (f := f) (x % f.signBit)
  rw [decode_of_le hb] at h
  split at h
  · cases h
  · cases h
    have hpos := Nat.two_pow_pos f.m
    refine ⟨?_, hlt, by omega⟩
    rcases hle with h0 | h0
    · rw [h0, zero_mul]; omega
    · omega

section
variable (hf : f.top < f.signBit) {b : Nat} (hb : b ≤ f.top)
include hf hb

theorem withSign_value (neg : Bool) : (f.decode (f.withSign neg b)).value = some (signOf neg * f.mag b) := by
  have hlt : b < f.signBit := hb.trans_lt hf
  have hmod : f.withSign neg b % f.signBit = b := by cases neg <;> simp [Fmt.withSign, Nat.mod_eq_of_lt hlt]
  have hneg : decide (f.signBit ≤ f.withSign neg b) = neg := by cases neg <;> simp [Fmt.withSign, hlt]
  rw [decode_value (by rwa [hmod]), hmod, hneg]

theorem signBit_le_withSign (neg : Bool) : f.signBit ≤ f.withSign neg b ↔ neg = true := by
  have hlt : b < f.signBit := hb.trans_lt hf
  cases neg <;> simp [Fmt.withSign, hlt]

end

theorem greatest_eq (hf : f.top < f.signBit) : f.greatest = f.mag f.top := by
  have h : (f.decode f.top).value = some (signOf false * f.mag f.top) := withSign_value hf le_rfl false
  rw [Fmt.greatest, h, Option.getD_some, signOf, if_neg Bool.false_ne_true, one_mul]

theorem abs_value_le_greatest (hf : f.top < f.signBit) {x : Nat} {v : ℚ} (h : (f.decode x).value = some v) : |v| ≤ f.greatest := by
  obtain ⟨b, hb, e⟩ := abs_of_value h
  rw [e, greatest_eq hf]
  exact mag_strictMono.monotone hb

theorem top_lt_signBit (h : f = fmtF32 ∨ f = fmtBf ∨ f = fmtE4 ∨ f = fmtE5) : f.top < f.signBit := by
  rcases h with rfl | rfl | rfl | rfl <;> decide

end
end Sys2Proof.Machine
end

section
/-! # O5: ROUND gives the exact value rounded once (05_formats, R150) -/

namespace Sys2Proof.Machine

/-! ## The rounding of a fraction to an integer -/

/-- The integer of a sign and a magnitude. -/
def signed (neg : Bool) (k : Nat) : ℤ := if neg then -(k : ℤ) else k

theorem cast_signed (neg : Bool) (k : Nat) : ((signed neg k : ℤ) : ℚ) = signOf neg * k := by cases neg <;> simp [signed, signOf]

theorem cast_signed_real (neg : Bool) (k : Nat) : ((signed neg k : ℤ) : ℝ) = (signOf neg : ℝ) * k := by
  exact_mod_cast congrArg ((↑) : ℚ → ℝ) (cast_signed neg k)

/-- R150 of F + s / D, in whole numbers. -/
def FractionRounds (mode : RMode) (u : Nat) (F : ℤ) (s D : Nat) (k : ℤ) : Prop :=
  match mode with
  | .rne => (2 * s < D → k = F) ∧ (D < 2 * s → k = F + 1) ∧ (2 * s = D → (k = F ∨ k = F + 1) ∧ k % 2 = 0)
  | .rtz => (0 ≤ F → k = F) ∧ (F < 0 → k = F + 1)
  | .rup => k = F + 1
  | .rdn => k = F
  | .sr => (u < s * 2 ^ 16 / D → k = F + 1) ∧ (s * 2 ^ 16 / D ≤ u → k = F)

section
variable {mode : RMode} {u : Nat} {F k : ℤ} {s D : Nat}

theorem floor_add_div (hs : s < D) : ⌊(F : ℝ) + s / D⌋ = F ∧ Int.fract ((F : ℝ) + s / D) = s / D := by
  have hD : (0 : ℝ) < D := by exact_mod_cast (Nat.zero_le s).trans_lt hs
  have h : Int.fract ((s : ℝ) / D) = s / D := Int.fract_eq_self.2 ⟨by positivity, (div_lt_one hD).2 (by exact_mod_cast hs)⟩
  rw [Int.floor_intCast_add, Int.fract_intCast_add, h, Int.floor_eq_zero_iff.2 (Int.fract_eq_self.1 h), add_zero]
  exact ⟨rfl, rfl⟩

theorem roundsTo_intCast : RoundsTo mode u (F : ℝ) k ↔ k = F := by
  simp [RoundsTo]

theorem roundsTo_add_div (h0 : 0 < s) (hs : s < D) (h : FractionRounds mode u F s D k) : RoundsTo mode u ((F : ℝ) + s / D) k := by
  obtain ⟨hfloor, hfract⟩ := floor_add_div (F := F) hs
  have hD : (0 : ℝ) < D := by exact_mod_cast h0.trans hs
  have hs0 : (0 : ℝ) < s := by exact_mod_cast h0
  have hpos : (0 : ℝ) < s / D := div_pos hs0 hD
  unfold RoundsTo
  rw [hfloor, hfract]
  refine ⟨fun h => absurd h hpos.ne', fun _ => ?_⟩
  cases mode with
  | rne =>
    obtain ⟨hlt, hgt, heq⟩ := h
    refine ⟨fun h => hlt ?_, fun h => hgt ?_, fun h => heq ?_⟩
    · rw [div_lt_div_iff₀ hD two_pos] at h
      exact_mod_cast (by linarith : (2 * s : ℝ) < D)
    · rw [div_lt_div_iff₀ two_pos hD] at h
      exact_mod_cast (by linarith : (D : ℝ) < 2 * s)
    · rw [div_eq_div_iff hD.ne' two_ne_zero] at h
      exact_mod_cast (by linarith : (2 * s : ℝ) = D)
  | rtz =>
    have hfloor_nonneg : 0 ≤ F ↔ 0 ≤ (F : ℝ) + s / D := (iff_of_eq (congrArg (0 ≤ ·) hfloor.symm)).trans Int.floor_nonneg
    exact ⟨fun hy => h.1 (hfloor_nonneg.2 hy.le), fun hy => h.2 (not_le.1 fun hF => not_le.2 hy (hfloor_nonneg.1 hF))⟩
  | rup => exact h
  | rdn => exact h
  | sr =>
    have hfloor16 : ⌊(s : ℝ) / D * 2 ^ 16⌋ = ((s * 2 ^ 16 / D : Nat) : ℤ) := by
      rw [← Nat.floor_div_eq_div (K := ℝ), Int.natCast_floor_eq_floor (by positivity)]
      congr 1
      push_cast
      ring
    show ((u : ℤ) < ⌊(s : ℝ) / D * 2 ^ 16⌋ → _) ∧ (⌊(s : ℝ) / D * 2 ^ 16⌋ ≤ (u : ℤ) → _)
    rw [hfloor16]
    exact ⟨fun hu => h.1 (by exact_mod_cast hu), fun hu => h.2 (by exact_mod_cast hu)⟩

end

/-- Whether `roundK` takes the magnitude after the cut one. -/
def roundsUp (mode : RMode) (neg : Bool) (K r D u : Nat) : Bool :=
  match mode with
  | .rne => decide (D < 2 * r) || (2 * r == D && K % 2 == 1)
  | .rtz => false
  | .rup => !neg
  | .rdn => neg
  | .sr => if neg then !decide (u < (D - r) * 2 ^ 16 / D) else decide (u < r * 2 ^ 16 / D)

section
variable {mode : RMode} {neg : Bool} {N D u : Nat}

theorem roundK_of_dvd (h : N % D = 0) : roundK mode neg N D u = (N / D, false) := if_pos h

theorem roundK_of_not_dvd (h : N % D ≠ 0) :
    roundK mode neg N D u = (if roundsUp mode neg (N / D) (N % D) D u then N / D + 1 else N / D, true) := if_neg h

theorem le_roundK : N / D ≤ (roundK mode neg N D u).1 ∧ (roundK mode neg N D u).1 ≤ N / D + 1 := by
  by_cases h : N % D = 0
  · rw [roundK_of_dvd h]
    exact ⟨le_rfl, Nat.le_succ _⟩
  · rw [roundK_of_not_dvd h]
    split <;> simp

/-- The cut magnitude and its successor are the two integers beside a positive fraction; of a negative one they are the two in the other order. -/
theorem fractionRounds_pos {K r : Nat} : FractionRounds mode u K r D (signed false (if roundsUp mode false K r D u then K + 1 else K)) := by
  cases mode <;> simp [FractionRounds, roundsUp, signed]
  all_goals grind

theorem fractionRounds_neg {K r : Nat} (hr : r < D) :
    FractionRounds mode u (-(K : ℤ) - 1) (D - r) D (signed true (if roundsUp mode true K r D u then K + 1 else K)) := by
  cases mode <;> simp [FractionRounds, roundsUp, signed] <;> grind

/-- R150: `roundK` rounds ± N / D, and tells whether it is an integer. -/
theorem roundsTo_roundK (hD : 0 < D) {y : ℝ} (hy : y = (signOf neg : ℝ) * ((N : ℝ) / D)) :
    RoundsTo mode u y (signed neg (roundK mode neg N D u).1) ∧ ((roundK mode neg N D u).2 = true ↔ Int.fract y ≠ 0) := by
  have hD' : (D : ℝ) ≠ 0 := by exact_mod_cast hD.ne'
  have hmod : (N : ℝ) / D = (N / D : Nat) + (N % D : Nat) / (D : ℝ) := by
    rw [div_eq_iff hD', add_mul, div_mul_cancel₀ _ hD']
    exact_mod_cast (Nat.div_add_mod' N D).symm
  have hr := Nat.mod_lt N hD
  by_cases h : N % D = 0
  · have hint : y = ((signed neg (N / D) : ℤ) : ℝ) := by rw [hy, hmod, h, cast_signed_real]; simp
    rw [roundK_of_dvd h, hint, roundsTo_intCast]
    simp
  · rw [roundK_of_not_dvd h]
    cases neg with
    | false =>
      have e : y = ((N / D : Nat) : ℤ) + (N % D : Nat) / (D : ℝ) := by rw [hy, hmod, signOf, if_neg Bool.false_ne_true, Rat.cast_one, one_mul, Int.cast_natCast]
      have hfract := (floor_add_div (F := (N / D : Nat)) hr).2
      rw [← e] at hfract
      refine ⟨e ▸ roundsTo_add_div (by omega) hr fractionRounds_pos, iff_of_true rfl ?_⟩
      rw [hfract]
      exact div_ne_zero (by exact_mod_cast h) hD'
    | true =>
      have hs : D - N % D < D := by omega
      have e : y = ((-((N / D : Nat) : ℤ) - 1 : ℤ) : ℝ) + (D - N % D : Nat) / (D : ℝ) := by
        rw [hy, hmod, Nat.cast_sub hr.le, sub_div, div_self hD', signOf, if_pos rfl, Int.cast_sub, Int.cast_neg, Int.cast_natCast]
        push_cast
        ring
      have hfract := (floor_add_div (F := -((N / D : Nat) : ℤ) - 1) hs).2
      rw [← e] at hfract
      refine ⟨e ▸ roundsTo_add_div (by omega) hs (fractionRounds_neg hr), iff_of_true rfl ?_⟩
      rw [hfract]
      exact div_ne_zero (by exact_mod_cast (by omega : D - N % D ≠ 0)) hD'

end

/-! ## Powers of two and logarithms -/

theorem scaleDen_pos {d : Nat} (hd : 0 < d) (e : ℤ) : 0 < scaleDen d e := by
  cases e with
  | ofNat k => exact hd
  | negSucc k => exact Nat.mul_pos hd (Nat.two_pow_pos _)

theorem scaleNum_div_scaleDen (n d : Nat) (e : ℤ) : (scaleNum n e : ℝ) / scaleDen d e = (n : ℝ) / d * (2 : ℝ) ^ e := by
  cases e with
  | ofNat k =>
    simp only [scaleNum, scaleDen, Int.ofNat_eq_natCast, zpow_natCast]
    push_cast
    ring
  | negSucc k =>
    simp only [scaleNum, scaleDen, zpow_negSucc]
    push_cast
    rw [div_mul_eq_div_div, div_eq_mul_inv _ ((2 : ℝ) ^ (k + 1))]

theorem log_eq_of_bounds {x : ℝ} {L : ℤ} (h : (2 : ℝ) ^ L ≤ x) (h' : x < (2 : ℝ) ^ (L + 1)) : Int.log 2 x = L := by
  have hx : 0 < x := (zpow_pos two_pos L).trans_le h
  have h1 : L ≤ Int.log 2 x := (Int.zpow_le_iff_le_log one_lt_two hx).1 (by exact_mod_cast h)
  have h2 : Int.log 2 x < L + 1 := (Int.lt_zpow_iff_log_lt one_lt_two hx).1 (by exact_mod_cast h')
  omega

theorem log_bounds {x : ℝ} (hx : 0 < x) : (2 : ℝ) ^ Int.log 2 x ≤ x ∧ x < (2 : ℝ) ^ (Int.log 2 x + 1) :=
  ⟨by exact_mod_cast Int.zpow_log_le_self one_lt_two hx, by exact_mod_cast Int.lt_zpow_succ_log_self one_lt_two x⟩

theorem log_mul_zpow {x : ℝ} (hx : 0 < x) (e : ℤ) : Int.log 2 (x * (2 : ℝ) ^ e) = Int.log 2 x + e := by
  obtain ⟨h, h'⟩ := log_bounds hx
  apply log_eq_of_bounds
  · rw [zpow_add₀ two_ne_zero]; gcongr
  · rw [add_right_comm, zpow_add₀ two_ne_zero]; gcongr

theorem log2_bounds {n : Nat} (hn : 0 < n) : (2 : ℝ) ^ (n.log2 : ℤ) ≤ n ∧ (n : ℝ) < (2 : ℝ) ^ ((n.log2 : ℤ) + 1) := by
  have h := Nat.log2_self_le hn.ne'
  have h' := Nat.lt_log2_self (n := n)
  exact ⟨by exact_mod_cast h, by exact_mod_cast h'⟩

theorem log_div_eq_log2Frac {n d : Nat} (hn : 0 < n) (hd : 0 < d) : Int.log 2 ((n : ℝ) / d) = log2Frac n d := by
  obtain ⟨hn1, hn2⟩ := log2_bounds hn
  obtain ⟨hd1, hd2⟩ := log2_bounds hd
  have hd0 : (0 : ℝ) < d := by exact_mod_cast hd
  have hupper : (n : ℝ) / d < (2 : ℝ) ^ ((n.log2 : ℤ) - d.log2 + 1) := by
    rw [div_lt_iff₀ hd0]
    calc (n : ℝ) < (2 : ℝ) ^ ((n.log2 : ℤ) - d.log2 + 1) * (2 : ℝ) ^ (d.log2 : ℤ) := by
          rw [← zpow_add₀ two_ne_zero]; convert hn2 using 2; ring
      _ ≤ _ := by gcongr
  have hlower : (2 : ℝ) ^ ((n.log2 : ℤ) - d.log2 - 1) ≤ (n : ℝ) / d := by
    rw [le_div_iff₀ hd0]
    calc (2 : ℝ) ^ ((n.log2 : ℤ) - d.log2 - 1) * d ≤ (2 : ℝ) ^ ((n.log2 : ℤ) - d.log2 - 1) * (2 : ℝ) ^ ((d.log2 : ℤ) + 1) := by gcongr
      _ = (2 : ℝ) ^ (n.log2 : ℤ) := by rw [← zpow_add₀ two_ne_zero]; congr 1; ring
      _ ≤ n := hn1
  have htest (k : ℤ) : scaleDen d (-k) ≤ scaleNum n (-k) ↔ (2 : ℝ) ^ k ≤ (n : ℝ) / d := by
    have hpos : (0 : ℝ) < scaleDen d (-k) := by exact_mod_cast scaleDen_pos hd (-k)
    have h := scaleNum_div_scaleDen n d (-k)
    rw [zpow_neg, ← div_eq_mul_inv] at h
    rw [← Nat.cast_le (α := ℝ), ← one_le_div hpos, h, one_le_div (zpow_pos two_pos k)]
  unfold log2Frac
  dsimp only
  split
  next h => exact log_eq_of_bounds ((htest _).1 h) hupper
  next h => exact log_eq_of_bounds hlower (by rw [sub_add_cancel]; exact not_le.1 fun hle => h ((htest _).2 hle))

/-! ## The unit of a rounding -/

/-- The exponent at which `x` is rounded, and the unit of its multiples. -/
noncomputable def Fmt.expo (f : Fmt) (x : ℝ) : ℤ := max (Int.log 2 |x|) f.emin
noncomputable def Fmt.unit (f : Fmt) (x : ℝ) : ℝ := (2 : ℝ) ^ (f.expo x - (f.m : ℤ))

section
variable {f : Fmt} {x : ℝ}

theorem unit_pos : 0 < f.unit x := zpow_pos two_pos _

theorem abs_div_unit_lt (hx : x ≠ 0) : |x| / f.unit x < (2 : ℝ) ^ (f.m + 1) := by
  rw [div_lt_iff₀ unit_pos, Fmt.unit, ← zpow_natCast, ← zpow_add₀ two_ne_zero]
  refine (log_bounds (abs_pos.2 hx)).2.trans_le (zpow_le_zpow_right₀ one_le_two ?_)
  have : Int.log 2 |x| ≤ f.expo x := le_max_left ..
  push_cast
  linarith

theorem le_abs_div_unit (hx : x ≠ 0) : f.expo x = f.emin ∨ (2 : ℝ) ^ f.m ≤ |x| / f.unit x := by
  refine (max_choice (Int.log 2 |x|) f.emin).symm.imp_right fun h => ?_
  rw [le_div_iff₀ unit_pos, Fmt.unit, ← zpow_natCast, ← zpow_add₀ two_ne_zero, Fmt.expo, h, add_sub_cancel]
  exact (log_bounds (abs_pos.2 hx)).1

theorem emin_le_expo : f.emin ≤ f.expo x := le_max_right ..

/-- A coefficient that fits, times the unit, has its encoding at the exponent. -/
theorem mag_encode_expo {k : Nat} (hk : k ≤ 2 ^ (f.m + 1)) (h : f.expo x = f.emin ∨ 2 ^ f.m ≤ k) :
    ((f.mag ((f.expo x - f.emin).toNat * 2 ^ f.m + k) : ℚ) : ℝ) = k * f.unit x := by
  have hj : ((f.expo x - f.emin).toNat : ℤ) = f.expo x - f.emin := Int.toNat_of_nonneg (by have := emin_le_expo (f := f) (x := x); omega)
  rw [mag_encode hk (h.imp_left fun h => by rw [h, sub_self, Int.toNat_zero]), hj, sub_add_cancel, Fmt.unit]
  push_cast
  rfl

theorem mag_full : f.mag (2 ^ f.m) = (2 : ℚ) ^ f.emin := by
  have h := mag_encode (f := f) (j := 0) (k := 2 ^ f.m) (Nat.pow_le_pow_right two_pos (Nat.le_succ _)) (.inl rfl)
  rw [zero_mul, zero_add] at h
  rw [h]
  push_cast
  rw [zero_add, ← zpow_natCast, ← zpow_add₀ two_ne_zero, add_sub_cancel]

end

/-! ## ROUND -/

/-- The encoding and the flags of a rounded magnitude. -/
def Fmt.encode (f : Fmt) (mode : RMode) (nsat neg inexact : Bool) (b : Nat) : Nat × Flags :=
  if f.top < b then (ovf f mode nsat neg, flagOverflow ||| flagInexact)
  else (f.withSign neg b, flagIf inexact flagInexact ||| flagIf (inexact && decide (b < 2 ^ f.m)) flagUnderflow)

section
variable {f : Fmt} {mode : RMode} {nsat neg : Bool} {u : Nat} {x : ℝ}

theorem rounds_encode (hf : f.top < f.signBit) {k : Nat} {inexact : Bool} (hr : RoundsTo mode u (x / f.unit x) (signed neg k))
    (hneg : neg = true ↔ x < 0) (hi : inexact = true ↔ Int.fract (x / f.unit x) ≠ 0) (hk : k ≤ 2 ^ (f.m + 1))
    (hfull : f.expo x = f.emin ∨ 2 ^ f.m ≤ k) :
    Rounds f mode nsat u x (f.encode mode nsat neg inexact ((f.expo x - f.emin).toNat * 2 ^ f.m + k)) := by
  have hmag := mag_encode_expo hk hfull
  generalize (f.expo x - f.emin).toNat * 2 ^ f.m + k = b at hmag ⊢
  have hkq : ((signed neg k : ℤ) : ℝ) * f.unit x = (signOf neg * f.mag b : ℚ) := by
    rw [cast_signed_real, mul_assoc, ← hmag]; push_cast; rfl
  have habs : |((signed neg k : ℤ) : ℝ) * f.unit x| = (f.mag b : ℝ) := by
    rw [hkq, ← Rat.cast_abs, abs_mul, abs_signOf, one_mul, abs_of_nonneg (mag_nonneg b)]
  have htop : ((f.greatest : ℚ) : ℝ) < |((signed neg k : ℤ) : ℝ) * f.unit x| ↔ f.top < b := by
    rw [habs, greatest_eq hf, Rat.cast_lt, mag_strictMono.lt_iff_lt]
  have htiny : |((signed neg k : ℤ) : ℝ) * f.unit x| < (2 : ℝ) ^ f.emin ↔ b < 2 ^ f.m := by
    rw [habs, ← mag_strictMono.lt_iff_lt (f := f.mag), mag_full, ← Rat.cast_lt (K := ℝ)]
    push_cast
    rfl
  refine ⟨signed neg k, neg, hr, hneg, fun h => if_pos (htop.1 h), fun h => ?_⟩
  have hb : b ≤ f.top := not_lt.1 fun hlt => not_lt.2 h (htop.2 hlt)
  rw [Fmt.encode, if_neg (not_lt.2 hb)]
  refine ⟨⟨_, withSign_value hf hb neg, hkq.symm⟩, signBit_le_withSign hf hb neg, fun h0 => ?_, fun h0 hn => ?_, fun h0 hn => ?_⟩
  · have : inexact = false := by rw [← Bool.not_eq_true, hi, not_not]; exact h0
    rw [this]; exact BitVec.or_zero
  · have : ¬ b < 2 ^ f.m := fun hlt => not_lt.2 hn (htiny.2 hlt)
    rw [hi.2 h0, decide_eq_false this]; rfl
  · rw [hi.2 h0, decide_eq_true (htiny.1 hn)]; rfl

/-- R150: ROUND of an exact nonzero quotient. -/
theorem rounds_round (hf : f.top < f.signBit) (neg nsat : Bool) {n d : Nat} (e : ℤ) (u : Nat) (hn : 0 < n) (hd : 0 < d) :
    Rounds f mode nsat u ((exactValue neg n e : ℚ) / d) (round f mode nsat neg n d e u) := by
  have hn' : (0 : ℝ) < n := by exact_mod_cast hn
  have hd' : (0 : ℝ) < d := by exact_mod_cast hd
  have hx : ((exactValue neg n e : ℚ) : ℝ) / d = (signOf neg : ℝ) * ((n : ℝ) / d * (2 : ℝ) ^ e) := by
    rw [exactValue_eq]; push_cast; ring
  have hpos : 0 < (n : ℝ) / d * (2 : ℝ) ^ e := mul_pos (div_pos hn' hd') (zpow_pos two_pos e)
  generalize ((exactValue neg n e : ℚ) : ℝ) / d = x at hx
  have hsign : |(signOf neg : ℝ)| = 1 := by rw [← Rat.cast_abs, abs_signOf, Rat.cast_one]
  have habs : |x| = (n : ℝ) / d * (2 : ℝ) ^ e := by rw [hx, abs_mul, hsign, one_mul, abs_of_pos hpos]
  have hx0 : x ≠ 0 := abs_pos.1 (habs ▸ hpos)
  have hneg : neg = true ↔ x < 0 := by rw [hx]; cases neg <;> simp [signOf, hpos, hpos.le]
  have hexpo : max (log2Frac n d + e) f.emin = f.expo x := by
    rw [Fmt.expo, habs, log_mul_zpow (div_pos hn' hd'), log_div_eq_log2Frac hn hd]
  obtain ⟨q, hq⟩ : ∃ q, q = e - (f.expo x - f.m) := ⟨_, rfl⟩
  have hscale : (scaleNum n q : ℝ) / scaleDen d q = |x| / f.unit x := by
    rw [scaleNum_div_scaleDen, habs, Fmt.unit, hq, zpow_sub₀ two_ne_zero e, mul_div_assoc]
  have hD : 0 < scaleDen d q := scaleDen_pos hd q
  have hD' : (0 : ℝ) < scaleDen d q := by exact_mod_cast hD
  have hy : x / f.unit x = (signOf neg : ℝ) * ((scaleNum n q : ℝ) / scaleDen d q) := by
    rw [hscale, habs, ← mul_div_assoc, ← hx]
  obtain ⟨hr, hi⟩ := roundsTo_roundK (mode := mode) (u := u) hD hy
  obtain ⟨hle, hge⟩ := le_roundK (mode := mode) (neg := neg) (N := scaleNum n q) (D := scaleDen d q) (u := u)
  have hlt : scaleNum n q / scaleDen d q < 2 ^ (f.m + 1) := by
    have h := abs_div_unit_lt (f := f) hx0
    rw [← hscale, div_lt_iff₀ hD'] at h
    rw [Nat.div_lt_iff_lt_mul hD]
    exact_mod_cast h
  have hfull : f.expo x = f.emin ∨ 2 ^ f.m ≤ scaleNum n q / scaleDen d q := by
    refine (le_abs_div_unit hx0).imp_right fun h => ?_
    rw [← hscale, le_div_iff₀ hD'] at h
    rw [Nat.le_div_iff_mul_le hD]
    exact_mod_cast h
  have hround : round f mode nsat neg n d e u = f.encode mode nsat neg (roundK mode neg (scaleNum n q) (scaleDen d q) u).2
      ((f.expo x - f.emin).toNat * 2 ^ f.m + (roundK mode neg (scaleNum n q) (scaleDen d q) u).1) := by
    rw [round, hexpo, ← hq]; rfl
  rw [hround]
  exact rounds_encode hf hr hneg hi (hge.trans hlt) (hfull.imp_right fun h => h.trans hle)

end
end Sys2Proof.Machine
end

section
/-! # O5: what a rounding gives: the nearest number, an exact one, and one result for a whole interval (05_formats, R150) -/

namespace Sys2Proof.Machine

/-! ## Nearest even -/

/-- Round to nearest even leaves the distance to the nearer of the two integers beside `y`. -/
theorem RoundsTo.abs_sub {u : Nat} {y : ℝ} {k : ℤ} (h : RoundsTo .rne u y k) : |y - k| = min (Int.fract y) (1 - Int.fract y) := by
  obtain ⟨hint, hfrac⟩ := h
  have h0 := Int.fract_nonneg y
  have h1 := Int.fract_lt_one y
  have hdown (hk : k = ⌊y⌋) (hle : Int.fract y ≤ 1 - Int.fract y) : |y - k| = min (Int.fract y) (1 - Int.fract y) := by
    rw [hk, Int.self_sub_floor, abs_of_nonneg h0, min_eq_left hle]
  have hup (hk : k = ⌊y⌋ + 1) (hle : 1 - Int.fract y ≤ Int.fract y) : |y - k| = min (Int.fract y) (1 - Int.fract y) := by
    rw [hk, Int.cast_add, Int.cast_one, ← sub_sub, Int.self_sub_floor, abs_sub_comm, abs_of_pos (sub_pos.2 h1), min_eq_right hle]
  by_cases hz : Int.fract y = 0
  · exact hdown (hint hz) (by linarith)
  obtain ⟨hlt, hgt, heq⟩ := hfrac hz
  rcases lt_trichotomy (Int.fract y) (1 / 2) with h | h | h
  · exact hdown (hlt h) (by linarith)
  · exact (heq h).1.elim (fun hk => hdown hk (by linarith)) fun hk => hup hk (by linarith)
  · exact hup (hgt h) (by linarith)

theorem RoundsTo.nearest {u : Nat} {y : ℝ} {k : ℤ} (h : RoundsTo .rne u y k) (j : ℤ) : |y - k| ≤ |y - j| :=
  h.abs_sub.trans_le (abs_sub_round_eq_min y ▸ round_le y j)

section
variable {f : Fmt} {mode : RMode} {nsat : Bool} {u : Nat} {x : ℝ} {r : Nat × Flags}

/-- The two multiples of the unit beside a magnitude are successive numbers of the format. -/
theorem exists_mag_beside (hx : x ≠ 0) : ∃ B K : Nat, (f.mag B : ℝ) = K * f.unit x ∧ (f.mag (B + 1) : ℝ) = (K + 1 : Nat) * f.unit x
    ∧ (K : ℝ) ≤ |x| / f.unit x ∧ |x| / f.unit x < (K + 1 : Nat) := by
  have hpos : 0 ≤ |x| / f.unit x := div_nonneg (abs_nonneg x) unit_pos.le
  have hlt : ⌊|x| / f.unit x⌋₊ < 2 ^ (f.m + 1) := (Nat.floor_lt hpos).2 (by exact_mod_cast abs_div_unit_lt hx)
  have hfull : f.expo x = f.emin ∨ 2 ^ f.m ≤ ⌊|x| / f.unit x⌋₊ := (le_abs_div_unit hx).imp_right fun h => Nat.le_floor (by exact_mod_cast h)
  exact ⟨_, _, mag_encode_expo hlt.le hfull, mag_encode_expo (k := ⌊|x| / f.unit x⌋₊ + 1) hlt (hfull.imp_right fun h => h.trans (Nat.le_succ _)),
    Nat.floor_le hpos, by exact_mod_cast Nat.lt_floor_add_one (|x| / f.unit x)⟩

/-- The numbers of a format keep away from `x` at least as far as one of the multiples of the unit. -/
theorem exists_multiple_nearer (hx : x ≠ 0) {z : Nat} {w : ℚ} (hw : (f.decode z).value = some w) :
    ∃ j : ℤ, |x - j * f.unit x| ≤ |x - w| := by
  obtain ⟨b, hb, habs⟩ := abs_of_value hw
  obtain ⟨B, K, hB, hB1, hle, hlt⟩ := exists_mag_beside (f := f) hx
  have hq := unit_pos (f := f) (x := x)
  rw [le_div_iff₀ hq] at hle
  rw [div_lt_iff₀ hq] at hlt
  have hmult (n : Nat) : ∃ j : ℤ, |x - j * f.unit x| = abs (|x| - n * f.unit x) := by
    rcases abs_cases x with ⟨h, -⟩ | ⟨h, -⟩
    · exact ⟨n, by rw [h, Int.cast_natCast]⟩
    · exact ⟨-n, by rw [h, ← abs_neg]; push_cast; congr 1; ring⟩
  have hdist : abs (|x| - (f.mag b : ℝ)) ≤ |x - w| := by
    rw [← habs, Rat.cast_abs]
    exact abs_abs_sub_abs_le_abs_sub x w
  rcases Nat.le_or_ge b B with h | h
  case inl =>
    obtain ⟨j, hj⟩ := hmult K
    have hm : (f.mag b : ℝ) ≤ K * f.unit x := hB ▸ by exact_mod_cast mag_strictMono.monotone h
    refine ⟨j, hj.le.trans (le_trans ?_ hdist)⟩
    rw [abs_of_nonneg (sub_nonneg.2 hle), abs_of_nonneg (sub_nonneg.2 (hm.trans hle))]
    linarith
  case inr =>
    rcases h.eq_or_lt with rfl | h
    · obtain ⟨j, hj⟩ := hmult K
      exact ⟨j, hj.le.trans (hB ▸ hdist)⟩
    obtain ⟨j, hj⟩ := hmult (K + 1)
    have hm : (K + 1 : Nat) * f.unit x ≤ f.mag b := hB1 ▸ by exact_mod_cast mag_strictMono.monotone h
    refine ⟨j, hj.le.trans (le_trans ?_ hdist)⟩
    rw [abs_of_nonpos (sub_nonpos.2 hlt.le), abs_of_nonpos (sub_nonpos.2 (hlt.le.trans hm))]
    linarith

/-- The result of a rounding to `v`: the encoding, or the overflow's, and the flags. -/
def Fmt.Result (f : Fmt) (mode : RMode) (nsat neg : Bool) (v : ℝ) (exact : Prop) (r : Nat × Flags) : Prop :=
  ((f.greatest : ℝ) < |v| → r = (ovf f mode nsat neg, flagOverflow ||| flagInexact))
  ∧ (|v| ≤ (f.greatest : ℝ) →
      (∃ w : ℚ, (f.decode r.1).value = some w ∧ (w : ℝ) = v) ∧ (f.signBit ≤ r.1 ↔ neg = true)
      ∧ (exact → r.2 = 0)
      ∧ (¬ exact → (2 : ℝ) ^ f.emin ≤ |v| → r.2 = flagInexact)
      ∧ (¬ exact → |v| < (2 : ℝ) ^ f.emin → r.2 = (flagInexact ||| flagUnderflow)))

theorem rounds_iff : Rounds f mode nsat u x r ↔ ∃ (k : ℤ) (neg : Bool), RoundsTo mode u (x / f.unit x) k ∧ (neg = true ↔ x < 0)
    ∧ f.Result mode nsat neg (k * f.unit x) (Int.fract (x / f.unit x) = 0) r := Iff.rfl

theorem RoundsTo.eq_of_fract {k : ℤ} (h : RoundsTo mode u (x / f.unit x) k) (hz : Int.fract (x / f.unit x) = 0) : (k : ℝ) * f.unit x = x := by
  have hk : (k : ℝ) = x / f.unit x := by
    rw [h.1 hz]
    simpa [hz] using Int.floor_add_fract (x / f.unit x)
  rw [hk, div_mul_cancel₀ _ unit_pos.ne']

/-- A result that does not overflow: the multiple of the unit, and no flag exactly where that is the exact number. -/
theorem Rounds.finite (h : Rounds f mode nsat u x r) (ho : r.2 &&& flagOverflow = 0) :
    ∃ (v : ℚ) (k : ℤ), RoundsTo mode u (x / f.unit x) k ∧ (f.decode r.1).value = some v ∧ (v : ℝ) = k * f.unit x ∧ ((v : ℝ) = x ↔ r.2 = 0) := by
  obtain ⟨k, neg, hr, -, hover, hfin⟩ := rounds_iff.1 h
  rcases lt_or_ge (f.greatest : ℝ) |k * f.unit x| with hlt | hle
  · have he : r.2 = flagOverflow ||| flagInexact := congrArg Prod.snd (hover hlt)
    rw [he] at ho
    exact absurd ho (by decide)
  obtain ⟨⟨v, hv, hvk⟩, -, hexact, hnormal, hsubnormal⟩ := hfin hle
  refine ⟨v, k, hr, hv, hvk, ?_⟩
  by_cases hz : Int.fract (x / f.unit x) = 0
  · exact iff_of_true (hvk.trans (hr.eq_of_fract hz)) (hexact hz)
  · refine iff_of_false (fun e => hz ?_) ?_
    · have hx : x / f.unit x = k := (div_eq_iff unit_pos.ne').2 (e.symm.trans hvk)
      rw [hx, Int.fract_intCast]
    · rcases le_or_gt ((2 : ℝ) ^ f.emin) |k * f.unit x| with h | h
      · rw [hnormal hz h]; decide
      · rw [hsubnormal hz h]; decide

/-- R150: to nearest even no number of the format lies nearer, and an exact result raises no flag. -/
theorem Rounds.nearest (h : Rounds f .rne nsat u x r) (hx : x ≠ 0) (ho : r.2 &&& flagOverflow = 0) :
    ∃ v : ℚ, (f.decode r.1).value = some v ∧ (∀ (z : Nat) (w : ℚ), (f.decode z).value = some w → |(v : ℝ) - x| ≤ |(w : ℝ) - x|)
      ∧ ((v : ℝ) = x ↔ r.2 = 0) := by
  obtain ⟨v, k, hr, hv, hvk, hflag⟩ := h.finite ho
  refine ⟨v, hv, fun z w hw => ?_, hflag⟩
  obtain ⟨j, hj⟩ := exists_multiple_nearer hx hw
  have hq := unit_pos (f := f) (x := x)
  have hscale (i : ℤ) : |x - i * f.unit x| = |x / f.unit x - i| * f.unit x := by
    rw [← abs_of_pos hq, ← abs_mul, abs_of_pos hq, sub_mul, div_mul_cancel₀ _ hq.ne']
  rw [abs_sub_comm, abs_sub_comm (w : ℝ), hvk]
  refine le_trans ?_ hj
  rw [hscale, hscale]
  exact mul_le_mul_of_nonneg_right (hr.nearest j) hq.le

/-! ## Exact results -/

/-- A number with a coefficient of at most m + 1 bits is a multiple of its unit. -/
theorem fract_div_unit (hx : x ≠ 0) {c : Nat} {neg : Bool} {X : ℤ} (hc : c < 2 ^ (f.m + 1)) (hX : f.emin ≤ X)
    (h : x = (signOf neg : ℝ) * (c * (2 : ℝ) ^ (X - f.m))) : Int.fract (x / f.unit x) = 0 := by
  have habs : |x| = c * (2 : ℝ) ^ (X - f.m) := by
    have hsign : |(signOf neg : ℝ)| = 1 := by rw [← Rat.cast_abs, abs_signOf, Rat.cast_one]
    rw [h, abs_mul, hsign, one_mul, abs_of_nonneg (by positivity)]
  have hlog : Int.log 2 |x| < X + 1 := by
    have hc' : (c : ℝ) < (2 : ℝ) ^ (f.m + 1 : ℤ) := by exact_mod_cast hc
    refine (Int.lt_zpow_iff_log_lt one_lt_two (abs_pos.2 hx)).1 ?_
    calc |x| < (2 : ℝ) ^ (f.m + 1 : ℤ) * (2 : ℝ) ^ (X - f.m) := habs ▸ by gcongr
      _ = ((2 : ℕ) : ℝ) ^ (X + 1) := by rw [← zpow_add₀ two_ne_zero, Nat.cast_two]; congr 1; ring
  obtain ⟨d, hd⟩ := Int.eq_ofNat_of_zero_le (sub_nonneg.2 (max_le (Int.lt_add_one_iff.1 hlog) hX : f.expo x ≤ X))
  have hquot : (2 : ℝ) ^ (X - f.m) / f.unit x = (2 : ℝ) ^ d := by
    rw [Fmt.unit, ← zpow_sub₀ two_ne_zero, ← zpow_natCast, ← hd, Fmt.expo]; congr 1; ring
  have hint : x / f.unit x = ((signed neg (c * 2 ^ d) : ℤ) : ℝ) := by
    rw [cast_signed_real]
    push_cast
    rw [← hquot, ← mul_div_assoc, ← mul_div_assoc, ← h]
  rw [hint, Int.fract_intCast]

/-- ROUND of such a number up to the greatest one of the format gives it back. -/
theorem Rounds.exact (h : Rounds f mode nsat u x r) (hx : x ≠ 0) {c : Nat} {neg : Bool} {X : ℤ} (hc : c < 2 ^ (f.m + 1)) (hX : f.emin ≤ X)
    (hxc : x = (signOf neg : ℝ) * (c * (2 : ℝ) ^ (X - f.m))) (hle : |x| ≤ (f.greatest : ℝ)) :
    ∃ v : ℚ, (f.decode r.1).value = some v ∧ (v : ℝ) = x := by
  have hz := fract_div_unit hx hc hX hxc
  obtain ⟨k, neg, hr, -, -, hfin⟩ := rounds_iff.1 h
  have hk := hr.eq_of_fract hz
  obtain ⟨⟨v, hv, hvk⟩, -⟩ := hfin (by rwa [hk])
  exact ⟨v, hv, hvk.trans hk⟩

end

/-! ## One result for an interval -/

/-- Between two successive half integers every number rounds to one integer, and none is that integer. -/
theorem roundsTo_between {u : Nat} {y : ℝ} {h k : ℤ} (hl : (h : ℝ) / 2 < y) (hu : y < ((h : ℝ) + 1) / 2) :
    (RoundsTo .rne u y k ↔ k = (h + 1) / 2) ∧ Int.fract y ≠ 0 := by
  have hy := Int.floor_add_fract y
  rcases Int.even_or_odd' h with ⟨n, rfl | rfl⟩
  · push_cast at hl hu
    have hfloor : ⌊y⌋ = n := Int.floor_eq_iff.2 ⟨by linarith, by linarith⟩
    rw [hfloor] at hy
    have hk : (2 * n + 1) / 2 = n := by omega
    have h0 : Int.fract y ≠ 0 := fun h => by linarith
    refine ⟨?_, h0⟩
    rw [RoundsTo, hfloor, hk]
    refine ⟨fun h => (h.2 h0).1 (by linarith), fun h => ⟨fun hz => absurd hz h0, fun _ => ⟨fun _ => h, fun hz => by linarith, fun hz => by linarith⟩⟩⟩
  · push_cast at hl hu
    have hfloor : ⌊y⌋ = n := Int.floor_eq_iff.2 ⟨by linarith, by linarith⟩
    rw [hfloor] at hy
    have hk : (2 * n + 1 + 1) / 2 = n + 1 := by omega
    have h0 : Int.fract y ≠ 0 := fun h => by linarith
    refine ⟨?_, h0⟩
    rw [RoundsTo, hfloor, hk]
    refine ⟨fun h => (h.2 h0).2.1 (by linarith), fun h => ⟨fun hz => absurd hz h0, fun _ => ⟨fun hz => by linarith, fun _ => h, fun hz => by linarith⟩⟩⟩

section
variable {f : Fmt} {nsat : Bool} {u v : Nat} {e : ℤ} {x : ℝ}

/-- The numbers strictly between v and v + 1 units have one rounding unit, and lie between two half multiples of it. -/
theorem exists_half_units (f : Fmt) (e : ℤ) (hv : 2 ^ (f.m + 1) ≤ v) :
    ∃ (q : ℝ) (h : ℤ), ∀ x, (v : ℝ) * (2 : ℝ) ^ e < x → x < (v + 1) * (2 : ℝ) ^ e →
      0 < x ∧ f.unit x = q ∧ (h : ℝ) / 2 < x / q ∧ x / q < ((h : ℝ) + 1) / 2 := by
  have hv0 : 0 < v := (Nat.two_pow_pos _).trans_le hv
  have hlog : f.m + 1 ≤ v.log2 := (Nat.le_log2 hv0.ne').2 hv
  obtain ⟨j, hj⟩ := Int.eq_ofNat_of_zero_le (a := max ((v.log2 : ℤ) + e) f.emin - f.m - e - 1) (by omega)
  have hpos : (0 : ℝ) < 2 ^ e := zpow_pos two_pos e
  have hunit : (2 : ℝ) ^ (max ((v.log2 : ℤ) + e) f.emin - (f.m : ℤ)) = 2 ^ j * 2 * 2 ^ e := by
    rw [← pow_succ, ← zpow_natCast, ← zpow_add₀ two_ne_zero]; congr 1; push_cast; omega
  refine ⟨2 ^ j * 2 * 2 ^ e, (v / 2 ^ j : Nat), fun x hl hu => ?_⟩
  have hx : 0 < x := lt_of_le_of_lt (by positivity) hl
  have hlo : ((v / 2 ^ j : Nat) : ℝ) * 2 ^ j ≤ v := by exact_mod_cast Nat.div_mul_le_self v (2 ^ j)
  have hhi : (v : ℝ) + 1 ≤ (((v / 2 ^ j : Nat) : ℝ) + 1) * 2 ^ j := by exact_mod_cast Nat.lt_mul_of_div_lt (Nat.lt_succ_self (v / 2 ^ j)) (Nat.two_pow_pos j)
  have hlogx : Int.log 2 |x| = v.log2 + e := by
    obtain ⟨h1, h2⟩ := log2_bounds hv0
    have h2' : (v : ℝ) + 1 ≤ (2 : ℝ) ^ ((v.log2 : ℤ) + 1) := by exact_mod_cast Nat.lt_log2_self (n := v)
    rw [abs_of_pos hx]
    apply log_eq_of_bounds
    · rw [zpow_add₀ two_ne_zero]
      exact (mul_le_mul_of_nonneg_right h1 hpos.le).trans hl.le
    · rw [add_right_comm, zpow_add₀ two_ne_zero]
      exact hu.trans_le (mul_le_mul_of_nonneg_right h2' hpos.le)
  refine ⟨hx, by rw [Fmt.unit, Fmt.expo, hlogx, hunit], ?_, ?_⟩
  · rw [lt_div_iff₀ (by positivity)]
    calc (((v / 2 ^ j : Nat) : ℤ) : ℝ) / 2 * (2 ^ j * 2 * 2 ^ e) = ((v / 2 ^ j : Nat) : ℝ) * 2 ^ j * 2 ^ e := by rw [Int.cast_natCast]; ring
      _ ≤ v * 2 ^ e := by gcongr
      _ < x := hl
  · rw [div_lt_iff₀ (by positivity)]
    calc x < (v + 1) * 2 ^ e := hu
      _ ≤ (((v / 2 ^ j : Nat) : ℝ) + 1) * 2 ^ j * 2 ^ e := by gcongr
      _ = ((((v / 2 ^ j : Nat) : ℤ) : ℝ) + 1) / 2 * (2 ^ j * 2 * 2 ^ e) := by rw [Int.cast_natCast]; ring

/-- Numbers strictly between v and v + 1 units round to nearest even alike. -/
theorem Rounds.of_between (hv : 2 ^ (f.m + 1) ≤ v) {x' : ℝ} {r : Nat × Flags} (hl : (v : ℝ) * (2 : ℝ) ^ e < x) (hu : x < (v + 1) * (2 : ℝ) ^ e)
    (hl' : (v : ℝ) * (2 : ℝ) ^ e < x') (hu' : x' < (v + 1) * (2 : ℝ) ^ e) (h : Rounds f .rne nsat u x r) : Rounds f .rne nsat u x' r := by
  obtain ⟨q, i, hbetween⟩ := exists_half_units f e hv
  obtain ⟨hx, rfl, hlo, hhi⟩ := hbetween x hl hu
  obtain ⟨hx', hq', hlo', hhi'⟩ := hbetween x' hl' hu'
  obtain ⟨k, neg, hr, hneg, hres⟩ := rounds_iff.1 h
  obtain ⟨hiff, hz⟩ := roundsTo_between (u := u) (k := k) hlo hhi
  obtain ⟨hiff', hz'⟩ := roundsTo_between (u := u) (k := k) hlo' hhi'
  refine rounds_iff.2 ⟨k, neg, ?_, hneg.trans (iff_of_false hx.not_gt hx'.not_gt), ?_⟩
  · rw [hq']
    exact hiff'.2 (hiff.1 hr)
  · rw [hq', eq_false hz']
    exact eq_false hz ▸ hres

end
end Sys2Proof.Machine
end

section
/-! # O5: arithmetic, conversions and elementary functions of finite numbers (05_formats, R141, R154; 06_vector, R170) -/

namespace Sys2Proof.Machine

/-! ## Exact results of finite operands (R141) -/

theorem exactValue_zero (neg : Bool) (e : ℤ) : exactValue neg 0 e = 0 := by simp [exactValue]

theorem exactValue_neg (neg : Bool) (n : Nat) (e : ℤ) : exactValue (!neg) n e = -exactValue neg n e := by cases neg <;> simp [exactValue]

theorem exactValue_ne_zero (neg : Bool) {n : Nat} (hn : 0 < n) (e : ℤ) : exactValue neg n e ≠ 0 := by
  have : (n : ℚ) * 2 ^ e ≠ 0 := mul_ne_zero (by exact_mod_cast hn.ne') (zpow_ne_zero e two_ne_zero)
  cases neg <;> simpa [exactValue_eq, signOf] using this

theorem inv_signOf (a : Bool) : (signOf a)⁻¹ = signOf a := by cases a <;> norm_num [signOf]

theorem signOf_bne (a b : Bool) : signOf (a != b) = signOf a * signOf b := by cases a <;> cases b <;> simp [signOf]

/-- An integer of units is the sign and the magnitude that the model packs. -/
theorem exactValue_natAbs (s e : ℤ) : exactValue (decide (s < 0)) s.natAbs e = (s : ℚ) * 2 ^ e := by
  rw [exactValue_eq, ← mul_assoc, signOf]
  congr 1
  by_cases h : s < 0
  · rw [if_pos (decide_eq_true h), Nat.cast_natAbs, abs_of_neg h]; simp
  · rw [if_neg (by simpa using h), Nat.cast_natAbs, abs_of_nonneg (not_lt.1 h), one_mul]

theorem atExp_mul_zpow (neg : Bool) (n : Nat) {e l : ℤ} (h : l ≤ e) : (atExp neg n e l : ℚ) * 2 ^ l = exactValue neg n e := by
  have hz : (2 : ℚ) ^ e = 2 ^ (e - l).toNat * 2 ^ l := by
    rw [← zpow_natCast, Int.toNat_of_nonneg (sub_nonneg.2 h), ← zpow_add₀ two_ne_zero, sub_add_cancel]
  rw [exactValue, hz]
  cases neg <;> simp [atExp, mul_assoc]

section
variable {m : RMode} {X Y : FVal} {a b : ℚ}

theorem exactAdd_value (hX : X.value = some a) (hY : Y.value = some b) : (exactAdd m X Y).1.value = some (a + b) := by
  cases X with
  | nan => cases hX
  | inf => cases hX
  | zero s =>
    cases hX
    rw [zero_add]
    cases Y with
    | nan => cases hY
    | inf => cases hY
    | zero t => exact hY
    | fin t n e => exact hY
  | fin s n e =>
    cases hX
    cases Y with
    | nan => cases hY
    | inf => cases hY
    | zero t => cases hY; exact congrArg some (add_zero _).symm
    | fin t k g =>
      cases hY
      have hsum : ((atExp s n e (min e g) + atExp t k g (min e g) : ℤ) : ℚ) * 2 ^ min e g = exactValue s n e + exactValue t k g := by
        rw [Int.cast_add, add_mul, atExp_mul_zpow s n (min_le_left e g), atExp_mul_zpow t k (min_le_right e g)]
      rw [← hsum, exactAdd]
      split
      next h => rw [h]; simp [value_zero]
      next => rw [value_fin, exactValue_natAbs]

theorem exactMul_value (hX : X.value = some a) (hY : Y.value = some b) :
    (exactMul X Y).1.value = some (a * b) ∧ (exactMul X Y).2 = false := by
  cases X with
  | nan => cases hX
  | inf => cases hX
  | zero s =>
    cases hX
    rw [zero_mul]
    cases Y with
    | nan => cases hY
    | inf => cases hY
    | zero t => exact ⟨rfl, rfl⟩
    | fin t n e => exact ⟨rfl, rfl⟩
  | fin s n e =>
    cases hX
    cases Y with
    | nan => cases hY
    | inf => cases hY
    | zero t => cases hY; rw [mul_zero]; exact ⟨rfl, rfl⟩
    | fin t k g =>
      cases hY
      refine ⟨?_, rfl⟩
      rw [exactMul, value_fin, exactValue_eq, exactValue_eq, exactValue_eq, signOf_bne, zpow_add₀ two_ne_zero]
      push_cast
      congr 1
      ring

theorem negate_value (hX : X.value = some a) : X.negate.value = some (-a) := by
  cases X with
  | nan => cases hX
  | inf => cases hX
  | zero s => cases hX; rw [neg_zero]; rfl
  | fin s n e => cases hX; exact congrArg some (exactValue_neg s n e)

/-- A nonzero value is a sign, a positive number and a power of two. -/
theorem eq_fin_of_value (hX : X.value = some a) (ha : a ≠ 0) : ∃ (neg : Bool) (n : Nat) (e : ℤ), X = .fin neg n e ∧ 0 < n ∧ a = exactValue neg n e := by
  cases X with
  | nan => cases hX
  | inf => cases hX
  | zero s => cases hX; exact absurd rfl ha
  | fin s n e =>
    cases hX
    exact ⟨s, n, e, rfl, Nat.pos_of_ne_zero fun h => ha (h ▸ exactValue_zero s e), rfl⟩

/-- An encoding of 0 is a zero. -/
theorem eq_zero_of_value {f : Fmt} {x : Nat} (hx : (f.decode x).value = some 0) : ∃ neg, f.decode x = .zero neg := by
  cases hd : f.decode x with
  | nan => rw [hd] at hx; cases hx
  | inf => rw [hd] at hx; cases hx
  | zero s => exact ⟨s, rfl⟩
  | fin s n e =>
    rw [hd] at hx
    exact absurd (Option.some.inj hx) (exactValue_ne_zero s (decode_fin hd).1 e)

end

section
variable {f : Fmt} (hf : f.top < f.signBit) {mode : RMode} {x y z u : Nat} {nsat : Bool} {a b c : ℚ}
include hf

theorem rounds_round_one (neg nsat : Bool) {n : Nat} (e : ℤ) (u : Nat) (hn : 0 < n) :
    Rounds f mode nsat u (exactValue neg n e : ℚ) (round f mode nsat neg n 1 e u) := by
  have h := rounds_round (mode := mode) hf neg nsat e u hn one_pos
  rwa [Nat.cast_one, div_one] at h

theorem rounds_pack {p : FVal × Bool} (h : p.1.value = some a) (ha : a ≠ 0) : Rounds f mode nsat u (a : ℝ) (f.pack mode nsat u p) := by
  obtain ⟨neg, n, e, hp, hn, rfl⟩ := eq_fin_of_value h ha
  rw [Fmt.pack, hp]
  exact rounds_round_one hf neg nsat e u hn

theorem rounds_fpFma (hx : (f.decode x).value = some a) (hy : (f.decode y).value = some b) (hz : (f.decode z).value = some c)
    (h : a * b + c ≠ 0) : Rounds f (arithMode mode) false 0 ((a * b + c : ℚ) : ℝ) (fpFma f mode false x y z) := by
  obtain ⟨hvalue, hvalid⟩ := exactMul_value hx hy
  have e : fpFma f mode false x y z = f.pack (arithMode mode) false 0 (exactAdd (arithMode mode) (exactMul (f.decode x) (f.decode y)).1 (f.decode z)) := by
    rw [fpFma]
    dsimp only
    rw [hvalid]
    rfl
  rw [e]
  exact rounds_pack hf (exactAdd_value hvalue hz) h

/-! ## Conversions (R154) -/

theorem rounds_cvtFF {g : Fmt} (hx : (g.decode x).value = some a) (ha : a ≠ 0) : Rounds f mode nsat u (a : ℝ) (cvtFF g f mode nsat u x) := by
  obtain ⟨neg, n, e, hd, hn, rfl⟩ := eq_fin_of_value hx ha
  rw [cvtFF, hd]
  exact rounds_round_one hf neg nsat e u hn

theorem rounds_cvtIF {v : ℤ} (hv : v ≠ 0) : Rounds f mode nsat u (v : ℝ) (cvtIF f mode nsat u v) := by
  have h := rounds_round_one (mode := mode) hf (decide (v < 0)) nsat 0 u (Int.natAbs_pos.2 hv)
  rw [exactValue_natAbs, zpow_zero, mul_one, Rat.cast_intCast] at h
  rwa [cvtIF, if_neg hv]

end

/-- A value ± n × 2^e, rounded to an integer. -/
theorem roundsTo_roundK_scale (mode : RMode) (neg : Bool) (n : Nat) (e : ℤ) (u : Nat) :
    let k := roundK mode neg (scaleNum n e) (scaleDen 1 e) u
    RoundsTo mode u ((exactValue neg n e : ℚ) : ℝ) (signed neg k.1) ∧ (k.2 = true ↔ Int.fract ((exactValue neg n e : ℚ) : ℝ) ≠ 0) := by
  refine roundsTo_roundK (scaleDen_pos one_pos e) ?_
  rw [scaleNum_div_scaleDen, exactValue_eq]
  push_cast
  ring

theorem flagIf_inexact {b : Bool} {y : ℝ} (h : b = true ↔ Int.fract y ≠ 0) :
    (Int.fract y = 0 → flagIf b flagInexact = 0) ∧ (Int.fract y ≠ 0 → flagIf b flagInexact = flagInexact) :=
  ⟨fun hy => if_neg fun hb => h.1 hb hy, fun hy => if_pos (h.2 hy)⟩

theorem lo_le_zero_le_hi (i : IFmt) : i.lo ≤ 0 ∧ 0 ≤ i.hi := by cases i <;> decide

theorem cvtFI_of_fin {f : Fmt} {mode : RMode} {x u n : Nat} {neg : Bool} {e : ℤ} {k : Nat × Bool} (i : IFmt) (hd : f.decode x = .fin neg n e)
    (hk : roundK mode neg (scaleNum n e) (scaleDen 1 e) u = k) :
    cvtFI f i mode u x = if signed neg k.1 < i.lo ∨ i.hi < signed neg k.1 then (i.encode (i.clamp (signed neg k.1)), flagInvalid)
      else (i.encode (signed neg k.1), flagIf k.2 flagInexact) := by
  rw [cvtFI, hd, ← hk]
  rfl

/-- R154: float to integer rounds once, and a result out of range becomes the bound it passes. -/
theorem cvtFI_spec {f : Fmt} {mode : RMode} {x u : Nat} {a : ℚ} (hx : (f.decode x).value = some a) (i : IFmt) :
    ∃ k : ℤ, RoundsTo mode u (a : ℝ) k
      ∧ (i.lo ≤ k → k ≤ i.hi → (cvtFI f i mode u x).1 = i.encode k
        ∧ (Int.fract (a : ℝ) = 0 → (cvtFI f i mode u x).2 = 0) ∧ (Int.fract (a : ℝ) ≠ 0 → (cvtFI f i mode u x).2 = flagInexact))
      ∧ (k < i.lo → cvtFI f i mode u x = (i.encode i.lo, flagInvalid)) ∧ (i.hi < k → cvtFI f i mode u x = (i.encode i.hi, flagInvalid)) := by
  obtain ⟨hlo, hhi⟩ := lo_le_zero_le_hi i
  by_cases ha : a = 0
  · subst ha
    obtain ⟨neg, hd⟩ := eq_zero_of_value hx
    rw [cvtFI, hd]
    refine ⟨0, by simpa using roundsTo_intCast (F := 0) (k := 0), fun _ _ => ⟨by simp [IFmt.encode], fun _ => rfl, fun h => absurd (by simp) h⟩,
      fun h => ?_, fun h => ?_⟩
    all_goals omega
  obtain ⟨neg, n, e, hd, hn, rfl⟩ := eq_fin_of_value hx ha
  obtain ⟨hr, hi⟩ := roundsTo_roundK_scale mode neg n e u
  obtain ⟨k, hk⟩ : ∃ k, roundK mode neg (scaleNum n e) (scaleDen 1 e) u = k := ⟨_, rfl⟩
  rw [hk] at hr hi
  rw [cvtFI_of_fin i hd hk]
  refine ⟨_, hr, fun h h' => ?_, fun h => ?_, fun h => ?_⟩
  · rw [if_neg (by omega)]
    exact ⟨rfl, flagIf_inexact hi⟩
  · rw [if_pos (.inl h), IFmt.clamp, max_eq_left (by omega)]
  · rw [if_pos (.inr h), IFmt.clamp, min_eq_left h.le, max_eq_right (by omega)]

/-! ## Reciprocals, quotients and square roots (R170) -/

section
variable {f : Fmt} (hf : f.top < f.signBit) {x y : Nat} {a b : ℚ}
include hf

theorem rounds_fpRcp (hx : (f.decode x).value = some a) (ha : a ≠ 0) : Rounds f .rne false 0 (1 / (a : ℝ)) (fpRcp f x) := by
  obtain ⟨neg, n, e, hd, hn, rfl⟩ := eq_fin_of_value hx ha
  have hval : (1 : ℝ) / ((exactValue neg n e : ℚ) : ℝ) = ((exactValue neg 1 (-e) : ℚ) : ℝ) / n := by
    have hs : (signOf neg : ℝ)⁻¹ = signOf neg := by exact_mod_cast congrArg ((↑) : ℚ → ℝ) (inv_signOf neg)
    rw [exactValue_eq, exactValue_eq, zpow_neg]
    push_cast
    rw [one_div, mul_inv, hs]
    ring
  rw [fpRcp, hd, hval]
  exact rounds_round hf neg false (-e) 0 one_pos hn

theorem rounds_fpDiv (hx : (f.decode x).value = some a) (hy : (f.decode y).value = some b) (ha : a ≠ 0) (hb : b ≠ 0) :
    Rounds f .rne false 0 ((a : ℝ) / b) (fpDiv f x y) := by
  obtain ⟨s, n, e, hdx, hn, rfl⟩ := eq_fin_of_value hx ha
  obtain ⟨t, m, g, hdy, hm, rfl⟩ := eq_fin_of_value hy hb
  have hval : ((exactValue s n e : ℚ) : ℝ) / ((exactValue t m g : ℚ) : ℝ) = ((exactValue (s != t) n (e - g) : ℚ) : ℝ) / m := by
    have hs : (signOf t : ℝ)⁻¹ = signOf t := by exact_mod_cast congrArg ((↑) : ℚ → ℝ) (inv_signOf t)
    rw [exactValue_eq, exactValue_eq, exactValue_eq, signOf_bne, zpow_sub₀ two_ne_zero]
    push_cast
    rw [div_eq_mul_inv, mul_inv, hs]
    ring
  rw [fpDiv, hdx, hdy, hval]
  exact rounds_round hf (s != t) false (e - g) 0 hn hm

end

theorem isqrtFrom_spec {n : Nat} (k : Nat) {r : Nat} (hr : r * r ≤ n) (hlt : n < (r + 2 ^ k) * (r + 2 ^ k)) :
    isqrtFrom n k r * isqrtFrom n k r ≤ n ∧ n < (isqrtFrom n k r + 1) * (isqrtFrom n k r + 1) := by
  induction k generalizing r with
  | zero => exact ⟨hr, hlt⟩
  | succ k ih =>
    rw [isqrtFrom]
    split
    next h => exact ih h (by rwa [add_assoc, ← two_mul, ← pow_succ'])
    next h => exact ih hr (not_le.1 h)

theorem isqrt_spec (n : Nat) : isqrt n * isqrt n ≤ n ∧ n < (isqrt n + 1) * (isqrt n + 1) := by
  refine isqrtFrom_spec _ (Nat.zero_le n) (Nat.lt_log2_self.trans_le ?_)
  rw [zero_add, ← pow_add]
  exact Nat.pow_le_pow_right two_pos (by omega)

theorem le_isqrt {s n : Nat} (h : s * s ≤ n) : s ≤ isqrt n := by
  by_contra hlt
  exact absurd ((isqrt_spec n).2.trans_le (Nat.mul_self_le_mul_self (not_le.1 hlt))) (not_lt.2 h)

/-- ROUND of the square root of `t`, in units of 2^e, from its integer part: exact, or strictly between it and the next. -/
theorem rounds_sqrt {f : Fmt} (hf : f.top < f.signBit) {r : Nat} {t : ℝ} (e : ℤ) (hr : 2 ^ (f.m + 1) ≤ r) (hle : (r * r : ℝ) ≤ t)
    (hlt : t < (r + 1) * (r + 1)) :
    (r * r = t → Rounds f .rne false 0 (√t * 2 ^ e) (round f .rne false false r 1 e 0))
    ∧ (r * r ≠ t → Rounds f .rne false 0 (√t * 2 ^ e) (roundOdd f false r e)) := by
  have hr0 : 0 < r := (Nat.two_pow_pos _).trans_le hr
  have hval (n : Nat) (e : ℤ) : ((exactValue false n e : ℚ) : ℝ) = n * 2 ^ e := by simp [exactValue_eq, signOf]
  refine ⟨fun h => ?_, fun h => ?_⟩
  · have hround := rounds_round_one (mode := .rne) hf false false e 0 hr0
    rwa [hval, ← Real.sqrt_mul_self (Nat.cast_nonneg (α := ℝ) r), h] at hround
  · have hround := rounds_round_one (mode := .rne) hf false false (e - 1) 0 (Nat.succ_pos (2 * r))
    have hmid : ((exactValue false (2 * r + 1) (e - 1) : ℚ) : ℝ) = (r + 1 / 2) * 2 ^ e := by
      rw [hval, zpow_sub_one₀ two_ne_zero]; push_cast; ring
    rw [hmid] at hround
    have hpos : (0 : ℝ) < 2 ^ e := zpow_pos two_pos e
    refine hround.of_between hr (e := e) ?_ ?_ ?_ ?_
    · gcongr; linarith
    · gcongr; linarith
    · gcongr
      exact Real.lt_sqrt_of_sq_lt (by rw [sq]; exact lt_of_le_of_ne hle h)
    · gcongr
      exact (Real.sqrt_lt' (by positivity)).2 (by rwa [sq])

/-- The exponent becomes even, and the value stays. -/
theorem evenExp_spec (n : Nat) (e : ℤ) :
    ∃ (k : Nat) (i : ℤ), evenExp n e = (k, 2 * i) ∧ (k : ℝ) * 2 ^ (2 * i) = n * 2 ^ e ∧ n ≤ k ∧ k ≤ 2 * n := by
  unfold evenExp
  split
  next h =>
    have he : 2 * (e / 2) = e := Int.mul_ediv_cancel' (Int.dvd_of_emod_eq_zero h)
    exact ⟨n, e / 2, by rw [he], by rw [he], le_rfl, by omega⟩
  next h =>
    have he : 2 * ((e - 1) / 2) = e - 1 := by omega
    refine ⟨2 * n, (e - 1) / 2, by rw [he], ?_, by omega, le_rfl⟩
    rw [he, zpow_sub_one₀ two_ne_zero]; push_cast; ring

theorem sqrt_mul_zpow_even {t : ℝ} (ht : 0 ≤ t) (i : ℤ) : √(t * 2 ^ (2 * i)) = √t * 2 ^ i := by
  have h : (2 : ℝ) ^ (2 * i) = (2 ^ i) ^ 2 := by rw [mul_comm, zpow_mul]; rfl
  rw [Real.sqrt_mul ht, h, Real.sqrt_sq (zpow_nonneg zero_le_two i)]

section
variable {f : Fmt} {x n k : Nat} {e i : ℤ} (hd : f.decode x = .fin false n e) (hev : evenExp n e = (k, 2 * i))
include hd hev

theorem fpSqrt_of_fin {t : Nat} (ht : t = k * 2 ^ 64) : fpSqrt f x =
    if isqrt t * isqrt t = t then round f .rne false false (isqrt t) 1 (i - 32) 0 else roundOdd f false (isqrt t) (i - 32) := by
  rw [fpSqrt, hd, ht]
  simp only [hev, Bool.false_eq_true, if_false, Int.mul_ediv_cancel_left i two_ne_zero]

theorem fpRsq_of_fin {p : Nat} (hp : p = 2 ^ 128) : fpRsq f x =
    if isqrt (p / k) * isqrt (p / k) * k = p then round f .rne false false (isqrt (p / k)) 1 (-i - 64) 0 else roundOdd f false (isqrt (p / k)) (-i - 64) := by
  rw [fpRsq, hd, hp]
  simp only [hev, Bool.false_eq_true, if_false, Int.mul_ediv_cancel_left i two_ne_zero]

end

section
variable {f : Fmt} (hf : f.top < f.signBit) (hm : f.m ≤ 23) {x : Nat} {a : ℚ} (hx : (f.decode x).value = some a) (ha : 0 < a)
include hx ha

/-- A positive number of the format is a number of few bits times an even power of two. -/
theorem eq_evenExp_of_pos : ∃ (n : Nat) (e : ℤ), f.decode x = .fin false n e ∧ ∃ (k : Nat) (i : ℤ), evenExp n e = (k, 2 * i)
    ∧ (a : ℝ) = k * 2 ^ (2 * i) ∧ 0 < k ∧ k < 2 ^ (f.m + 2) := by
  obtain ⟨neg, n, e, hd, hn, rfl⟩ := eq_fin_of_value hx ha.ne'
  have hneg : neg = false := by
    cases neg with
    | false => rfl
    | true => exact absurd ha (by rw [exactValue_eq, signOf, if_pos rfl]; simp; positivity)
  subst hneg
  obtain ⟨-, hlt, -⟩ := decode_fin hd
  obtain ⟨k, i, hev, hval, hle, hle'⟩ := evenExp_spec n e
  refine ⟨n, e, hd, k, i, hev, by rw [hval]; simp [exactValue_eq, signOf], hn.trans_le hle, ?_⟩
  rw [pow_succ]
  omega

include hf hm

theorem rounds_fpSqrt : Rounds f .rne false 0 (√(a : ℝ)) (fpSqrt f x) := by
  obtain ⟨n, e, hd, k, i, hev, hval, hk, -⟩ := eq_evenExp_of_pos hx ha
  obtain ⟨t, ht⟩ : ∃ t, t = k * 2 ^ 64 := ⟨_, rfl⟩
  obtain ⟨hle, hgt⟩ := isqrt_spec t
  have hr : 2 ^ (f.m + 1) ≤ isqrt t := by
    refine (Nat.pow_le_pow_right two_pos (by omega : f.m + 1 ≤ 32)).trans (le_isqrt ?_)
    calc 2 ^ 32 * 2 ^ 32 = 1 * 2 ^ 64 := by norm_num
      _ ≤ k * 2 ^ 64 := Nat.mul_le_mul_right _ hk
      _ = t := ht.symm
  have hsqrt : √(a : ℝ) = √(t : ℝ) * 2 ^ (i - 32) := by
    have h : (a : ℝ) = t * 2 ^ (2 * (i - 32)) := by
      rw [hval, ht, mul_sub, zpow_sub₀ two_ne_zero]; push_cast; norm_num; ring
    rw [h, sqrt_mul_zpow_even (Nat.cast_nonneg _)]
  obtain ⟨hexact, hodd⟩ := rounds_sqrt hf (i - 32) hr (t := t) (by exact_mod_cast hle) (by exact_mod_cast hgt)
  rw [fpSqrt_of_fin hd hev ht, hsqrt]
  split
  next h => exact hexact (by exact_mod_cast h)
  next h => exact hodd (by exact_mod_cast h)

theorem rounds_fpRsq : Rounds f .rne false 0 (1 / √(a : ℝ)) (fpRsq f x) := by
  obtain ⟨n, e, hd, k, i, hev, hval, hk, hlt⟩ := eq_evenExp_of_pos hx ha
  obtain ⟨p, hp⟩ : ∃ p, p = 2 ^ 128 := ⟨_, rfl⟩
  have hk' : (0 : ℝ) < k := by exact_mod_cast hk
  obtain ⟨hle, hgt⟩ := isqrt_spec (p / k)
  rw [Nat.le_div_iff_mul_le hk] at hle
  rw [Nat.div_lt_iff_lt_mul hk] at hgt
  have hr : 2 ^ (f.m + 1) ≤ isqrt (p / k) := by
    refine (Nat.pow_le_pow_right two_pos (by omega : f.m + 1 ≤ 32)).trans (le_isqrt ?_)
    rw [Nat.le_div_iff_mul_le hk, hp]
    calc 2 ^ 32 * 2 ^ 32 * k ≤ 2 ^ 32 * 2 ^ 32 * 2 ^ 25 := Nat.mul_le_mul_left _ (hlt.le.trans (Nat.pow_le_pow_right two_pos (by omega)))
      _ ≤ 2 ^ 128 := by norm_num
  have hsqrt : 1 / √(a : ℝ) = √((p : ℝ) / k) * 2 ^ (-i - 64) := by
    have h : (a : ℝ)⁻¹ = (p : ℝ) / k * 2 ^ (2 * (-i - 64)) := by
      rw [hval, hp, mul_sub, zpow_sub₀ two_ne_zero, mul_neg, zpow_neg, mul_inv]; push_cast; norm_num; ring
    rw [one_div, ← Real.sqrt_inv, h, sqrt_mul_zpow_even (by positivity)]
  obtain ⟨hexact, hodd⟩ := rounds_sqrt hf (-i - 64) hr (t := (p : ℝ) / k)
    (by rw [le_div_iff₀ hk']; exact_mod_cast hle) (by rw [div_lt_iff₀ hk']; exact_mod_cast hgt)
  rw [fpRsq_of_fin hd hev hp, hsqrt]
  split
  next h => exact hexact (by rw [eq_div_iff hk'.ne']; exact_mod_cast h)
  next h => exact hodd (by rw [ne_eq, eq_div_iff hk'.ne']; exact_mod_cast h)

end
end Sys2Proof.Machine
end

section
/-! # O5: integral values of finite numbers (06_vector, R170) -/

namespace Sys2Proof.Machine

/-- What VFLR and VRND need of a format: an integer of m bits is one of its numbers. -/
structure Fmt.HasIntegers (f : Fmt) : Prop where
  top_lt : f.top < f.signBit
  bits_pos : 0 < f.m
  emin_le : f.emin ≤ f.m
  two_pow_le : (2 : ℚ) ^ f.m ≤ f.greatest

theorem hasIntegers {f : Fmt} (h : f = fmtF32 ∨ f = fmtBf) : f.HasIntegers := by
  have hf : f.top < f.signBit := top_lt_signBit (h.imp_right .inl)
  have hm : 0 < f.m ∧ f.emin ≤ f.m ∧ (f.m - f.emin).toNat * 2 ^ f.m + 2 ^ f.m ≤ f.top := by rcases h with rfl | rfl <;> decide
  obtain ⟨hm, he, htop⟩ := hm
  refine ⟨hf, hm, he, ?_⟩
  have hmag := mag_encode (f := f) (j := (f.m - f.emin).toNat) (k := 2 ^ f.m) (Nat.pow_le_pow_right two_pos (Nat.le_succ _)) (.inr le_rfl)
  rw [Int.toNat_of_nonneg (sub_nonneg.2 he), sub_add_cancel, sub_self, zpow_zero, mul_one] at hmag
  rw [greatest_eq hf]
  calc (2 : ℚ) ^ f.m = f.mag _ := by rw [hmag, Nat.cast_pow, Nat.cast_two]
    _ ≤ f.mag f.top := mag_strictMono.monotone htop

/-- A rounded value ± n × 2^e is n × 2^e itself, or at most the successor of a half of n. -/
theorem roundK_scale_cases (mode : RMode) (neg : Bool) (n : Nat) (e : ℤ) (u : Nat) :
    (∃ j : Nat, e = j ∧ (roundK mode neg (scaleNum n e) (scaleDen 1 e) u).1 = n * 2 ^ j)
    ∨ (roundK mode neg (scaleNum n e) (scaleDen 1 e) u).1 ≤ n / 2 + 1 := by
  cases e with
  | ofNat j => exact .inl ⟨j, rfl, by rw [scaleNum, scaleDen, roundK_of_dvd (Nat.mod_one _), Nat.div_one]⟩
  | negSucc j =>
    refine .inr (le_roundK.2.trans (Nat.succ_le_succ (Nat.div_le_div_left ?_ two_pos)))
    exact (Nat.le_self_pow j.succ_ne_zero 2).trans_eq (one_mul _).symm

section
variable {f : Fmt} (hf : f.HasIntegers) {mode : RMode} {x u : Nat} {a : ℚ} (hx : (f.decode x).value = some a)

/-- ROUND gives an integer back whose coefficient has at most m + 1 bits. -/
theorem round_integer_exact (hf : f.top < f.signBit) (neg : Bool) {k c : Nat} {X : ℤ} (hk0 : k ≠ 0) (hc : c < 2 ^ (f.m + 1)) (hX : f.emin ≤ X)
    (hkc : (k : ℚ) = c * 2 ^ (X - f.m)) (hle : (k : ℚ) ≤ f.greatest) :
    (f.decode (round f .rne false neg k 1 0 0).1).value = some ((signed neg k : ℤ) : ℚ) := by
  have hpos := Nat.pos_of_ne_zero hk0
  have hne : ((exactValue neg k 0 : ℚ) : ℝ) ≠ 0 := by exact_mod_cast exactValue_ne_zero neg hpos 0
  have habs : |exactValue neg k 0| = k := by rw [exactValue_eq, abs_mul, abs_signOf, zpow_zero, mul_one, one_mul, Nat.abs_cast]
  obtain ⟨v, hv, hvx⟩ := (rounds_round_one (mode := .rne) hf neg false 0 0 hpos).exact hne hc hX (neg := neg)
    (by rw [exactValue_eq, zpow_zero, mul_one, hkc]; push_cast; rfl) (by rw [← Rat.cast_abs, habs]; exact_mod_cast hle)
  rw [hv, Rat.cast_injective hvx, exactValue_eq, zpow_zero, mul_one, cast_signed]

include hf in
/-- The integer that a number of the format rounds to is a number of the format. -/
theorem round_integer_value {neg : Bool} {n : Nat} {e : ℤ} (hd : f.decode x = .fin neg n e)
    {k : Nat} (hk : (roundK mode neg (scaleNum n e) (scaleDen 1 e) u).1 = k) (hk0 : k ≠ 0) :
    (f.decode (round f .rne false neg k 1 0 0).1).value = some ((signed neg k : ℤ) : ℚ) := by
  obtain ⟨-, hlt, -⟩ := decode_fin hd
  have hexact {c : Nat} {X : ℤ} := round_integer_exact hf.top_lt neg (k := k) (c := c) (X := X) hk0
  have hcases := roundK_scale_cases mode neg n e u
  rw [hk] at hcases
  rcases hcases with ⟨j, rfl, hkj⟩ | hle
  · have hkj : (k : ℚ) = n * 2 ^ ((j + f.m : ℤ) - f.m) := by rw [hkj, add_sub_cancel_right, zpow_natCast]; push_cast; rfl
    refine hexact hlt (hf.emin_le.trans (by omega)) hkj ?_
    have h := abs_value_le_greatest hf.top_lt (x := x) (v := exactValue neg n j) (by rw [hd, value_fin])
    rwa [exactValue_eq, abs_mul, abs_signOf, one_mul, abs_of_nonneg (by positivity), ← add_sub_cancel_right (j : ℤ) f.m, ← hkj] at h
  · have hkm : k ≤ 2 ^ f.m := by
      have hpos := Nat.pow_le_pow_right two_pos hf.bits_pos
      rw [pow_succ] at hlt
      omega
    refine hexact (hkm.trans_lt (Nat.pow_lt_pow_succ one_lt_two)) hf.emin_le (by rw [sub_self, zpow_zero, mul_one]) (le_trans ?_ hf.two_pow_le)
    exact_mod_cast hkm

theorem fpIntegral_of_fin {f : Fmt} {mode : RMode} {x n : Nat} {neg : Bool} {e : ℤ} {k : Nat × Bool} (hd : f.decode x = .fin neg n e)
    (hk : roundK mode neg (scaleNum n e) (scaleDen 1 e) 0 = k) :
    fpIntegral f mode x = (if k.1 = 0 then f.withSign neg 0 else (round f .rne false neg k.1 1 0 0).1, flagIf k.2 flagInexact) := by
  rw [fpIntegral, hd, ← hk]
  exact (apply_ite (·, flagIf _ flagInexact) ..).symm

include hf hx

/-- R170: the integral value, and INEXACT where it is another number. -/
theorem fpIntegral_spec (mode : RMode) : ∃ k : ℤ, RoundsTo mode 0 (a : ℝ) k ∧ (f.decode (fpIntegral f mode x).1).value = some (k : ℚ)
    ∧ (fpIntegral f mode x).2 = if (k : ℚ) = a then 0 else flagInexact := by
  by_cases ha : a = 0
  · subst ha
    obtain ⟨neg, hd⟩ := eq_zero_of_value hx
    have h : fpIntegral f mode x = (x, 0) := by rw [fpIntegral, hd]
    rw [h]
    exact ⟨0, by simpa using roundsTo_intCast (F := 0) (k := 0), hx, rfl⟩
  obtain ⟨neg, n, e, hd, hn, rfl⟩ := eq_fin_of_value hx ha
  obtain ⟨hr, hi⟩ := roundsTo_roundK_scale mode neg n e 0
  obtain ⟨k, hk⟩ : ∃ k, roundK mode neg (scaleNum n e) (scaleDen 1 e) 0 = k := ⟨_, rfl⟩
  rw [hk] at hr hi
  have hflag : flagIf k.2 flagInexact = if ((signed neg k.1 : ℤ) : ℚ) = exactValue neg n e then 0 else flagInexact := by
    obtain ⟨hexact, hinexact⟩ := flagIf_inexact hi
    split
    next h => exact hexact (by rw [← h, Rat.cast_intCast, Int.fract_intCast])
    next h =>
      refine hinexact fun hz => h ?_
      have := Int.floor_add_fract ((exactValue neg n e : ℚ) : ℝ)
      rw [hz, add_zero, ← hr.1 hz] at this
      exact_mod_cast this
  rw [fpIntegral_of_fin hd hk]
  refine ⟨_, hr, ?_, hflag⟩
  dsimp only
  split
  next h => rw [withSign_value hf.top_lt (Nat.zero_le _), mag_zero, h]; simp [signed]
  next h => exact round_integer_value hf hd (congrArg Prod.fst hk) h

theorem fpFlr_value : (f.decode (fpFlr f x).1).value = some ((⌊a⌋ : ℤ) : ℚ) := by
  obtain ⟨k, ⟨hint, hfrac⟩, hv, -⟩ := fpIntegral_spec hf hx .rdn
  have hk : k = ⌊(a : ℝ)⌋ := by
    by_cases hz : Int.fract (a : ℝ) = 0
    · exact hint hz
    · exact hfrac hz
  rw [Rat.floor_cast] at hk
  exact hk ▸ hv

end
end Sys2Proof.Machine
end

section
/-! # O5: COMB of the exchange (11_exchange, R317) -/

namespace Sys2Proof.Machine

/-- Minimum and maximum of words by their signed values. -/
theorem comb_signed (a b : BitVec 32) : comb 5 a.toNat b.toNat = ((if a.slt b then b else a).toNat, 0)
    ∧ comb 6 a.toNat b.toNat = ((if b.slt a then b else a).toNat, 0) := by
  have h5 (x y : Nat) : comb 5 x y = (if Int.bmod x (2 ^ 32) < Int.bmod y (2 ^ 32) then y else x, 0) := rfl
  have h6 (x y : Nat) : comb 6 x y = (if Int.bmod y (2 ^ 32) < Int.bmod x (2 ^ 32) then y else x, 0) := rfl
  rw [h5, h6, ← BitVec.toInt_eq_toNat_bmod, ← BitVec.toInt_eq_toNat_bmod]
  simp only [BitVec.slt_iff_toInt_lt, apply_ite BitVec.toNat, and_self]

theorem comb_binary32 (a b : BitVec 32) :
    comb 0 a.toNat b.toNat = fpAdd fmtF32 .rne a.toNat b.toNat
    ∧ comb 3 a.toNat b.toNat = (fpMax fmtF32 a.toNat b.toNat, 0) ∧ comb 4 a.toNat b.toNat = (fpMin fmtF32 a.toNat b.toNat, 0) :=
  ⟨rfl, rfl, rfl⟩

theorem comb_bits (a b : BitVec 32) :
    comb 7 a.toNat b.toNat = ((a &&& b).toNat, 0) ∧ comb 8 a.toNat b.toNat = ((a ||| b).toNat, 0) := by
  rw [BitVec.toNat_and, BitVec.toNat_or]
  exact ⟨rfl, rfl⟩

theorem comb_words (a b : DWord) : comb 1 a.toNat b.toNat = ((a + b).toNat, 0) := by
  rw [BitVec.toNat_add]
  rfl

/-- A pattern that stands for no tag is a finite cell (R146). -/
theorem cellOfPattern_finite {a : BitVec 128} (h : isFinitePattern a = true) :
    (cellOfPattern a.toNat).1.n = a ∧ (cellOfPattern a.toNat).1.tag = .fin := by
  simp only [isFinitePattern, Bool.and_eq_true, bne_iff_ne, ne_eq, ← BitVec.toNat_inj] at h
  obtain ⟨⟨h1, h2⟩, h3⟩ := h
  have e1 : (BitVec.intMin 128).toNat = 2 ^ 127 := by decide
  have e2 : (BitVec.intMax 128).toNat = 2 ^ 127 - 1 := by decide
  have e3 : (BitVec.intMin 128 + 1).toNat = 2 ^ 127 + 1 := by decide
  rw [e1] at h1
  rw [e2] at h2
  rw [e3] at h3
  rw [cellOfPattern, if_neg h1, if_neg h2, if_neg h3, BitVec.ofNat_toNat, BitVec.setWidth_eq]
  exact ⟨BitVec.ofInt_toInt, rfl⟩

/-- The sum of words is the exact sum unless that is out of range. -/
theorem toInt_add_eq_iff (a b : BitVec 128) :
    (a + b).toInt = a.toInt + b.toInt ↔ -(2 ^ 127) ≤ a.toInt + b.toInt ∧ a.toInt + b.toInt ≤ 2 ^ 127 - 1 := by
  have hlt := (a + b).toInt_lt
  have hle := (a + b).le_toInt
  refine ⟨fun h => h ▸ ⟨hle, Int.le_sub_one_of_lt hlt⟩, fun ⟨h, h'⟩ => ?_⟩
  rw [BitVec.toInt_add]
  exact Int.bmod_eq_of_le (by norm_num at h ⊢; omega) (by norm_num at h' ⊢; omega)

/-- The sum of two finite cells, with the flag where it wraps. -/
theorem comb_cells {a b : BitVec 128} (ha : isFinitePattern a = true) (hb : isFinitePattern b = true) :
    comb 2 a.toNat b.toNat = ((a + b).toNat, if (a + b).toInt = a.toInt + b.toInt then 0 else flagAnchOvf) := by
  obtain ⟨han, hat⟩ := cellOfPattern_finite ha
  obtain ⟨hbn, hbt⟩ := cellOfPattern_finite hb
  have hsum : comb 2 a.toNat b.toNat = ((Cell.pattern ⟨a + b, .fin, 0⟩).toNat,
      flagIf (decide (a.toInt + b.toInt < -(2 ^ 127)) || decide (2 ^ 127 - 1 < a.toInt + b.toInt)) flagAnchOvf) := by
    change lsumComb a.toNat b.toNat = _
    simp only [lsumComb, han, hat, hbn, hbt]
    rfl
  have hwraps : (decide (a.toInt + b.toInt < -(2 ^ 127)) || decide (2 ^ 127 - 1 < a.toInt + b.toInt)) = true ↔
      ¬ (a + b).toInt = a.toInt + b.toInt := by
    rw [toInt_add_eq_iff, Bool.or_eq_true, decide_eq_true_eq, decide_eq_true_eq, not_and_or, not_le, not_le]
  rw [hsum, flagIf, if_congr hwraps rfl rfl, ite_not]
  rfl

end Sys2Proof.Machine
end

section
/-! # O5: the weights and the draw of SAMPLE (13_grammar, R366, R367) -/

namespace Sys2Proof.Machine

/-! ## EXP2Q (R366) -/

/-- The test of `exp2Root` holds below its answer and fails above it. -/
theorem exp2Root_spec (j : Nat) (k : Nat) {n : Nat} (h : n = 0 ∨ (2 * n - 1) ^ 256 ≤ 2 ^ (8192 + j)) (hlt : 2 ^ (8192 + j) < (2 * (n + 2 ^ k) - 1) ^ 256) :
    (exp2Root j k n = 0 ∨ (2 * exp2Root j k n - 1) ^ 256 ≤ 2 ^ (8192 + j)) ∧ 2 ^ (8192 + j) < (2 * (exp2Root j k n + 1) - 1) ^ 256 := by
  induction k generalizing n with
  | zero => exact ⟨h, hlt⟩
  | succ k ih =>
    rw [exp2Root]
    split
    next hm => exact ih (.inr hm) (by rwa [add_assoc, ← two_mul, ← pow_succ'])
    next hm => exact ih h (not_le.1 hm)

theorem two_pow_lt_pow_bound {j : Nat} (hj : j < 256) {b : Nat} (hb : 2 ^ 33 ≤ b) : 2 ^ (8192 + j) < b ^ 256 :=
  calc 2 ^ (8192 + j) < 2 ^ (33 * 256) := Nat.pow_lt_pow_right one_lt_two (by omega)
    _ = (2 ^ 33) ^ 256 := pow_mul ..
    _ ≤ b ^ 256 := Nat.pow_le_pow_left hb 256

/-- R366: the table holds the integers nearest to 2^(31 + j / 256). -/
theorem exp2T_spec {j : Nat} (hj : j < 256) :
    1 ≤ exp2T j ∧ (2 * exp2T j - 1) ^ 256 ≤ 2 ^ (8192 + j) ∧ 2 ^ (8192 + j) < (2 * exp2T j + 1) ^ 256 := by
  have hT : exp2T j = exp2Root j 33 0 := if_neg hj.ne
  obtain ⟨hle, hlt⟩ := exp2Root_spec j 33 (.inl rfl) (two_pow_lt_pow_bound hj (b := 2 * (0 + 2 ^ 33) - 1) (by norm_num))
  rw [← hT] at hle hlt
  have hpos : 1 ≤ exp2T j := by
    by_contra h0
    rw [Nat.lt_one_iff.1 (not_le.1 h0), zero_add, mul_one, Nat.add_one_sub_one, one_pow] at hlt
    exact absurd hlt (not_lt.2 Nat.one_le_two_pow)
  refine ⟨hpos, hle.resolve_left (by omega), ?_⟩
  have e : 2 * (exp2T j + 1) - 1 = 2 * exp2T j + 1 := by omega
  rwa [e] at hlt

theorem exp2T_last : exp2T 256 = 2 ^ 32 := if_pos rfl

theorem exp2T_le_succ {j : Nat} (hj : j < 256) : exp2T j ≤ exp2T (j + 1) := by
  obtain ⟨-, hle, -⟩ := exp2T_spec hj
  have hlt : (2 * exp2T j - 1) ^ 256 < (2 * exp2T (j + 1) + 1) ^ 256 := by
    rcases Nat.lt_or_ge (j + 1) 256 with h | h
    · exact (hle.trans (Nat.pow_le_pow_right two_pos (by omega))).trans_lt (exp2T_spec h).2.2
    · have hlast : exp2T (j + 1) = 2 ^ 32 := by rw [show j + 1 = 256 by omega, exp2T_last]
      rw [hlast]
      exact hle.trans_lt (two_pow_lt_pow_bound hj (by norm_num))
  have := lt_of_pow_lt_pow_left₀ 256 (Nat.zero_le _) hlt
  omega

theorem exp2T_zero : exp2T 0 = 2 ^ 31 := by
  obtain ⟨hpos, hle, hlt⟩ := exp2T_spec (j := 0) (by norm_num)
  have e : 2 ^ (8192 + 0) = (2 ^ 32) ^ 256 := by rw [← pow_mul]
  rw [e] at hle hlt
  have h1 := (Nat.pow_le_pow_iff_left (by norm_num)).1 hle
  have h2 := lt_of_pow_lt_pow_left₀ 256 (Nat.zero_le _) hlt
  omega

/-- R366: EXP2Q of v at least −32, as the spec writes it. -/
def exp2Value (v : ℚ) : ℤ :=
  let t := 256 * Int.fract v
  let low : ℤ := exp2T ⌊t⌋.toNat
  let high : ℤ := exp2T (⌊t⌋.toNat + 1)
  let base : ℤ := low + ((high - low) * ⌊Int.fract t * 2 ^ 16⌋ + 2 ^ 15) / 2 ^ 16
  (base + ⌊(2 : ℚ) ^ (-⌊v⌋ - 1)⌋) / 2 ^ (-⌊v⌋).toNat

theorem floor_half_two_pow (m : Nat) : ⌊(2 : ℚ) ^ ((m : ℤ) - 1)⌋ = ((2 ^ m / 2 : Nat) : ℤ) := by
  cases m with
  | zero => norm_num
  | succ m =>
    rw [Nat.cast_succ, add_sub_cancel_right, pow_succ, Nat.mul_div_cancel _ two_pos, zpow_natCast]
    exact_mod_cast Int.floor_natCast (R := ℚ) (2 ^ m)

theorem floor_intCast_div (z : ℤ) (d : Nat) : ⌊(z : ℚ) / d⌋ = z / d := by
  rw [Int.floor_div_natCast, Int.floor_intCast]

/-- The fraction of z / d is that of the remainder. -/
theorem fract_intCast_div (z : ℤ) {d : Nat} (hd : 0 < d) : Int.fract ((z : ℚ) / d) = ((z % d : ℤ) : ℚ) / d := by
  have hd' : (d : ℚ) ≠ 0 := by exact_mod_cast hd.ne'
  rw [Int.fract, floor_intCast_div, Int.emod_def]
  push_cast
  rw [sub_div, mul_div_cancel_left₀ _ hd']

/-- R366 in whole numbers: the model's units of 2^-149 give the spec's fractions. -/
theorem exp2Fixed_eq {n : Nat} {v : ℚ} (hv : v = -((n : ℚ) / 2 ^ 149)) : (exp2Fixed n : ℤ) = exp2Value v := by
  obtain ⟨d, hd⟩ : ∃ d : Nat, d = 2 ^ 149 := ⟨_, rfl⟩
  have hdz : (2 : ℤ) ^ 149 = d := by rw [hd]; push_cast
  have hd0 : 0 < d := hd ▸ Nat.two_pow_pos 149
  have hv' : v = ((-(n : ℤ) : ℤ) : ℚ) / d := by rw [hv, hd, neg_div']; push_cast; rfl
  obtain ⟨m, hm⟩ := Int.eq_ofNat_of_zero_le (a := -(-(n : ℤ) / (d : ℤ)))
    (neg_nonneg.2 ((Int.ediv_le_ediv (by exact_mod_cast hd0) (by omega)).trans_eq (Int.zero_ediv d)))
  obtain ⟨r, hr⟩ := Int.eq_ofNat_of_zero_le (Int.emod_nonneg (-(n : ℤ)) (Int.natCast_ne_zero.2 hd0.ne'))
  have hrlt : r < d := by exact_mod_cast hr ▸ Int.emod_lt_of_pos (-(n : ℤ)) (by exact_mod_cast hd0)
  have hfloor : -⌊v⌋ = m := by rw [hv', floor_intCast_div, hm]
  have ht : 256 * Int.fract v = (((256 * r : Nat) : ℤ) : ℚ) / d := by rw [hv', fract_intCast_div _ hd0, hr]; push_cast; ring
  have hj : ⌊256 * Int.fract v⌋ = ((256 * r / d : Nat) : ℤ) := by rw [ht, floor_intCast_div]; rfl
  have hf : ⌊Int.fract (256 * Int.fract v) * 2 ^ 16⌋ = ((256 * r % d * 2 ^ 16 / d : Nat) : ℤ) := by
    have h : Int.fract (256 * Int.fract v) * 2 ^ 16 = (((256 * r % d * 2 ^ 16 : Nat) : ℤ) : ℚ) / d := by
      rw [ht, fract_intCast_div _ hd0, ← Int.natCast_emod]; push_cast; ring
    rw [h, floor_intCast_div]; rfl
  have hj256 : 256 * r / d < 256 := by rw [Nat.div_lt_iff_lt_mul hd0]; exact Nat.mul_lt_mul_of_pos_left hrlt (by norm_num)
  have hfixed : exp2Fixed n =
      (exp2T (256 * r / d) + ((exp2T (256 * r / d + 1) - exp2T (256 * r / d)) * (256 * r % d * 2 ^ 16 / d) + 2 ^ 15) / 2 ^ 16 + 2 ^ m / 2) / 2 ^ m := by
    simp only [exp2Fixed, hdz, ← hd, hm, hr, Int.toNat_natCast]
  rw [exp2Value, hfixed, hfloor, hj, hf, Int.toNat_natCast, Int.toNat_natCast, floor_half_two_pow]
  push_cast [Nat.cast_sub (exp2T_le_succ hj256)]
  rfl

theorem exp2Q_of_zero {z : Nat} (hz : (fmtF32.decode z).value = some 0) : exp2Q z = 2 ^ 31 := by
  obtain ⟨neg, hd⟩ := eq_zero_of_value hz
  rw [exp2Q, hd]

theorem exp2Q_spec {z : Nat} {v : ℚ} (hz : (fmtF32.decode z).value = some v) (hv : v ≤ 0) :
    (v < -32 → exp2Q z = 0) ∧ (-32 ≤ v → (exp2Q z : ℤ) = exp2Value v) := by
  by_cases h0 : v = 0
  · subst h0
    have hfixed : exp2Fixed 0 = exp2T 0 := by norm_num [exp2Fixed]
    rw [exp2Q_of_zero hz, ← exp2T_zero, ← hfixed]
    exact ⟨fun h => absurd h (by norm_num), fun _ => exp2Fixed_eq (by norm_num)⟩
  obtain ⟨neg, n, e, hd, hn, rfl⟩ := eq_fin_of_value hz h0
  obtain ⟨-, -, he⟩ := decode_fin hd
  have hemin : fmtF32.emin - fmtF32.m = -149 := by decide
  rw [hemin] at he
  obtain ⟨j, hj⟩ := Int.eq_ofNat_of_zero_le (a := e + 149) (by omega)
  have hscaled : scaleNum n (e + 149) = n * 2 ^ j := by rw [hj]; rfl
  have hv' : exactValue neg n e = -(((n * 2 ^ j : Nat) : ℚ) / 2 ^ 149) := by
    have hneg : neg = true := by
      cases neg with
      | true => rfl
      | false => exact absurd (lt_of_le_of_ne hv h0) (by rw [exactValue_eq, signOf, if_neg Bool.false_ne_true, one_mul, not_lt]; positivity)
    have he' : e = j - 149 := by omega
    rw [hneg, exactValue_eq, signOf, if_pos rfl, he', zpow_sub₀ two_ne_zero, zpow_natCast]
    push_cast
    norm_num
    ring
  have hq : exp2Q z = if 32 * 2 ^ 149 < n * 2 ^ j then 0 else exp2Fixed (n * 2 ^ j) := by
    rw [exp2Q, hd, ← hscaled]
  have hcut : exactValue neg n e < -32 ↔ 32 * 2 ^ 149 < n * 2 ^ j := by
    rw [hv', neg_lt_neg_iff, lt_div_iff₀ (by positivity)]
    exact_mod_cast Iff.rfl
  rw [hq]
  exact ⟨fun h => if_pos (hcut.1 h), fun h => by rw [if_neg fun hlt => not_lt.2 h (hcut.2 hlt), exp2Fixed_eq hv']⟩

/-! ## Weights (R367) -/

theorem weight_self {m : Nat} {a : ℚ} (invt : Nat) (hm : (fmtF32.decode m).value = some a) : weight m invt m = 2 ^ 31 := by
  unfold weight
  split
  next h => rw [h] at hm; cases hm
  next h => rw [h] at hm; cases hm
  next => exact if_pos rfl

/-- The logit less the greatest one, times the inverse temperature, rounded once. -/
def scaledLogit (m invt x : Nat) : Nat × Flags :=
  fmtF32.pack .rne false 0 (exactMul (exactAdd .rne (fmtF32.decode x) (fmtF32.decode m).negate).1 (fmtF32.decode invt))

theorem weight_of_ne {m invt x : Nat} {b : ℚ} (hx : (fmtF32.decode x).value = some b) (hne : x ≠ m) :
    weight m invt x = if (scaledLogit m invt x).1 = fmtF32.inf true then 0 else exp2Q (fpMul fmtF32 .rne (scaledLogit m invt x).1 log2E).1 := by
  unfold weight
  split
  next h => rw [h] at hx; cases hx
  next h => rw [h] at hx; cases hx
  next => exact if_neg hne

theorem rounds_scaledLogit {m invt x : Nat} {a b c : ℚ} (hm : (fmtF32.decode m).value = some a) (hx : (fmtF32.decode x).value = some b)
    (hi : (fmtF32.decode invt).value = some c) (h : (b - a) * c ≠ 0) :
    Rounds fmtF32 .rne false 0 (((b - a) * c : ℚ) : ℝ) (scaledLogit m invt x) := by
  have hsum : (exactAdd .rne (fmtF32.decode x) (fmtF32.decode m).negate).1.value = some (b - a) := by
    rw [sub_eq_add_neg]
    exact exactAdd_value hx (negate_value hm)
  exact rounds_pack (by decide) (exactMul_value hsum hi).1 h

theorem exactMul_zero (neg : Bool) {Y : FVal} {b : ℚ} (hY : Y.value = some b) : ∃ s, (exactMul (.zero neg) Y).1 = .zero s := by
  cases Y with
  | nan => cases hY
  | inf => cases hY
  | zero t => exact ⟨_, rfl⟩
  | fin t n e => exact ⟨_, rfl⟩

/-- The weight of a product that is 0 is that of the greatest logit. -/
theorem exp2Q_fpMul_of_zero {d y : Nat} {b : ℚ} (hd : (fmtF32.decode d).value = some 0) (hy : (fmtF32.decode y).value = some b) :
    exp2Q (fpMul fmtF32 .rne d y).1 = 2 ^ 31 := by
  obtain ⟨neg, hd⟩ := eq_zero_of_value hd
  obtain ⟨s, hs⟩ := exactMul_zero neg hy
  have hzero : (fmtF32.decode (fmtF32.withSign s 0)).value = some 0 := by
    rw [withSign_value (by decide) (Nat.zero_le _), mag_zero, mul_zero]
  rw [fpMul, hd, Fmt.pack, hs]
  exact exp2Q_of_zero hzero

theorem ne_inf_of_value {d : Nat} {v : ℚ} (hd : (fmtF32.decode d).value = some v) : d ≠ fmtF32.inf true := by
  rintro rfl
  rw [decode_value_of_lt (by decide)] at hd
  cases hd

theorem log2E_value : (fmtF32.decode log2E).value = some (exactValue false 0xB8AA3B (-23)) := by
  have h : fmtF32.decode log2E = .fin false 0xB8AA3B (-23) := by decide +kernel
  rw [h, value_fin]

/-! ## The draw (R155, R367) -/

/-- One step of `greatest`. -/
def greater (m x : Nat) : Nat := if fmtF32.isNan x then m else if fmtF32.key m < fmtF32.key x then x else m

theorem key_le_greater (m x : Nat) : fmtF32.key m ≤ fmtF32.key (greater m x) ∧ (fmtF32.isNan x = false → fmtF32.key x ≤ fmtF32.key (greater m x))
    ∧ (greater m x = m ∨ greater m x = x) := by
  unfold greater
  split
  next h => exact ⟨le_rfl, fun h' => by simp [h] at h', .inl rfl⟩
  next =>
    split
    next h => exact ⟨h.le, fun _ => le_rfl, .inr rfl⟩
    next h => exact ⟨le_rfl, fun _ => not_lt.1 h, .inl rfl⟩

theorem foldl_greater (l : List (Nat × Nat)) (m : Nat) :
    fmtF32.key m ≤ fmtF32.key (l.foldl (fun m p => greater m p.2) m)
    ∧ (∀ p ∈ l, fmtF32.isNan p.2 = false → fmtF32.key p.2 ≤ fmtF32.key (l.foldl (fun m p => greater m p.2) m))
    ∧ (l.foldl (fun m p => greater m p.2) m = m ∨ ∃ p ∈ l, p.2 = l.foldl (fun m p => greater m p.2) m) := by
  induction l generalizing m with
  | nil => simp
  | cons q l ih =>
    obtain ⟨hle, hmem, hor⟩ := ih (greater m q.2)
    obtain ⟨hm, hq, hmq⟩ := key_le_greater m q.2
    rw [List.foldl_cons]
    refine ⟨hm.trans hle, fun p hp hn => ?_, ?_⟩
    · rcases List.mem_cons.1 hp with rfl | hp
      · exact (hq hn).trans hle
      · exact hmem p hp hn
    · rcases hor with h | ⟨p, hp, h⟩
      · rw [h]
        exact hmq.imp_right fun h => ⟨q, List.mem_cons_self, h.symm⟩
      · exact .inr ⟨p, List.mem_cons_of_mem q hp, h⟩

theorem greatest_eq_foldl (l : List (Nat × Nat)) : greatest l = l.foldl (fun m p => greater m p.2) (fmtF32.inf true) := rfl

/-- Some token is the first whose running sum passes the target. -/
theorem passes_spec (target sum : Nat) (w : Nat × Nat → Nat) (l : List (Nat × Nat)) (hle : sum ≤ target) (hlt : target < sum + (l.map w).sum) :
    ∃ a p b, l = a ++ p :: b ∧ passes target sum (l.map fun p => (p.1, w p)) = some p.1
      ∧ sum + (a.map w).sum ≤ target ∧ target < sum + (a.map w).sum + w p := by
  induction l generalizing sum with
  | nil => simp at hlt; omega
  | cons q l ih =>
    rw [List.map_cons, passes]
    split
    next h => exact ⟨[], q, l, rfl, rfl, by simpa using hle, by simpa using h⟩
    next h =>
      obtain ⟨a, p, b, rfl, hp, hl, hg⟩ := ih (sum + w q) (not_lt.1 h) (by simpa [add_assoc] using hlt)
      exact ⟨q :: a, p, b, rfl, hp, by simpa [add_assoc] using hl, by simpa [add_assoc] using hg⟩

theorem foldl_weights (w : Nat × Nat → Nat) (l : List (Nat × Nat)) (n : Nat) :
    (l.map fun p => (p.1, w p)).foldl (fun n q => n + q.2) n = n + (l.map w).sum := by
  induction l generalizing n with
  | nil => rfl
  | cons q l ih => simp [ih, add_assoc]

/-- The weight of a token of a list. -/
def tokenWeight (invt : Nat) (l : List (Nat × Nat)) (p : Nat × Nat) : Nat := weight (greatest l) invt p.2

section
variable (u : DWord) {invt : Nat} {l : List (Nat × Nat)}

theorem drawToken_eq : drawToken u invt l = if (l.map (tokenWeight invt l)).sum = 0 then
      match l.find? fun p => p.2 == greatest l with
      | some (i, _) => i
      | none => (l.head?.map (·.1)).getD 0
    else (passes (u.toNat * (l.map (tokenWeight invt l)).sum / 2 ^ 64) 0 (l.map fun p => (p.1, tokenWeight invt l p))).getD 0 := by
  have h := foldl_weights (tokenWeight invt l) l 0
  rw [zero_add] at h
  rw [← h]
  rfl

/-- Without a weight the first token of the greatest logit is drawn, or the first of all. -/
theorem drawToken_first (h : (l.map (tokenWeight invt l)).sum = 0) {a b : List (Nat × Nat)} {i : Nat} (hl : l = a ++ (i, greatest l) :: b)
    (ha : ∀ p ∈ a, p.2 ≠ greatest l) : drawToken u invt l = i := by
  have hfind : (l.find? fun p => p.2 == greatest l) = some (i, greatest l) :=
    List.find?_eq_some_iff_append.2 ⟨by simp, a, b, hl, fun p hp => by simpa using ha p hp⟩
  rw [drawToken_eq, if_pos h, hfind]

theorem drawToken_head (h : (l.map (tokenWeight invt l)).sum = 0) (hl : ∀ p ∈ l, p.2 ≠ greatest l) {p : Nat × Nat} {b : List (Nat × Nat)}
    (e : l = p :: b) : drawToken u invt l = p.1 := by
  have hfind : (l.find? fun p => p.2 == greatest l) = none := List.find?_eq_none.2 fun p hp => by simpa using hl p hp
  rw [drawToken_eq, if_pos h, hfind, e]
  rfl

/-- R367: otherwise the first token whose sum of weights passes the target. -/
theorem drawToken_passes (h : 0 < (l.map (tokenWeight invt l)).sum) :
    ∃ a p b, l = a ++ p :: b ∧ drawToken u invt l = p.1
      ∧ (a.map (tokenWeight invt l)).sum ≤ u.toNat * (l.map (tokenWeight invt l)).sum / 2 ^ 64
      ∧ u.toNat * (l.map (tokenWeight invt l)).sum / 2 ^ 64 < (a.map (tokenWeight invt l)).sum + tokenWeight invt l p := by
  have hlt : u.toNat * (l.map (tokenWeight invt l)).sum / 2 ^ 64 < (l.map (tokenWeight invt l)).sum := by
    rw [Nat.div_lt_iff_lt_mul (Nat.two_pow_pos 64), mul_comm]
    exact Nat.mul_lt_mul_of_pos_left u.isLt h
  obtain ⟨a, p, b, hl, hp, hle, hgt⟩ := passes_spec _ 0 (tokenWeight invt l) l (Nat.zero_le _) (by rwa [zero_add])
  rw [zero_add] at hle hgt
  exact ⟨a, p, b, hl, by rw [drawToken_eq, if_neg h.ne', hp, Option.getD_some], hle, hgt⟩

end
end Sys2Proof.Machine
end

section
/-! # O5: results are the exact value rounded once -/

namespace Sys2Proof.Proofs
open Sys2Proof Sys2Proof.Machine

/-- Settles O5: every result is packed by ROUND from its exact value, of which the model keeps a sign, a number and a power of two. -/
theorem exactValueRoundedOnce : Obligations.ExactValueRoundedOnce := by
  refine ⟨fun f hf => ⟨fun neg nsat n e u hn => ?_, fun mode nsat neg n d e u hn hd => rounds_round (top_lt_signBit hf) neg nsat e u hn hd,
      fun mode x y z u nsat a b c hx hy hz => ?_⟩, ⟨fun a b => ?_, comb_words, fun a b => comb_cells⟩,
    fun m invt x a b c hm hx hi hc => ⟨weight_self invt hm, fun hlt => ?_⟩, fun z v => exp2Q_spec, exp2T_last, fun j => exp2T_spec,
    fun u invt l => ?_⟩
  · intro r ho
    have hne : ((exactValue neg n e : ℚ) : ℝ) ≠ 0 := by exact_mod_cast exactValue_ne_zero neg hn e
    obtain ⟨v, hv, hnear, hflag⟩ := (rounds_round_one (top_lt_signBit hf) neg nsat e u hn).nearest hne ho
    exact ⟨v, hv, fun z w hw => by exact_mod_cast hnear z w hw, by rw [← hflag, Rat.cast_inj]⟩
  · have h := top_lt_signBit hf
    refine ⟨rounds_pack h (exactAdd_value hx hy), rounds_pack h (sub_eq_add_neg a b ▸ exactAdd_value hx (negate_value hy)),
      rounds_pack h (exactMul_value hx hy).1, rounds_fpFma h hx hy hz, fun ha g hg => rounds_cvtFF (top_lt_signBit hg) hx ha,
      fun v => rounds_cvtIF h, cvtFI_spec hx, fun hs => ?_⟩
    have hi := hasIntegers hs
    have hm : f.m ≤ 23 := by rcases hs with rfl | rfl <;> decide
    exact ⟨rounds_fpRcp h hx, rounds_fpDiv h hx hy, rounds_fpSqrt h hm hx, rounds_fpRsq h hm hx, fpFlr_value hi hx, rfl,
      fpIntegral_spec hi hx (arithMode mode)⟩
  · obtain ⟨hadd, hmax, hmin⟩ := comb_binary32 a b
    obtain ⟨hsmax, hsmin⟩ := comb_signed a b
    obtain ⟨hand, hor⟩ := comb_bits a b
    exact ⟨hadd, hmax, hmin, hsmax, hsmin, hand, hor⟩
  · have hne : (b - a) * c ≠ 0 := mul_ne_zero (sub_ne_zero.2 hlt.ne) hc.ne'
    have hw := weight_of_ne (invt := invt) hx fun e => hlt.ne (Option.some.inj (hx.symm.trans (e ▸ hm)))
    have hround := rounds_scaledLogit hm hx hi hne
    generalize scaledLogit m invt x = r at hw hround
    have hfinite {v : ℚ} (hv : (fmtF32.decode r.1).value = some v) : weight m invt x = exp2Q (fpMul fmtF32 .rne r.1 log2E).1 :=
      hw.trans (if_neg (ne_inf_of_value hv))
    refine ⟨r.1, r.2, hround, fun h => hw.trans (if_pos h), fun h0 => (hfinite h0).trans (exp2Q_fpMul_of_zero h0 log2E_value),
      fun v l hv hv0 hl => ⟨_, _, rounds_pack (by decide) (exactMul_value hv hl).1 (mul_ne_zero hv0 ?_), hfinite hv⟩⟩
    rw [← Option.some.inj (log2E_value.symm.trans hl)]
    exact exactValue_ne_zero _ (by norm_num) _
  · obtain ⟨-, hmem, hor⟩ := foldl_greater l (fmtF32.inf true)
    rw [← greatest_eq_foldl] at hmem hor
    exact ⟨hmem, hor, fun h a i b hl ha => drawToken_first u h hl ha, fun h hl p b e => drawToken_head u h hl e, drawToken_passes u⟩

end Sys2Proof.Proofs
end

section
/-! # O15 to O20: the lanes of a vector register (06_vector, R162 to R165) -/

namespace Sys2Proof.Machine

/-! ## Widths (R138, R162) -/

/-- R138, R162: the widths of a lane, in bytes. -/
def LaneWidth (w : Nat) : Prop := w = 1 ∨ w = 2 ∨ w = 4 ∨ w = 8

theorem laneWidth_bytes (t : FTy) : LaneWidth (ftyFmt t).bytes := by cases t <;> simp [LaneWidth, ftyFmt, fmtF32, fmtBf, Fmt.bytes]

theorem laneWidth_vtyWidth (t : VTy) : LaneWidth (vtyWidth t) := by cases t <;> simp [LaneWidth, vtyWidth]

theorem laneWidth_ptyWidth (t : PTy) : LaneWidth (ptyWidth t) := by cases t <;> simp [LaneWidth, ptyWidth]

theorem laneWidth_cvtWidth (code : Nat) : LaneWidth (cvtWidth code) := by unfold cvtWidth LaneWidth; split <;> decide

theorem laneWidth_four : LaneWidth 4 := .inr (.inr (.inl rfl))

section
variable {w : Nat} (hw : LaneWidth w)
include hw

theorem LaneWidth.pos : 0 < w := by rcases hw with rfl | rfl | rfl | rfl <;> decide

theorem LaneWidth.mul_lanes : 8 * w * (8192 / w) = 65536 := by rcases hw with rfl | rfl | rfl | rfl <;> rfl

/-- The lane of a bit. -/
theorem LaneWidth.div_lt {j : Nat} (hj : j < 65536) : j / (8 * w) < 8192 / w :=
  Nat.div_lt_of_lt_mul (hw.mul_lanes.symm ▸ hj)

/-- The bits of a lane. -/
theorem LaneWidth.bit_lt {i j : Nat} (hi : i < 8192 / w) (hj : j < 8 * w) : 8 * w * i + j < 65536 := by
  have h : 8 * w * (i + 1) ≤ 65536 := hw.mul_lanes ▸ Nat.mul_le_mul_left _ hi
  rw [Nat.mul_succ] at h
  omega

end

/-! ## Registers as lists of lanes (R162) -/

section
variable {w : Nat}

theorem laneVal_eq_div_mod (v : VReg) (i : Nat) : laneVal w v i = v.toNat / 2 ^ (8 * w * i) % 2 ^ (8 * w) := by
  rw [laneVal, BitVec.extractLsb'_toNat, Nat.shiftRight_eq_div_pow]

theorem laneVal_lt (v : VReg) (i : Nat) : laneVal w v i < 2 ^ (8 * w) := BitVec.isLt _

theorem laneAt_eq_laneVal (t : PTy) (v : VReg) (i : Nat) : laneAt t v i = laneVal (ptyWidth t) v i := (laneVal_eq_div_mod v i).symm

theorem lanes_eq_map (w : Nat) (v : VReg) : lanes w v = (List.range (8192 / w)).map (laneVal w v) := by
  refine List.ext_getElem? fun i => ?_
  by_cases hi : i < 8192 / w
  · rw [lanes, splitN_getElem? _ _ _ hi, List.getElem?_map, List.getElem?_range hi, Option.map_some, laneVal_eq_div_mod, ← pow_mul]
  · rw [List.getElem?_eq_none (by rw [lanes, length_splitN]; omega), List.getElem?_eq_none (by simp; omega)]

theorem testBit_laneVal_width (v : VReg) (i j : Nat) : (laneVal w v i).testBit j = (decide (j < 8 * w) && v.getLsbD (8 * w * i + j)) :=
  BitVec.getLsbD_extractLsb' (i := j) ..

theorem ofLanes_getLsbD (l : List Nat) {j : Nat} (hw : LaneWidth w) (hj : j < 65536) :
    (ofLanes w l).getLsbD j = ((l[j / (8 * w)]?).getD 0).testBit (j % (8 * w)) := by
  have hpos : 0 < 8 * w := Nat.mul_pos (by decide) hw.pos
  have h := testBit_joinN (Nat.mod_lt j hpos) l (j / (8 * w))
  rw [Nat.div_add_mod] at h
  rw [ofLanes, BitVec.getLsbD_ofNat, decide_eq_true hj, Bool.true_and, h]

theorem laneVal_ofLanes (l : List Nat) {i : Nat} (hw : LaneWidth w) (hi : i < 8192 / w) :
    laneVal w (ofLanes w l) i = ((l[i]?).getD 0) % 2 ^ (8 * w) := by
  refine Nat.eq_of_testBit_eq fun j => ?_
  rw [testBit_laneVal_width, Nat.testBit_mod_two_pow]
  by_cases hj : j < 8 * w
  · rw [ofLanes_getLsbD l hw (hw.bit_lt hi hj), Nat.mul_add_div (by omega), Nat.div_eq_of_lt hj, Nat.mul_add_mod, Nat.mod_eq_of_lt hj, Nat.add_zero]
  · rw [decide_eq_false hj, Bool.false_and, Bool.false_and]

/-- A choice between two registers by a register of lane bits is one for each lane. -/
theorem laneVal_select {m : VReg} {act : Nat → Bool} (x y : VReg) (hw : LaneWidth w) (hm : ∀ j, j < 65536 → m.getLsbD j = act (j / (8 * w)))
    {i : Nat} (hi : i < 8192 / w) : laneVal w ((x &&& m) ||| (y &&& ~~~m)) i = laneVal w (if act i then x else y) i := by
  refine Nat.eq_of_testBit_eq fun j => ?_
  rw [testBit_laneVal_width, testBit_laneVal_width]
  by_cases hj : j < 8 * w
  · have hlt := hw.bit_lt hi hj
    have hlane : (8 * w * i + j) / (8 * w) = i := by rw [Nat.mul_add_div (by omega), Nat.div_eq_of_lt hj, Nat.add_zero]
    rw [BitVec.getLsbD_or, BitVec.getLsbD_and, BitVec.getLsbD_and, BitVec.getLsbD_not, hm _ hlt, hlane, decide_eq_true hlt]
    cases act i <;> simp
  · rw [decide_eq_false hj, Bool.false_and, Bool.false_and]

end

/-! ## Active lanes (R164) -/

theorem flatMap_replicate_range {α : Type} (f : Nat → α) (c n : Nat) (hc : 0 < c) :
    ((List.range n).map f).flatMap (List.replicate c) = (List.range (n * c)).map fun i => f (i / c) := by
  induction n with
  | zero => simp
  | succ n ih =>
    have hlast : (List.range c).map ((fun i => f (i / c)) ∘ (n * c + ·)) = List.replicate c (f n) := by
      refine List.eq_replicate_iff.2 ⟨by simp, fun b hb => ?_⟩
      obtain ⟨j, hj, rfl⟩ := List.mem_map.1 hb
      rw [Function.comp_apply, Nat.mul_comm, Nat.mul_add_div hc, Nat.div_eq_of_lt (List.mem_range.1 hj), Nat.add_zero]
    rw [List.range_succ, List.map_append, List.flatMap_append, ih, Nat.succ_mul, List.range_add, List.map_append, List.map_map, hlast]
    simp

theorem pairs_map_range (f : Nat → Bool) (n : Nat) :
    active.pairs ((List.range (2 * n)).map f) = (List.range n).map fun i => f (2 * i) && f (2 * i + 1) := by
  induction n generalizing f with
  | zero => rfl
  | succ n ih =>
    have h : (List.range (2 * (n + 1))).map f = f 0 :: f 1 :: (List.range (2 * n)).map fun i => f (i + 2) := by
      rw [Nat.mul_succ, List.range_succ_eq_map, List.range_succ_eq_map]
      simp [Function.comp_def]
    rw [h, active.pairs, ih, List.range_succ_eq_map, List.map_cons, List.map_map]
    rfl

theorem active_eq_map (m : Mask) {w : Nat} (hw : LaneWidth w) : active m w = (List.range (8192 / w)).map (laneActive m w) := by
  have h4 : active m 4 = (List.range 2048).map m.getLsbD := by
    refine List.ext_getElem? fun i => ?_
    by_cases hi : i < 2048
    · rw [active_four_getElem? m hi, List.getElem?_map, List.getElem?_range hi, Option.map_some]
    · rw [List.getElem?_eq_none (by simp [active, length_splitN]; omega), List.getElem?_eq_none (by simp; omega)]
  rcases hw with rfl | rfl | rfl | rfl
  · exact (congrArg (List.flatMap (List.replicate 4)) h4).trans (flatMap_replicate_range _ 4 2048 (by decide))
  · exact (congrArg (List.flatMap (List.replicate 2)) h4).trans (flatMap_replicate_range _ 2 2048 (by decide))
  · exact h4
  · exact (congrArg active.pairs h4).trans (pairs_map_range _ 1024)

theorem laneActive_fullMask {w i : Nat} (hw : LaneWidth w) (hi : i < 8192 / w) : laneActive fullMask w i = true := by
  have hfull {k : Nat} (hk : k < 2048) : fullMask.getLsbD k = true := by rw [fullMask, BitVec.getLsbD_allOnes, decide_eq_true hk]
  rcases hw with rfl | rfl | rfl | rfl
  · exact hfull (by omega)
  · exact hfull (by omega)
  · exact hfull hi
  · exact Bool.and_eq_true_iff.2 ⟨hfull (by omega), hfull (by omega)⟩

theorem getLsbD_laneBits_map {w : Nat} (hw : LaneWidth w) (act : Nat → Bool) {j : Nat} (hj : j < 65536) :
    (laneBits w ((List.range (8192 / w)).map act)).getLsbD j = act (j / (8 * w)) := by
  have hmod : j % (8 * w) < 8 * w := Nat.mod_lt _ (Nat.mul_pos (by decide) hw.pos)
  rw [laneBits, ofLanes_getLsbD _ hw hj, List.map_map, List.getElem?_map, List.getElem?_range (hw.div_lt hj), Option.map_some, Option.getD_some,
    Function.comp_apply]
  cases act (j / (8 * w)) <;> simp [Nat.testBit_two_pow_sub_one, hmod]

/-- R165: the bits that an instruction of lanes of `w` bytes writes. -/
theorem getLsbD_maskBits (m : Mask) {w : Nat} (hw : LaneWidth w) {j : Nat} (hj : j < 65536) :
    (maskBits m w).getLsbD j = laneActive m w (j / (8 * w)) := by
  rw [maskBits]
  split
  next h => rw [h, laneActive_fullMask hw (hw.div_lt hj), BitVec.getLsbD_allOnes, decide_eq_true hj]
  next => rw [active_eq_map m hw, getLsbD_laneBits_map hw _ hj]

/-! ## Lane functions (R68, R165) -/

theorem getLsbD_foldl_flags (l : List ((Nat × Flags) × Bool)) (fl : Flags) (b : Nat) :
    (l.foldl (fun f (r, a) => if a then f ||| r.2 else f) fl).getLsbD b = true
      ↔ fl.getLsbD b = true ∨ ∃ p ∈ l, p.2 = true ∧ p.1.2.getLsbD b = true := by
  induction l generalizing fl with
  | nil => simp
  | cons p l ih =>
    obtain ⟨r, a⟩ := p
    cases a <;> simp [ih, or_assoc]

theorem getLsbD_mapLanes (n : Nat) (act : Nat → Bool) (f : Nat → Nat × Flags) (b : Nat) :
    (mapLanes ((List.range n).map act) ((List.range n).map f)).2.getLsbD b = true
      ↔ ∃ i, i < n ∧ act i = true ∧ (f i).2.getLsbD b = true := by
  rw [mapLanes, List.zip_map', getLsbD_foldl_flags]
  simp

theorem laneVal_mapLanes {w : Nat} (hw : LaneWidth w) (act : List Bool) (f : Nat → Nat × Flags) {i : Nat} (hi : i < 8192 / w) :
    laneVal w (ofLanes w (mapLanes act ((List.range (8192 / w)).map f)).1) i = (f i).1 % 2 ^ (8 * w) := by
  rw [laneVal_ofLanes _ hw hi, mapLanes, List.map_map, List.getElem?_map, List.getElem?_range hi]
  rfl

section
variable {s : State} {lat w : Nat} {d : VDst} {act : Nat → Bool} {f g : Nat → Nat × Flags}

/-- R165, R68: one vector result whose lanes are those of a function. -/
theorem lanewise_mapLanes {m : VReg} (hw : LaneWidth w) (hm : ∀ j, j < 65536 → m.getLsbD j = act (j / (8 * w))) :
    Lanewise s (.next (s.queued lat (mapLanes ((List.range (8192 / w)).map act) ((List.range (8192 / w)).map f)).2
      (.vector d (ofLanes w (mapLanes ((List.range (8192 / w)).map act) ((List.range (8192 / w)).map f)).1) m))) lat w d act f :=
  ⟨_, m, _, rfl, hm, fun _ hi _ => laneVal_mapLanes hw _ f hi, getLsbD_mapLanes _ act f⟩

/-- Values count up to the width of a lane, and only on the lanes that are written. -/
theorem Lanewise.congr {o : Host.Outcome State Fault Refusal} (h : Lanewise s o lat w d act f)
    (hv : ∀ i, i < 8192 / w → act i = true → (f i).1 % 2 ^ (8 * w) = (g i).1 % 2 ^ (8 * w) ∧ (f i).2 = (g i).2) : Lanewise s o lat w d act g := by
  obtain ⟨r, m, fl, ho, hm, hr, hfl⟩ := h
  refine ⟨r, m, fl, ho, hm, fun i hi ha => (hr i hi ha).trans (hv i hi ha).1, fun b => (hfl b).trans (exists_congr fun i => ?_)⟩
  exact and_congr_right fun hi => and_congr_right fun ha => by rw [(hv i hi ha).2]

theorem lanewise_vecResult (hw : LaneWidth w) :
    Lanewise s (s.settle (s.vecResult lat w d ((List.range (8192 / w)).map f))) lat w d (laneActive (topMask s.regs.masks) w) f := by
  rw [State.vecResult, active_eq_map _ hw]
  exact lanewise_mapLanes hw fun j hj => getLsbD_maskBits _ hw hj

theorem lanewise_vec1 (hw : LaneWidth w) (f : Nat → Nat × Flags) (x : VSrc) :
    Lanewise s (s.settle (s.vec1 lat w f d x)) lat w d (laneActive (topMask s.regs.masks) w) fun i => f (laneVal w (s.srcV x) i) := by
  rw [State.vec1, State.lanesOf, lanes_eq_map, List.map_map]
  exact lanewise_vecResult hw

theorem lanewise_vec2 (hw : LaneWidth w) (f : Nat → Nat → Nat × Flags) (x y : VSrc) :
    Lanewise s (s.settle (s.vec2 lat w f d x y)) lat w d (laneActive (topMask s.regs.masks) w)
      fun i => f (laneVal w (s.srcV x) i) (laneVal w (s.srcV y) i) := by
  rw [State.vec2, State.lanesOf, State.lanesOf, lanes_eq_map, lanes_eq_map, List.zipWith_map, List.zipWith_self]
  exact lanewise_vecResult hw

end
end Sys2Proof.Machine
end

section
/-! # O15: floating-point lanes (06_vector, R169, R170) -/

namespace Sys2Proof.Machine

section
variable {s : State} {t : FTy} {x y : VSrc} {d : VDst}

theorem lanewise_vfa1 (f : Fmt → Nat → Nat × Flags) : Lanewise s (s.settle (s.vfa1 f d x t)) 4 (ftyFmt t).bytes d
    (laneActive (topMask s.regs.masks) (ftyFmt t).bytes) fun i => f (ftyFmt t) (laneVal (ftyFmt t).bytes (s.srcV x) i) :=
  lanewise_vec1 (laneWidth_bytes t) (f (ftyFmt t)) x

theorem lanewise_vfx1 (f : Fmt → Nat → Nat × Flags) : Lanewise s (s.settle (s.vfx1 f d x t)) 8 (ftyFmt t).bytes d
    (laneActive (topMask s.regs.masks) (ftyFmt t).bytes) fun i => f (ftyFmt t) (laneVal (ftyFmt t).bytes (s.srcV x) i) :=
  lanewise_vec1 (laneWidth_bytes t) (f (ftyFmt t)) x

theorem lanewise_vfa2 (f : Fmt → Nat → Nat → Nat × Flags) : Lanewise s (s.settle (s.vfa2 f d x y t)) 4 (ftyFmt t).bytes d
    (laneActive (topMask s.regs.masks) (ftyFmt t).bytes)
    fun i => f (ftyFmt t) (laneVal (ftyFmt t).bytes (s.srcV x) i) (laneVal (ftyFmt t).bytes (s.srcV y) i) :=
  lanewise_vec2 (laneWidth_bytes t) (f (ftyFmt t)) x y

/-- R169: the destination's own lanes are the addend, with the other sign in VFMS. -/
theorem lanewise_vfma (neg : Bool) (n : Nat) : Lanewise s (s.settle (s.vfma neg n x y t)) 4 (ftyFmt t).bytes (.reg n)
    (laneActive (topMask s.regs.masks) (ftyFmt t).bytes)
    fun i => fpFma (ftyFmt t) s.fpMode false (laneVal (ftyFmt t).bytes (s.srcV x) i) (laneVal (ftyFmt t).bytes (s.srcV y) i)
      (if neg then laneVal (ftyFmt t).bytes (s.srcV (.reg n)) i ^^^ (ftyFmt t).signBit else laneVal (ftyFmt t).bytes (s.srcV (.reg n)) i) := by
  rw [State.vfma, State.lanesOf, State.lanesOf, State.lanesOf, lanes_eq_map, lanes_eq_map, lanes_eq_map, List.zip_map', List.zipWith_map,
    List.zipWith_self]
  exact lanewise_vecResult (laneWidth_bytes t)

end
end Sys2Proof.Machine

namespace Sys2Proof.Proofs
open Sys2Proof Sys2Proof.Machine

/-- Settles O15: every instruction is a function of the lanes of its operands, over the active lanes. -/
theorem vectorFloatLanes : Obligations.VectorFloatLanes := by
  intro s d n x y t f w m act a b c
  exact ⟨lanewise_vfa2 fun f => fpAdd f s.fpMode, lanewise_vfa2 fun f => fpSub f s.fpMode, lanewise_vfa2 fun f => fpMul f s.fpMode,
    lanewise_vfma false n, lanewise_vfma true n, lanewise_vfa2 fun f a b => (fpMin f a b, 0), lanewise_vfa2 fun f a b => (fpMax f a b, 0),
    lanewise_vfa1 fun f a => (a % f.signBit, 0), lanewise_vfa1 fun f a => (a ^^^ f.signBit, 0),
    lanewise_vfa2 fun f a b => (a % f.signBit + b / f.signBit * f.signBit, 0), lanewise_vfx1 fpRcp, lanewise_vfx1 fpRsq, lanewise_vfx1 fpSqrt,
    lanewise_vfx1 fpExp2, lanewise_vfx1 fpLog2, lanewise_vfx1 fpFlr, lanewise_vfx1 fun f => fpRnd f s.fpMode,
    lanewise_vec2 (laneWidth_bytes t) (fpDiv (ftyFmt t)) x y⟩

end Sys2Proof.Proofs
end

section
/-! # O16: integer lanes (06_vector, R171) -/

namespace Sys2Proof.Machine

/-! ## Lanes as words -/

theorem laneOf_eq (v : Int) : laneOf v = (BitVec.ofInt 32 v).toNat := by rw [laneOf, BitVec.toNat_ofInt]; rfl

/-- The number that VIA reads of a lane is that of a word of 32 bits. -/
theorem laneInt_laneVal (sg : Bool) (v : VReg) (i : Nat) :
    laneInt sg (laneVal 4 v i) = if sg then (BitVec.ofNat 32 (laneVal 4 v i)).toInt else (BitVec.ofNat 32 (laneVal 4 v i)).toNat := by
  rw [laneInt, BitVec.toInt_ofNat', BitVec.toNat_ofNat, Nat.mod_eq_of_lt (a := laneVal 4 v i) (laneVal_lt v i)]

theorem toNat_shiftLeft_low (a b : BitVec 32) : (a <<< (b.toNat % 32)).toNat = a.toNat * 2 ^ (b.toNat % 32) % 2 ^ 32 := by
  rw [BitVec.toNat_shiftLeft, Nat.shiftLeft_eq]

/-- An unsigned shift by the low five bits of a word. -/
theorem ofInt_shiftRight_unsigned (a b : BitVec 32) : BitVec.ofInt 32 ((a.toNat : Int) / 2 ^ ((b.toNat : Int) % 32).toNat) = a >>> (b.toNat % 32) := by
  rw [← ofNat_toNat_shiftRight, ← BitVec.ofInt_natCast]
  norm_cast

/-- An arithmetic shift by the low five bits of a word. -/
theorem ofInt_shiftRight_signed (a b : BitVec 32) :
    BitVec.ofInt 32 (a.toInt / 2 ^ (b.toInt % 32).toNat) = a.sshiftRight (b.toNat % 32) :=
  (congrArg (fun v : Int => BitVec.ofInt 32 (v / 2 ^ (b.toInt % 32).toNat)) (itySext_ityValue .i32 a).symm).trans (ofInt_aluSar .i32 a b)

theorem ofInt_natAbs (a : BitVec 32) : BitVec.ofInt 32 a.toInt.natAbs = if a.slt 0 then -a else a := by
  have hneg : a.slt 0 = decide (a.toInt < 0) := by rw [BitVec.slt_eq_decide]; rfl
  rw [hneg]
  by_cases h : a.toInt < 0
  · rw [decide_eq_true h, if_pos rfl, Int.ofNat_natAbs_of_nonpos h.le, BitVec.ofInt_neg, BitVec.ofInt_toInt]
  · rw [decide_eq_false h, if_neg Bool.false_ne_true, Int.natAbs_of_nonneg (not_lt.1 h), BitVec.ofInt_toInt]

section
variable {s : State} {d : VDst} {x y : VSrc}

/-- A function of exact numbers is a function of words, if the two agree on both readings of a word. -/
theorem lanewise_via {sg : Bool} {f : Int → Int → Int} (p : Bool → BitVec 32 → BitVec 32 → BitVec 32)
    (hz : ∀ a b : BitVec 32, BitVec.ofInt 32 (f a.toNat b.toNat) = p false a b) (hi : ∀ a b : BitVec 32, BitVec.ofInt 32 (f a.toInt b.toInt) = p true a b) :
    Lanewise s (s.settle (s.via f d x y sg)) 4 4 d (laneActive (topMask s.regs.masks) 4) fun i =>
      ((p sg (BitVec.ofNat 32 (laneVal 4 (s.srcV x) i)) (BitVec.ofNat 32 (laneVal 4 (s.srcV y) i))).toNat, 0) := by
  refine (lanewise_vec2 laneWidth_four _ x y).congr fun i _ _ => ⟨congrArg (· % 2 ^ (8 * 4)) ?_, rfl⟩
  show laneOf (f (laneInt sg _) (laneInt sg _)) = _
  rw [laneOf_eq, laneInt_laneVal, laneInt_laneVal]
  cases sg
  · exact congrArg _ (hz _ _)
  · exact congrArg _ (hi _ _)

/-- The same of an operation on bits. -/
theorem lanewise_viaBits {f : Nat → Nat → Nat} (p : BitVec 32 → BitVec 32 → BitVec 32)
    (h : ∀ a b : BitVec 32, (p a b).toNat = f a.toNat b.toNat % 2 ^ 32) :
    Lanewise s (s.settle (s.viaBits f d x y)) 4 4 d (laneActive (topMask s.regs.masks) 4) fun i =>
      ((p (BitVec.ofNat 32 (laneVal 4 (s.srcV x) i)) (BitVec.ofNat 32 (laneVal 4 (s.srcV y) i))).toNat, 0) := by
  refine (lanewise_vec2 laneWidth_four _ x y).congr fun i _ _ => ⟨congrArg (· % 2 ^ (8 * 4)) ?_, rfl⟩
  have hlt (v : VReg) : (BitVec.ofNat 32 (laneVal 4 v i)).toNat = laneVal 4 v i := Nat.mod_eq_of_lt (laneVal_lt v i)
  rw [h, hlt, hlt]

theorem lanewise_viabs : Lanewise s (exec (.viabs d x) s) 4 4 d (laneActive (topMask s.regs.masks) 4) fun i =>
    let a := BitVec.ofNat 32 (laneVal 4 (s.srcV x) i)
    ((if a.slt 0 then -a else a).toNat, 0) := by
  refine (lanewise_vec1 laneWidth_four _ x).congr fun i _ _ => ⟨congrArg (· % 2 ^ (8 * 4)) ?_, rfl⟩
  show laneOf (laneInt true _).natAbs = _
  rw [laneOf_eq, laneInt_laneVal, if_pos rfl, ofInt_natAbs]

end
end Sys2Proof.Machine

namespace Sys2Proof.Proofs
open Sys2Proof Sys2Proof.Machine

/-- Settles O16: each operation on the exact numbers of two lanes is the operation on words of 32 bits. -/
theorem vectorIntegerLanes : Obligations.VectorIntegerLanes := by
  intro s d x y sg act a b less lanes
  exact ⟨lanewise_via (fun _ p q => p + q) (ofInt_aluAdd .z32) (ofInt_aluAdd .i32),
    lanewise_via (fun _ p q => p - q) (ofInt_aluSub .z32) (ofInt_aluSub .i32),
    lanewise_via (fun _ p q => p * q) (ofInt_aluMul .z32) (ofInt_aluMul .i32),
    lanewise_viaBits (· &&& ·) fun p q => (Nat.mod_eq_of_lt (p &&& q).isLt).symm,
    lanewise_viaBits (· ||| ·) fun p q => (Nat.mod_eq_of_lt (p ||| q).isLt).symm,
    lanewise_viaBits (· ^^^ ·) fun p q => (Nat.mod_eq_of_lt (p ^^^ q).isLt).symm,
    lanewise_viaBits (fun p q => p <<< (q.toNat % 32)) toNat_shiftLeft_low,
    lanewise_via (f := fun a b => a / 2 ^ (b % 32).toNat) (fun sg p q => if sg then p.sshiftRight (q.toNat % 32) else p >>> (q.toNat % 32))
      ofInt_shiftRight_unsigned ofInt_shiftRight_signed,
    lanewise_via (fun sg p q => if (if sg then q.slt p else q.ult p) then q else p) (ofInt_aluMin .z32) (ofInt_aluMin .i32),
    lanewise_via (fun sg p q => if (if sg then p.slt q else p.ult q) then q else p) (ofInt_aluMax .z32) (ofInt_aluMax .i32), lanewise_viabs⟩

end Sys2Proof.Proofs
end

section
/-! # O17: the mask stack (06_vector, R163, R167, R168, R172) -/

namespace Sys2Proof.Machine

/-! ## Masks of lanes -/

theorem maskOf_getLsbD (l : List Bool) {i : Nat} (hi : i < 2048) : (maskOf l).getLsbD i = (l[i]?).getD false := by
  have h := testBit_joinN Nat.zero_lt_one (l.map fun b => if b then 1 else 0) i
  rw [Nat.one_mul, Nat.add_zero, Nat.pow_one, List.getElem?_map] at h
  rw [maskOf, BitVec.getLsbD_ofNat, decide_eq_true hi, Bool.true_and, h]
  rcases l[i]? with _ | _ | _ <;> rfl

theorem maskFrom_maskOf_map (c : Nat → Bool) : maskFrom c (maskOf ((List.range 2048).map c)) := fun i hi => by
  rw [maskOf_getLsbD _ hi, List.getElem?_map, List.getElem?_range hi]; rfl

theorem maskFrom_nonzeroLanes (v : VReg) : maskFrom (fun i => laneVal 4 v i != 0) (nonzeroLanes v) := by
  rw [nonzeroLanes, lanes_eq_map, List.map_map]
  exact maskFrom_maskOf_map fun i => laneVal 4 v i != 0

/-- R172: a bit of a mask stands for two lanes of two bytes, or for one of four. -/
theorem maskFrom_perBit {w : Nat} (hw : w = 2 ∨ w = 4) (c : Nat → Bool) :
    maskFrom (fun i => if w = 2 then c (2 * i) && c (2 * i + 1) else c i) (perBit w ((List.range (8192 / w)).map c)) := by
  rcases hw with rfl | rfl
  · rw [perBit, if_pos rfl, pairs_map_range c 2048]
    exact maskFrom_maskOf_map fun i => c (2 * i) && c (2 * i + 1)
  · exact maskFrom_maskOf_map c

/-! ## Issues (R167) -/

section
variable {s : State} {lat : Nat} {ok : Bool} {c : MaskChange}

theorem settle_maskIssue (h : ok = true) : s.settle (s.maskIssue lat ok c) = .next (s.queued lat 0 (.mask c)) := by subst h; rfl

theorem settle_maskIssue_raises (h : ok = false) : s.settle (s.maskIssue lat ok c) = s.raises .maskStack := by subst h; rfl

/-- R172: a compare of two registers pushes what it finds in their lanes. -/
theorem settle_compare {x y : VSrc} {w : Nat} (hw : w = 2 ∨ w = 4) (r : Nat → Nat → Bool) (h : s.projectedDepth < 8) :
    let p (i : Nat) : Bool := r (laneVal w (s.srcV x) i) (laneVal w (s.srcV y) i)
    ∃ m, maskFrom (fun i => if w = 2 then p (2 * i) && p (2 * i + 1) else p i) m
      ∧ s.settle (s.maskIssue 6 s.canPush (.push (perBit w (List.zipWith r (s.lanesOf w x) (s.lanesOf w y))))) = .next (s.queued 6 0 (.mask (.push m))) := by
  intro p
  refine ⟨_, maskFrom_perBit hw p, ?_⟩
  have hroom : s.canPush = true := decide_eq_true h
  rw [settle_maskIssue hroom, State.lanesOf, State.lanesOf, lanes_eq_map, lanes_eq_map, List.zipWith_map, List.zipWith_self]

end

/-! ## Landings (R163, R168) -/

/-- R163: no level has a lane that its parent has not. -/
def Nested (l : List Mask) : Prop := ∀ i, i + 1 < l.length → (l.getD i 0) &&& ~~~(l.getD (i + 1) 0) = 0

theorem nested_cons {x : Mask} {l : List Mask} : Nested (x :: l) ↔ x &&& ~~~(topMask l) = 0 ∧ Nested l := by
  cases l with
  | nil => simp [Nested, topMask, fullMask]
  | cons y l =>
    refine ⟨fun h => ⟨h 0 (by simp), fun i hi => h (i + 1) (Nat.succ_lt_succ hi)⟩, ?_⟩
    rintro ⟨h0, h⟩ (_ | i) hi
    · exact h0
    · exact h i (Nat.lt_of_succ_lt_succ hi)

/-- What is met with a mask lies within it. -/
theorem and_and_not_self (a b : Mask) : a &&& b &&& ~~~b = 0 := by
  rw [BitVec.and_assoc, BitVec.and_not_self]
  exact BitVec.and_zero

theorem nested_applyMask {l : List Mask} (h : Nested l) (c : MaskChange) : Nested (applyMask l c) := by
  cases c with
  | push m =>
    rw [applyMask]
    split
    · exact nested_cons.2 ⟨and_and_not_self .., h⟩
    · exact h
  | inv =>
    cases l with
    | nil => exact h
    | cons t r => exact nested_cons.2 ⟨by rw [BitVec.and_comm (topMask r), and_and_not_self], (nested_cons.1 h).2⟩
  | pop =>
    cases l with
    | nil => exact h
    | cons t r => exact (nested_cons.1 h).2
  | all => exact nofun
  | set m =>
    cases l with
    | nil => exact h
    | cons t r => exact nested_cons.2 ⟨and_and_not_self .., (nested_cons.1 h).2⟩

theorem length_applyMask {l : List Mask} (h : l.length ≤ 8) (c : MaskChange) : (applyMask l c).length ≤ 8 := by
  cases c with
  | push m =>
    rw [applyMask]
    split
    next hlt => exact hlt
    next => exact h
  | inv => cases l <;> exact h
  | pop => exact l.length_tail ▸ (Nat.sub_le ..).trans h
  | all => exact Nat.zero_le 8
  | set m => cases l <;> exact h

theorem applyMask_inv {l : List Mask} (h : l ≠ []) : applyMask l .inv = (topMask l.tail &&& ~~~(topMask l)) :: l.tail := by
  obtain ⟨t, r, rfl⟩ := List.exists_cons_of_ne_nil h; rfl

theorem applyMask_set {l : List Mask} (h : l ≠ []) (m : Mask) : applyMask l (.set m) = (m &&& topMask l.tail) :: l.tail := by
  obtain ⟨t, r, rfl⟩ := List.exists_cons_of_ne_nil h; rfl

theorem land_mask {s : State} {f : InFlight} {c : MaskChange} (h : f.what = .mask c) :
    s.land f = { s with regs := { s.regs with masks := applyMask s.regs.masks c } } := by rw [State.land, h]

end Sys2Proof.Machine

namespace Sys2Proof.Proofs
open Sys2Proof Sys2Proof.Machine

/-- Settles O17: what a change is made of and when it is refused, and that every change keeps the levels nested. -/
theorem maskStackChanges : Obligations.MaskStackChanges := by
  refine ⟨fun s x y t u => ?_, fun s f c hc hlen => ?_⟩
  · intro w f a b every cmp pushes
    have hw : w = 2 ∨ w = 4 := by cases t <;> simp [w, vtyWidth]
    have hf : f.bytes = 2 ∨ f.bytes = 4 := by cases u <;> simp [f, ftyFmt, fmtF32, fmtBf, Fmt.bytes]
    refine ⟨fun h => ?_, fun h i hi => ?_, fun h => ?_, fun h => ?_, rfl⟩
    · exact ⟨settle_compare hw _ h, settle_compare hw _ h, settle_compare hw _ h, settle_compare hw _ h, settle_compare hw _ h, settle_compare hw _ h,
        settle_compare hf (fun a b => f.isNan a || f.isNan b) h, _, maskFrom_nonzeroLanes _, settle_maskIssue (decide_eq_true h)⟩
    · have hfull : s.canPush = false := decide_eq_false (not_lt.2 h)
      simp only [List.mem_cons, List.not_mem_nil, or_false] at hi
      rcases hi with rfl | rfl | rfl | rfl | rfl | rfl | rfl | rfl <;> exact settle_maskIssue_raises hfull
    · have hlevel : s.hasLevel = true := decide_eq_true h
      exact ⟨⟨_, maskFrom_nonzeroLanes _, settle_maskIssue hlevel⟩, settle_maskIssue hlevel, settle_maskIssue hlevel⟩
    · have hlevel : s.hasLevel = false := decide_eq_false (h ▸ Nat.lt_irrefl 0)
      exact ⟨settle_maskIssue_raises hlevel, settle_maskIssue_raises hlevel, settle_maskIssue_raises hlevel⟩
  · intro m top parent now
    have hnow : now = applyMask m c := congrArg (fun t => t.regs.masks) (land_mask hc)
    refine ⟨hnow ▸ land_mask hc, hnow ▸ length_applyMask hlen c, ?_, ?_, ?_, ?_, ?_, fun h => hnow ▸ nested_applyMask h c⟩
    · rintro p rfl h
      exact hnow.trans (if_pos h)
    · rintro rfl
      exact hnow
    · rintro rfl
      exact hnow
    · rintro rfl h
      exact hnow.trans (applyMask_inv h)
    · rintro p rfl h
      exact hnow.trans (applyMask_set h p)

end Sys2Proof.Proofs
end

section
/-! # O18: VSEL and VCVT (06_vector, R172 to R174) -/

namespace Sys2Proof.Machine

/-! ## Lists over a range -/

theorem zipIdx_map_range {α : Type} (n : Nat) (f : Nat → α) : ((List.range n).map f).zipIdx = (List.range n).map fun i => (f i, i) := by
  refine List.ext_getElem? fun i => ?_
  by_cases hi : i < n
  · simp [List.getElem?_zipIdx, List.getElem?_range hi]
  · rw [List.getElem?_eq_none (by simp; omega), List.getElem?_eq_none (by simp; omega)]

theorem take_drop_map_range {α : Type} {N a n : Nat} (h : a + n ≤ N) (f : Nat → α) :
    (((List.range N).map f).drop a).take n = (List.range n).map fun j => f (a + j) := by
  refine List.ext_getElem? fun i => ?_
  by_cases hi : i < n
  · rw [List.getElem?_take_of_lt hi, List.getElem?_drop, List.getElem?_map, List.getElem?_map, List.getElem?_range (by omega), List.getElem?_range hi]
    rfl
  · rw [List.getElem?_eq_none (by simp; omega), List.getElem?_eq_none (by simp; omega)]

/-- A run of values between two runs of one value. -/
theorem padded_map_range {α : Type} {N a n : Nat} (h : a + n ≤ N) (f : Nat → α) (z : α) :
    List.replicate a z ++ (List.range n).map (fun j => f (a + j)) ++ List.replicate (N - a - n) z
      = (List.range N).map fun i => if a ≤ i ∧ i < a + n then f i else z := by
  obtain ⟨k, rfl⟩ := Nat.exists_eq_add_of_le h
  have e : a + n + k - a - n = k := by omega
  rw [e, List.range_add, List.range_add, List.map_append, List.map_append, List.map_map, List.map_map]
  refine congrArg₂ _ (congrArg₂ _ ?_ ?_) ?_
  · refine (List.eq_replicate_iff.2 ⟨by simp, fun b hb => ?_⟩).symm
    obtain ⟨i, hi, rfl⟩ := List.mem_map.1 hb
    exact if_neg fun h => absurd (List.mem_range.1 hi) (not_lt.2 h.1)
  · exact List.map_congr_left fun j hj => (if_pos ⟨Nat.le_add_right a j, Nat.add_lt_add_left (List.mem_range.1 hj) a⟩).symm
  · refine (List.eq_replicate_iff.2 ⟨by simp, fun b hb => ?_⟩).symm
    obtain ⟨i, -, rfl⟩ := List.mem_map.1 hb
    exact if_neg fun h => absurd h.2 (not_lt.2 (Nat.le_add_right (a + n) i))

/-! ## The part of a conversion (R174) -/

/-- R174: the elements of all parts fill the wider of the two registers' lanes. -/
theorem parts_mul {wf wt : Nat} (hf : LaneWidth wf) (ht : LaneWidth wt) :
    (max wf wt / min wf wt) * (8192 / max wf wt) = 8192 / min wf wt := by
  rcases hf with rfl | rfl | rfl | rfl <;> rcases ht with rfl | rfl | rfl | rfl <;> rfl

theorem applyAll_draws (s : State) (b : Bool) (es : List Effect) :
    applyAll s ((if b then drawEffects else []) ++ es) = applyAll (if b then s.drawing else s) es := by
  cases b <;> rfl

section
variable (s : State) (d : VDst) (x : VSrc) (src dst part : Nat) (md : RMode)

/-- R174: the first lane of a part in the destination, and in the source. -/
def cvtStart : Nat := if cvtWidth src ≤ cvtWidth dst then 0 else part * (8192 / max (cvtWidth src) (cvtWidth dst))
def cvtBase : Nat := if cvtWidth src ≤ cvtWidth dst then part * (8192 / max (cvtWidth src) (cvtWidth dst)) else 0

/-- R174: a part lies within the source's lanes and within the destination's. -/
theorem part_le (h : part < max (cvtWidth src) (cvtWidth dst) / min (cvtWidth src) (cvtWidth dst)) :
    cvtBase src dst part + 8192 / max (cvtWidth src) (cvtWidth dst) ≤ 8192 / cvtWidth src
      ∧ cvtStart src dst part + 8192 / max (cvtWidth src) (cvtWidth dst) ≤ 8192 / cvtWidth dst := by
  have hn := Nat.mul_le_mul_right (8192 / max (cvtWidth src) (cvtWidth dst)) h
  rw [parts_mul (laneWidth_cvtWidth src) (laneWidth_cvtWidth dst), Nat.succ_mul] at hn
  unfold cvtBase cvtStart
  rcases le_or_gt (cvtWidth src) (cvtWidth dst) with hle | hlt
  · rw [max_eq_right hle, min_eq_left hle] at hn
    rw [if_pos hle, if_pos hle, max_eq_right hle]
    exact ⟨hn, (Nat.zero_add _).le⟩
  · rw [max_eq_left hlt.le, min_eq_right hlt.le] at hn
    rw [if_neg (not_le.2 hlt), if_neg (not_le.2 hlt), max_eq_left hlt.le]
    exact ⟨(Nat.zero_add _).le, hn⟩

/-- R174: the destination's lane `i` of a conversion, and whether the part has it. -/
def State.cvtLane (i : Nat) : Nat × Flags :=
  s.cvtElem src dst md (s.srBits i) (laneVal (cvtWidth src) (s.srcV x) (cvtBase src dst part + (i - cvtStart src dst part)))
def cvtHas (i : Nat) : Bool :=
  decide (cvtStart src dst part ≤ i ∧ i < cvtStart src dst part + 8192 / max (cvtWidth src) (cvtWidth dst))

variable {part}

/-- R174: the elements of a part, as the model lists them. -/
theorem cvtElems_eq (h : part < max (cvtWidth src) (cvtWidth dst) / min (cvtWidth src) (cvtWidth dst)) :
    let n := 8192 / max (cvtWidth src) (cvtWidth dst)
    let xs := s.lanesOf (cvtWidth src) x
    (((if cvtWidth src ≤ cvtWidth dst then xs.drop (part * n) else xs).take n).zipIdx.map
        fun (v, j) => s.cvtElem src dst md (s.srBits (cvtStart src dst part + j)) v)
      = (List.range n).map fun j => s.cvtLane x src dst part md (cvtStart src dst part + j) := by
  intro n xs
  have hle := (part_le src dst part h).1
  have hdrop : (if cvtWidth src ≤ cvtWidth dst then xs.drop (part * n) else xs) = xs.drop (cvtBase src dst part) := by
    rw [cvtBase]; split <;> rfl
  rw [hdrop, show xs = _ from lanes_eq_map _ _, take_drop_map_range hle, zipIdx_map_range, List.map_map]
  refine List.map_congr_left fun j _ => ?_
  rw [State.cvtLane, Nat.add_sub_cancel_left]
  rfl

variable (part) in
/-- R174: which lanes of the destination a conversion writes, and what it finds for each. -/
def State.cvtActs : List Bool :=
  (List.range (8192 / cvtWidth dst)).map fun i => laneActive (topMask s.regs.masks) (cvtWidth dst) i && cvtHas src dst part i
variable (part) in
def State.cvtResults : List (Nat × Flags) :=
  (List.range (8192 / cvtWidth dst)).map fun i => if cvtHas src dst part i then s.cvtLane x src dst part md i else (0, 0)

theorem cvtResults_eq (h : part < max (cvtWidth src) (cvtWidth dst) / min (cvtWidth src) (cvtWidth dst)) :
    let n := 8192 / max (cvtWidth src) (cvtWidth dst)
    List.replicate (cvtStart src dst part) (0, 0) ++ (List.range n).map (fun j => s.cvtLane x src dst part md (cvtStart src dst part + j))
        ++ List.replicate (8192 / cvtWidth dst - cvtStart src dst part - n) (0, 0) = s.cvtResults x src dst part md := by
  intro n
  rw [padded_map_range (part_le src dst part h).2]
  simp only [State.cvtResults, cvtHas, decide_eq_true_eq]

theorem cvtActs_eq : (active s.top (cvtWidth dst)).zipIdx.map (fun (a, i) =>
      a && partLanes (8192 / max (cvtWidth src) (cvtWidth dst)) (if cvtWidth src ≤ cvtWidth dst then 0 else part) i) = s.cvtActs src dst part := by
  have hhas (i : Nat) : partLanes (8192 / max (cvtWidth src) (cvtWidth dst)) (if cvtWidth src ≤ cvtWidth dst then 0 else part) i
      = cvtHas src dst part i := by
    rw [partLanes, cvtHas, cvtStart, ite_mul, Nat.zero_mul]
  rw [active_eq_map s.top (laneWidth_cvtWidth dst), zipIdx_map_range, List.map_map]
  exact List.map_congr_left fun i _ => congrArg (laneActive s.top (cvtWidth dst) i && ·) (hhas i)

/-- R173: the rounding mode of a conversion, its own or that of FMT. -/
def State.cvtMode (mode : Option Nat) : RMode :=
  match mode with
  | some c => rmodeOf c
  | none => s.fpMode

/-- R174: what a conversion does: its draw, and one vector result. -/
theorem vcvt_eq (mode : Option Nat) (h : part < max (cvtWidth src) (cvtWidth dst) / min (cvtWidth src) (cvtWidth dst)) :
    let v := mapLanes (s.cvtActs src dst part) (s.cvtResults x src dst part (s.cvtMode mode))
    s.vcvt d x src dst part mode = .done ((if s.cvtMode mode == .sr && cvtDraws (cfmtOf src) (cfmtOf dst) then drawEffects else [])
      ++ [.land 6 v.2 (.vector d (ofLanes (cvtWidth dst) v.1) (laneBits (cvtWidth dst) (s.cvtActs src dst part)))]) := by
  dsimp only
  rw [← cvtResults_eq s x src dst _ h, ← cvtElems_eq s x src dst _ h, ← cvtActs_eq]
  rfl

/-- R174: a conversion is a lane function over the active lanes of its part, after the draw that stochastic rounding makes. -/
theorem lanewise_vcvt (mode : Option Nat) (h : part < max (cvtWidth src) (cvtWidth dst) / min (cvtWidth src) (cvtWidth dst)) :
    Lanewise (if s.cvtMode mode == .sr && cvtDraws (cfmtOf src) (cfmtOf dst) then s.drawing else s) (s.settle (s.vcvt d x src dst part mode)) 6
      (cvtWidth dst) d (fun i => laneActive (topMask s.regs.masks) (cvtWidth dst) i && cvtHas src dst part i)
      (s.cvtLane x src dst part (s.cvtMode mode)) := by
  rw [vcvt_eq s d x src dst mode h, settle_done, applyAll_draws]
  refine Lanewise.congr (lanewise_mapLanes (laneWidth_cvtWidth dst) fun j hj => getLsbD_laneBits_map (laneWidth_cvtWidth dst) _ hj) fun i _ ha => ?_
  rw [if_pos (Bool.and_eq_true_iff.1 ha).2]
  exact ⟨rfl, rfl⟩

end
end Sys2Proof.Machine

namespace Sys2Proof.Proofs
open Sys2Proof Sys2Proof.Machine

/-- Settles O18: VSEL chooses bit by bit within each lane, and VCVT is a function of the lanes of its part. -/
theorem vectorSelectAndConvert : Obligations.VectorSelectAndConvert := by
  intro s d x y t src dst part mode wf wt n md draws s1 lo act from_
  refine ⟨⟨_, rfl, fun i hi => laneVal_select _ _ (laneWidth_vtyWidth t) (fun j hj => getLsbD_maskBits _ (laneWidth_vtyWidth t) hj) hi⟩, fun h => ?_⟩
  have hmd : s.cvtMode mode = md := by cases mode <;> rfl
  have hs1 : (if md == .sr && cvtDraws (cfmtOf src) (cfmtOf dst) then s.drawing else s) = s1 := by
    simp only [s1, draws, Bool.and_eq_true, beq_iff_eq]
    rfl
  refine Lanewise.congr (hs1 ▸ hmd ▸ lanewise_vcvt s d x src dst mode h) fun i hi ha => ?_
  have hfrom : cvtBase src dst part + (i - cvtStart src dst part) = if wf ≤ wt then part * n + i else i - lo := by
    simp only [cvtBase, cvtStart, lo, wf, wt, n]
    split <;> simp
  rw [State.cvtLane, hfrom]
  exact ⟨rfl, rfl⟩

end Sys2Proof.Proofs
end

section
/-! # O19: sums and extremes of the active lanes (06_vector, R175) -/

namespace Sys2Proof.Machine

/-! ## The active lanes -/

/-- R164: the numbers of the active lanes, and their values. -/
def State.activeOn (s : State) (w : Nat) : List Nat := (List.range (8192 / w)).filter (laneActive (topMask s.regs.masks) w)
def State.activeVals (s : State) (w : Nat) (x : VSrc) : List Nat := (s.activeOn w).map (laneVal w (s.srcV x))

theorem activeLanes_eq (s : State) {w : Nat} (hw : LaneWidth w) (x : VSrc) :
    s.activeLanes w x = (s.activeOn w).map fun i => (laneVal w (s.srcV x) i, i) := by
  rw [State.activeLanes, State.lanesOf, lanes_eq_map, zipIdx_map_range, active_eq_map _ hw, List.zip_map', List.filterMap_map, State.activeOn,
    ← List.filterMap_eq_map, List.filterMap_filter]
  rfl

theorem activeLanes_values (s : State) {w : Nat} (hw : LaneWidth w) (x : VSrc) : (s.activeLanes w x).map (·.1) = s.activeVals w x := by
  rw [activeLanes_eq s hw, List.map_map]
  rfl

/-! ## Encodings -/

theorem two_mul_signBit (t : FTy) : 2 ^ (8 * (ftyFmt t).bytes) = 2 * (ftyFmt t).signBit := by cases t <;> rfl

theorem top_succ_lt_signBit (t : FTy) : (ftyFmt t).top + 1 < (ftyFmt t).signBit := by cases t <;> decide

theorem nan_lt_signBit (t : FTy) : (ftyFmt t).nan < (ftyFmt t).signBit := by cases t <;> decide

theorem isNan_nan (t : FTy) : (ftyFmt t).isNan (ftyFmt t).nan = true := by cases t <;> rfl

section
variable {f : Fmt}

/-- R155: the order of encodings tells them apart. -/
theorem key_injective {a b : Nat} (ha : a < 2 * f.signBit) (hb : b < 2 * f.signBit) (h : f.key a = f.key b) : a = b := by
  have hmod {x : Nat} (hx : x < 2 * f.signBit) (hle : f.signBit ≤ x) : x % f.signBit = x - f.signBit := by
    rw [Nat.mod_eq_sub_mod hle, Nat.mod_eq_of_lt (by omega)]
  unfold Fmt.key at h
  split at h <;> split at h
  next ha' hb' => rw [hmod ha ha', hmod hb hb'] at h; omega
  next ha' hb' => omega
  next ha' hb' => omega
  next ha' hb' => exact Int.ofNat.inj h

theorem withSign_lt {b : Nat} (neg : Bool) (h : b < f.signBit) : f.withSign neg b < 2 * f.signBit := by
  cases neg <;> simp [Fmt.withSign] <;> omega

section
variable (hinf : f.top + 1 < f.signBit) (hnan : f.nan < f.signBit)
include hinf hnan

theorem ovf_lt (mode : RMode) (nsat neg : Bool) : ovf f mode nsat neg < 2 * f.signBit := by
  have htop := withSign_lt neg (Nat.lt_of_succ_lt hinf)
  have hbig : (if f.infs then f.inf neg else f.nan) < 2 * f.signBit := by
    split
    · exact withSign_lt neg hinf
    · omega
  unfold ovf
  dsimp only
  generalize (if f.infs = true then f.inf neg else f.nan) = big at hbig
  split
  · exact htop
  · cases mode with
    | rne | sr => exact hbig
    | rtz => exact htop
    | rup => dsimp only; split; exacts [htop, hbig]
    | rdn => dsimp only; split; exacts [hbig, htop]

theorem round_lt (mode : RMode) (nsat neg : Bool) (n d : Nat) (e : Int) (u : Nat) : (round f mode nsat neg n d e u).1 < 2 * f.signBit := by
  unfold round
  dsimp only
  split
  · exact ovf_lt hinf hnan mode nsat neg
  next h => exact withSign_lt neg (by omega)

theorem pack_lt (a : ExactSum) (mode : RMode) : (a.pack f mode).1 < 2 * f.signBit := by
  have hpos : 0 < f.signBit := by omega
  unfold ExactSum.pack
  split_ifs
  · exact (by omega : f.nan < 2 * f.signBit)
  · exact (by omega : f.nan < 2 * f.signBit)
  · exact withSign_lt false hinf
  · exact withSign_lt true hinf
  · exact Nat.mul_pos (by decide) hpos
  · exact round_lt hinf hnan ..

end

/-! ## Extremes (R155, R175) -/

section
variable {pick : Nat → Nat → Nat} {g : Nat → Int}

/-- R175: of two numbers the one later in an order, and NaN if either is. -/
def Picks (f : Fmt) (pick : Nat → Nat → Nat) (g : Nat → Int) : Prop :=
  ∀ a b, pick a b = if f.isNan a || f.isNan b then f.nan else if g a < g b then b else a

theorem picks_fpMax : Picks f (fpMax f) f.key := fun _ _ => rfl

theorem picks_fpMin : Picks f (fpMin f) fun x => -f.key x := fun _ _ => by simp only [fpMin, neg_lt_neg_iff]

section
variable (hp : Picks f pick g)
include hp

theorem foldl_picks_nan (hn : f.isNan f.nan = true) (l : List Nat) (a : Nat) (h : f.isNan a = true ∨ ∃ z ∈ l, f.isNan z = true) :
    l.foldl pick (if f.isNan a then f.nan else a) = f.nan := by
  induction l generalizing a with
  | nil => exact if_pos (h.resolve_right (by simp))
  | cons b l ih =>
    rw [List.foldl_cons, hp]
    by_cases hab : f.isNan a = true ∨ f.isNan b = true
    · have hacc := ih f.nan (.inl hn)
      rw [if_pos hn] at hacc
      rw [if_pos, hacc]
      rcases hab with ha | hb <;> simp [*]
    · obtain ⟨ha, hb⟩ := not_or.1 hab
      obtain ⟨z, hz, hzn⟩ := h.resolve_left ha
      have hzl : ∃ z ∈ l, f.isNan z = true := (List.mem_cons.1 hz).elim (fun e => absurd (e ▸ hzn) hb) fun hz => ⟨z, hz, hzn⟩
      have hcase (c : Nat) (hc : f.isNan c ≠ true) : l.foldl pick c = f.nan := by simpa [hc] using ih c (.inr hzl)
      rw [if_neg ha, if_neg (by simp [ha, hb])]
      split
      · exact hcase b hb
      · exact hcase a ha

theorem extreme_of_nan (hn : f.isNan f.nan = true) {l : List Nat} (h : ∃ z ∈ l, f.isNan z = true) : extreme f pick l = some f.nan := by
  cases l with
  | nil => simp at h
  | cons a l => exact congrArg some (foldl_picks_nan hp hn l a (by simpa using h))

theorem foldl_picks (l : List Nat) (a : Nat) (h : ∀ z ∈ a :: l, f.isNan z = false) :
    l.foldl pick a ∈ a :: l ∧ ∀ y ∈ a :: l, g y ≤ g (l.foldl pick a) := by
  induction l generalizing a with
  | nil => simp
  | cons b l ih =>
    have hab : pick a b = if g a < g b then b else a := by rw [hp, h a (by simp), h b (by simp)]; rfl
    have hmem : pick a b = a ∨ pick a b = b := by rw [hab]; split <;> simp
    have hge : g a ≤ g (pick a b) ∧ g b ≤ g (pick a b) := by rw [hab]; split <;> omega
    obtain ⟨hin, hle⟩ := ih (pick a b) fun z hz => h z <| by
      rcases List.mem_cons.1 hz with rfl | hz
      · rcases hmem with e | e <;> simp [e]
      · simp [hz]
    rw [List.foldl_cons]
    refine ⟨?_, fun y hy => ?_⟩
    · rcases List.mem_cons.1 hin with e | hin
      · rw [e]; rcases hmem with e | e <;> simp [e]
      · simp [hin]
    · rcases List.mem_cons.1 hy with rfl | hy
      · exact hge.1.trans (hle _ List.mem_cons_self)
      · rcases List.mem_cons.1 hy with rfl | hy
        · exact hge.2.trans (hle _ List.mem_cons_self)
        · exact hle y (List.mem_cons_of_mem _ hy)

/-- R175: without a NaN, the extreme is the one value that is last in the order. -/
theorem extreme_of_last {l : List Nat} (h : ∀ z ∈ l, f.isNan z = false) {z : Nat} (hz : z ∈ l) (hle : ∀ y ∈ l, g y ≤ g z)
    (hinj : ∀ y ∈ l, g y = g z → y = z) : extreme f pick l = some z := by
  cases l with
  | nil => simp at hz
  | cons a l =>
    obtain ⟨hin, hge⟩ := foldl_picks hp l a h
    rw [extreme, h a List.mem_cons_self, if_neg Bool.false_ne_true]
    exact congrArg some (hinj _ hin (le_antisymm (hle _ hin) (hge z hz)))

end
end

/-! ## The place of the greatest (R175) -/

theorem argmax_cons (p : Nat × Nat) (l : List (Nat × Nat)) : argmax f (p :: l) = match argmax f l with
    | none => some p
    | some y => if f.isNan p.1 then some p else if f.isNan y.1 then some y else if f.key p.1 < f.key y.1 then some y else some p := rfl

theorem argmax_mem {l : List (Nat × Nat)} {y : Nat × Nat} (h : argmax f l = some y) : y ∈ l := by
  induction l generalizing y with
  | nil => cases h
  | cons p l ih =>
    rw [argmax_cons] at h
    cases hl : argmax f l with
    | none => rw [hl] at h; cases h; exact List.mem_cons_self
    | some z =>
      rw [hl] at h
      have hz := List.mem_cons_of_mem p (ih hl)
      dsimp only at h
      split_ifs at h <;> cases h
      · exact List.mem_cons_self
      · exact hz
      · exact hz
      · exact List.mem_cons_self

/-- R175: NaN is greater than every number, and the first NaN stands for all. -/
theorem argmax_first_nan {a b : List (Nat × Nat)} {p : Nat × Nat} (hp : f.isNan p.1 = true) (ha : ∀ q ∈ a, f.isNan q.1 = false) :
    argmax f (a ++ p :: b) = some p := by
  induction a with
  | nil =>
    rw [List.nil_append, argmax_cons]
    cases argmax f b with
    | none => rfl
    | some y => exact if_pos hp
  | cons q a ih =>
    rw [List.cons_append, argmax_cons, ih fun r hr => ha r (List.mem_cons_of_mem q hr)]
    simp [ha q List.mem_cons_self, hp]

/-- R175: of numbers, the first of the greatest. -/
theorem argmax_first_greatest {a b : List (Nat × Nat)} {p : Nat × Nat} (hn : ∀ q ∈ a ++ p :: b, f.isNan q.1 = false)
    (ha : ∀ q ∈ a, f.key q.1 < f.key p.1) (hb : ∀ q ∈ b, f.key q.1 ≤ f.key p.1) : argmax f (a ++ p :: b) = some p := by
  have hpn := hn p (by simp)
  induction a with
  | nil =>
    rw [List.nil_append, argmax_cons]
    cases hl : argmax f b with
    | none => rfl
    | some y =>
      have hy := argmax_mem hl
      simp [hpn, hn y (by simp [hy]), hb y hy]
  | cons q a ih =>
    rw [List.cons_append, argmax_cons, ih (fun r hr => hn r (List.mem_cons_of_mem q hr)) fun r hr => ha r (List.mem_cons_of_mem q hr)]
    simp [hn q List.mem_cons_self, hpn, ha q List.mem_cons_self]

end
end Sys2Proof.Machine
end

section
/-! # O19: prefixes and the instructions (06_vector, R175, R176) -/

namespace Sys2Proof.Machine

/-! ## Prefixes (R176) -/

section
variable (f : Fmt) (mode : RMode)

theorem scanLanes_append (l m : List (Nat × Bool)) (acc : ExactSum) : scanLanes f mode acc (l ++ m) = scanLanes f mode acc l
    ++ scanLanes f mode (((l.filter (·.2)).map (·.1)).foldl (fun a x => a.add (f.decode x)) acc) m := by
  induction l generalizing acc with
  | nil => rfl
  | cons p l ih =>
    obtain ⟨x, a⟩ := p
    cases a <;> simp [scanLanes, ih]

/-- R176: the sum of the active lanes up to one of them, rounded. -/
def prefixSum (act : Nat → Bool) (v : Nat → Nat) (i : Nat) : Nat × Flags := (exactSumOf f (((List.range (i + 1)).filter act).map v)).pack f mode

theorem scanLanes_map_range (act : Nat → Bool) (v : Nat → Nat) (n : Nat) :
    scanLanes f mode .zero ((List.range n).map fun i => (v i, act i)) = (List.range n).map fun i => if act i then prefixSum f mode act v i else (0, 0) := by
  induction n with
  | zero => rfl
  | succ n ih =>
    rw [List.range_succ, List.map_append, List.map_append, scanLanes_append, ih, List.filter_map, List.map_map]
    refine congrArg _ ?_
    cases ha : act n
    · simp [scanLanes, ha]
    · simp only [scanLanes, List.map_cons, List.map_nil, ha, if_true, prefixSum, exactSumOf, List.range_succ, List.filter_append, List.map_append,
        List.foldl_append, List.filter_cons, List.filter_nil, List.foldl_cons, List.foldl_nil]
      rfl

end

theorem filter_le_filter_range (act : Nat → Bool) {i n : Nat} (hi : i < n) :
    ((List.range n).filter act).filter (fun j => decide (j ≤ i)) = (List.range (i + 1)).filter act := by
  obtain ⟨k, rfl⟩ := Nat.exists_eq_add_of_le hi
  have hlow : ((List.range (i + 1)).filter act).filter (fun j => decide (j ≤ i)) = (List.range (i + 1)).filter act :=
    List.filter_eq_self.2 fun j hj => decide_eq_true (Nat.le_of_lt_succ (List.mem_range.1 (List.mem_of_mem_filter hj)))
  have hhigh : (((List.range k).map (i + 1 + ·)).filter act).filter (fun j => decide (j ≤ i)) = [] :=
    List.filter_eq_nil_iff.2 fun j hj => by
      obtain ⟨x, -, rfl⟩ := List.mem_map.1 (List.mem_of_mem_filter hj)
      rw [decide_eq_true_eq]
      omega
  rw [List.range_add, List.filter_append, List.filter_append, hlow, hhigh, List.append_nil]

/-! ## Instructions -/

section
variable {s : State} {d : VDst} {x : VSrc} {t : FTy}

/-- R175: `s` with a reduction in flight: its lane 0, and its entry of the scalar queue. -/
def State.reduced (s : State) (d : VDst) (v : Nat) (q : DWord) (fl : Flags) : State :=
  (s.queued 6 fl (.vector d (BitVec.ofNat 65536 v) (BitVec.allOnes 65536))).queued 6 0 (.scalar .queue q)

theorem settle_redResult (v : Nat) (q : DWord) (fl : Flags) : s.settle (redResult d v q fl) = .next (s.reduced d v q fl) := rfl

theorem settle_vxsum : s.settle (s.vxsum d x t) =
    let sum := (exactSumOf (ftyFmt t) (s.activeVals (ftyFmt t).bytes x)).pack (ftyFmt t) (arithMode s.fpMode)
    .next (s.reduced d sum.1 (BitVec.ofNat 64 sum.1) sum.2) := by
  rw [State.vxsum, activeLanes_values s (laneWidth_bytes t)]
  rfl

section
variable {pick : Fmt → Nat → Nat → Nat} {none_ : Fmt → Nat}

theorem settle_vrext_some {v : Nat} (h : extreme (ftyFmt t) (pick (ftyFmt t)) (s.activeVals (ftyFmt t).bytes x) = some v) :
    s.settle (s.vrext pick none_ d x t) = .next (s.reduced d v (BitVec.ofNat 64 v) 0) := by
  rw [State.vrext, activeLanes_values s (laneWidth_bytes t), h]
  rfl

theorem settle_vrext_none (h : s.activeVals (ftyFmt t).bytes x = []) :
    s.settle (s.vrext pick none_ d x t) = .next (s.reduced d (none_ (ftyFmt t)) (BitVec.ofNat 64 (none_ (ftyFmt t))) flagEmptyRed) := by
  rw [State.vrext, activeLanes_values s (laneWidth_bytes t), h]
  rfl

end

theorem exec_vrmax : exec (.vrmax d x t) s = s.settle (s.vrext fpMax (fun f => f.inf true) d x t) := rfl

theorem exec_vrmin : exec (.vrmin d x t) s = s.settle (s.vrext fpMin (fun f => f.inf false) d x t) := rfl

/-- R175: a value that is last in the order is the only one of its place in it. -/
theorem extreme_activeVals {pick : Nat → Nat → Nat} {g : Nat → Int} {z : Nat} (hp : Picks (ftyFmt t) pick g)
    (hg : ∀ {a b}, g a = g b → (ftyFmt t).key a = (ftyFmt t).key b) (hn : ∀ z ∈ s.activeVals (ftyFmt t).bytes x, (ftyFmt t).isNan z = false)
    (hz : z ∈ s.activeVals (ftyFmt t).bytes x) (hle : ∀ y ∈ s.activeVals (ftyFmt t).bytes x, g y ≤ g z) :
    extreme (ftyFmt t) pick (s.activeVals (ftyFmt t).bytes x) = some z := by
  have hlt {y : Nat} (hy : y ∈ s.activeVals (ftyFmt t).bytes x) : y < 2 * (ftyFmt t).signBit := by
    obtain ⟨i, -, rfl⟩ := List.mem_map.1 hy
    exact two_mul_signBit t ▸ laneVal_lt _ i
  exact extreme_of_last hp hn hz hle fun y hy e => key_injective (hlt hy) (hlt hz) (hg e)

theorem settle_vargmax_none (h : s.activeOn (ftyFmt t).bytes = []) :
    s.settle (s.vargmax d x t) = .next (s.reduced d 0xFFFFFFFF (BitVec.ofNat 64 0xFFFFFFFF) flagEmptyRed) := by
  rw [State.vargmax, activeLanes_eq s (laneWidth_bytes t), h]
  rfl

theorem settle_vargmax_some {p : Nat × Nat}
    (h : argmax (ftyFmt t) ((s.activeOn (ftyFmt t).bytes).map fun i => (laneVal (ftyFmt t).bytes (s.srcV x) i, i)) = some p) :
    s.settle (s.vargmax d x t) = .next (s.reduced d p.2 (BitVec.ofNat 64 p.2) 0) := by
  rw [State.vargmax, activeLanes_eq s (laneWidth_bytes t), h]
  rfl

/-- The active lanes before one of them, and those after it. -/
theorem activeOn_split {w i : Nat} (hi : i ∈ s.activeOn w) :
    ∃ a b, s.activeOn w = a ++ i :: b ∧ (∀ j ∈ a, j < i) ∧ ∀ j ∈ b, i < j := by
  obtain ⟨a, b, e⟩ := List.append_of_mem hi
  have hsorted : (s.activeOn w).Pairwise (· < ·) := List.pairwise_lt_range.filter _
  rw [e, List.pairwise_append, List.pairwise_cons] at hsorted
  obtain ⟨-, ⟨hb, -⟩, ha⟩ := hsorted
  exact ⟨a, b, e, fun j hj => ha j hj i List.mem_cons_self, hb⟩

theorem argmax_activeOn_nan {f : Fmt} {w i : Nat} {v : Nat → Nat} (hi : i ∈ s.activeOn w) (hn : f.isNan (v i) = true)
    (hlt : ∀ j ∈ s.activeOn w, j < i → f.isNan (v j) = false) : argmax f ((s.activeOn w).map fun i => (v i, i)) = some (v i, i) := by
  obtain ⟨a, b, e, ha, -⟩ := activeOn_split hi
  rw [e] at hlt ⊢
  rw [List.map_append, List.map_cons]
  refine argmax_first_nan hn fun q hq => ?_
  obtain ⟨j, hj, rfl⟩ := List.mem_map.1 hq
  exact hlt j (by simp [hj]) (ha j hj)

theorem argmax_activeOn_greatest {f : Fmt} {w i : Nat} {v : Nat → Nat} (hi : i ∈ s.activeOn w) (hn : ∀ j ∈ s.activeOn w, f.isNan (v j) = false)
    (hle : ∀ j ∈ s.activeOn w, f.key (v j) < f.key (v i) ∨ (f.key (v j) = f.key (v i) ∧ i ≤ j)) :
    argmax f ((s.activeOn w).map fun i => (v i, i)) = some (v i, i) := by
  obtain ⟨a, b, e, ha, -⟩ := activeOn_split hi
  rw [e] at hn hle ⊢
  rw [List.map_append, List.map_cons]
  refine argmax_first_greatest (fun q hq => ?_) (fun q hq => ?_) fun q hq => ?_
  · rw [← List.map_cons (f := fun i => (v i, i)), ← List.map_append] at hq
    obtain ⟨j, hj, rfl⟩ := List.mem_map.1 hq
    exact hn j hj
  · obtain ⟨j, hj, rfl⟩ := List.mem_map.1 hq
    exact (hle j (by simp [hj])).resolve_right fun h => absurd (ha j hj) (not_lt.2 h.2)
  · obtain ⟨j, hj, rfl⟩ := List.mem_map.1 hq
    exact (hle j (by simp [hj])).elim le_of_lt fun h => h.1.le

theorem settle_visum (sg : Bool) : s.settle (s.visum d x sg) =
    let v : Int := ((s.activeOn 4).map fun i => laneInt sg (laneVal 4 (s.srcV x) i)).sum
    .next (s.reduced d (BitVec.ofInt 32 v).toNat (BitVec.ofInt 64 v) 0) := by
  have hsum : (s.activeLanes 4 x).foldl (fun acc l => acc + laneInt sg l.1) (0 : Int)
      = ((s.activeOn 4).map fun i => laneInt sg (laneVal 4 (s.srcV x) i)).sum := by
    rw [activeLanes_eq s laneWidth_four, List.foldl_map, List.sum_eq_foldl, List.foldl_map]
  rw [State.visum, hsum, laneOf_eq, settle_redResult]

theorem popc_top : popc s.top = (s.activeOn 4).length := by
  have hbit : laneActive s.top 4 = fun i => s.top.getLsbD i := rfl
  rw [popc, foldl_count, Nat.zero_add, State.activeOn, ← List.countP_eq_length_filter, ← State.top, hbit]

/-- R176: what VSCAN leaves: the prefixes in the active lanes, and the flags that any of them sets. -/
theorem settle_vscan :
    let f := ftyFmt t
    let act := laneActive (topMask s.regs.masks) f.bytes
    let sum := (exactSumOf f (s.activeVals f.bytes x)).pack f (arithMode s.fpMode)
    let rs := (List.range (8192 / f.bytes)).map fun i => if act i then prefixSum f (arithMode s.fpMode) act (laneVal f.bytes (s.srcV x)) i else (0, 0)
    let v := mapLanes ((List.range (8192 / f.bytes)).map act) rs
    s.settle (s.vscan d x t) = .next ((s.queued 6 (v.2 ||| sum.2) (.vector d (ofLanes f.bytes v.1) (maskBits (topMask s.regs.masks) f.bytes))).queued 6 0
      (.scalar .queue (BitVec.ofNat 64 sum.1))) := by
  rw [State.vscan, State.top, activeLanes_values s (laneWidth_bytes t), State.lanesOf, lanes_eq_map, active_eq_map _ (laneWidth_bytes t), List.zip_map',
    scanLanes_map_range]
  dsimp only
  generalize ExactSum.pack _ _ _ = sum
  simp only [settle_done, applyAll_cons, applyAll_nil, apply_land]

end
end Sys2Proof.Machine

namespace Sys2Proof.Proofs
open Sys2Proof Sys2Proof.Machine

/-- Settles O19: reductions are folds over the active lanes, and the lanes of VSCAN are those folds over the lanes up to each. -/
theorem vectorReductions : Obligations.VectorReductions := by
  intro s d x t sg f w m on vals red sum
  have hn : f.isNan f.nan = true := isNan_nan t
  refine ⟨settle_vxsum, fun h => ?_, fun _ hz => ?_, fun h z hz => ?_, fun i hi h hle => ?_, fun i hi h hlt => ?_, settle_visum sg, ?_, ?_⟩
  · exact ⟨exec_vrmax.trans (settle_vrext_none h), exec_vrmin.trans (settle_vrext_none h), settle_vargmax_none (List.map_eq_nil_iff.1 h)⟩
  · exact ⟨exec_vrmax.trans (settle_vrext_some (extreme_of_nan picks_fpMax hn hz)),
      exec_vrmin.trans (settle_vrext_some (extreme_of_nan picks_fpMin hn hz))⟩
  · exact ⟨fun hle => exec_vrmax.trans (settle_vrext_some (extreme_activeVals picks_fpMax id h hz hle)),
      fun hle => exec_vrmin.trans (settle_vrext_some (extreme_activeVals picks_fpMin neg_inj.1 h hz fun y hy => neg_le_neg (hle y hy)))⟩
  · exact settle_vargmax_some (argmax_activeOn_greatest hi h hle)
  · exact settle_vargmax_some (argmax_activeOn_nan hi h hlt)
  · show s.settle (redResult d (popc s.top) (BitVec.ofNat 64 (popc s.top)) 0) = _
    rw [popc_top]
    rfl
  · refine ⟨_, _, _, settle_vscan, fun j hj => getLsbD_maskBits _ (laneWidth_bytes t) hj, ?_⟩
    have hprefix {i : Nat} (hi : i ∈ on w) : i < 8192 / w ∧ laneActive (topMask s.regs.masks) w i = true
        ∧ (exactSumOf f (((on w).filter (· ≤ i)).map (laneVal w (s.srcV x)))).pack f m
          = prefixSum f m (laneActive (topMask s.regs.masks) w) (laneVal w (s.srcV x)) i := by
      obtain ⟨hr, ha⟩ := List.mem_filter.1 hi
      exact ⟨List.mem_range.1 hr, ha, by rw [prefixSum, ← filter_le_filter_range _ (List.mem_range.1 hr)]⟩
    refine ⟨fun i hi => ?_, fun b => ?_⟩
    · obtain ⟨hlt, ha, e⟩ := hprefix hi
      have hbound : (prefixSum f m (laneActive (topMask s.regs.masks) w) (laneVal w (s.srcV x)) i).1 < 2 ^ (8 * w) :=
        two_mul_signBit t ▸ pack_lt (top_succ_lt_signBit t) (nan_lt_signBit t) _ _
      rw [laneVal_mapLanes (laneWidth_bytes t) _ _ hlt, if_pos ha, Nat.mod_eq_of_lt hbound]
      exact congrArg Prod.fst e.symm
    · rw [getLsbD_mapLanes]
      refine ⟨fun ⟨i, hlt, ha, hb⟩ => ?_, fun ⟨i, hi, hb⟩ => ?_⟩
      · have hi : i ∈ on w := List.mem_filter.2 ⟨List.mem_range.2 hlt, ha⟩
        obtain ⟨-, -, e⟩ := hprefix hi
        rw [if_pos ha] at hb
        exact ⟨i, hi, (congrArg (fun p : Nat × Flags => p.2.getLsbD b) e).trans hb⟩
      · obtain ⟨hlt, ha, e⟩ := hprefix hi
        exact ⟨i, hlt, ha, by rw [if_pos ha, ← e]; exact hb⟩

end Sys2Proof.Proofs
end

section
/-! # O20: permutes (06_vector, R168, R177) -/

namespace Sys2Proof.Machine

section
variable {s : State} {d : VDst} {t : PTy}

theorem lanewise_permute (f : Nat → Nat) :
    Lanewise s (s.settle (s.permute d t f)) 6 (ptyWidth t) d (laneActive (topMask s.regs.masks) (ptyWidth t)) fun i => (f i, 0) :=
  lanewise_vecResult (laneWidth_ptyWidth t)

theorem bits_zero {n w : Nat} (v : BitVec n) : bits v 0 w = v.toNat % 2 ^ w := by rw [bits, Nat.pow_zero, Nat.div_one]

/-- A rotation of a list over a range. -/
theorem rotate_map_range {α : Type} {n : Nat} (hn : 0 < n) (k : Nat) (f : Nat → α) :
    ((List.range n).map f).drop (k % n) ++ ((List.range n).map f).take (k % n) = (List.range n).map fun j => f ((j + k) % n) := by
  have hk : k % n < n := Nat.mod_lt k hn
  rw [← List.rotate_eq_drop_append_take (by simpa using hk.le)]
  refine List.ext_getElem? fun j => ?_
  by_cases hj : j < n
  · rw [List.getElem?_rotate (by simpa using hj), List.length_map, List.length_range, List.getElem?_map, List.getElem?_map,
      List.getElem?_range (Nat.mod_lt _ hn), List.getElem?_range hj, Nat.add_mod_mod]
    rfl
  · rw [List.getElem?_eq_none (by simpa using hj), List.getElem?_eq_none (by simpa using hj)]

theorem lanewise_vrot (x : VSrc) (b : SSrc) : Lanewise s (exec (.vrot d x b t) s) 6 (ptyWidth t) d (laneActive (topMask s.regs.masks) (ptyWidth t))
    fun j => (laneVal (ptyWidth t) (s.srcV x) ((j + (s.srcS b).toNat) % (8192 / ptyWidth t)), 0) := by
  have hpos : 0 < 8192 / ptyWidth t := by cases t <;> decide
  show Lanewise s (execVrot d x b t s) _ _ _ _ _
  rw [execVrot, State.lanesOf, lanes_eq_map, ptyLanes, rotate_map_range hpos, List.map_map]
  exact lanewise_vecResult (laneWidth_ptyWidth t)

/-- R177: the lane that VPERM takes: of bytes, one of the same 256. -/
theorem lanewise_vperm (x y : VSrc) : Lanewise s (exec (.vperm d x y t) s) 6 (ptyWidth t) d (laneActive (topMask s.regs.masks) (ptyWidth t)) fun j =>
    (laneVal (ptyWidth t) (s.srcV x) (if ptyWidth t = 1 then 256 * (j / 256) + laneVal (ptyWidth t) (s.srcV y) j
      else laneVal (ptyWidth t) (s.srcV y) j % (8192 / ptyWidth t)), 0) := by
  have hbytes : t = .w8 ↔ ptyWidth t = 1 := by cases t <;> decide
  show Lanewise s (execVperm d x y t s) _ _ _ _ _
  rw [execVperm, State.lanesOf, lanes_eq_map, zipIdx_map_range, List.map_map]
  refine (lanewise_vecResult (laneWidth_ptyWidth t)).congr fun j _ _ => ?_
  simp only [Function.comp_apply, laneAt_eq_laneVal, hbytes, ptyLanes, and_self]

/-- A field of ones that begins at bit `p`. -/
theorem testBit_ones_mul (c p j : Nat) : ((2 ^ c - 1) * 2 ^ p).testBit j = decide (p ≤ j ∧ j < p + c) := by
  rw [Nat.testBit_mul_two_pow, Nat.testBit_two_pow_sub_one, ← Bool.decide_and]
  exact decide_eq_decide.2 (by omega)

theorem div_eq_iff_between {c i j : Nat} (hc : 0 < c) : j / c = i ↔ c * i ≤ j ∧ j < c * i + c := by
  rw [← Nat.mul_succ, Nat.mul_comm c i, Nat.mul_comm c i.succ, ← Nat.le_div_iff_mul_le hc, ← Nat.div_lt_iff_lt_mul hc]
  omega

theorem toNat_ofNat_mul_two_pow {v c p n : Nat} (hv : v < 2 ^ c) (h : c + p ≤ n) : (BitVec.ofNat n (v * 2 ^ p)).toNat = v * 2 ^ p := by
  have hlt : v * 2 ^ p < 2 ^ n := calc
    v * 2 ^ p < 2 ^ c * 2 ^ p := Nat.mul_lt_mul_of_pos_right hv (Nat.two_pow_pos p)
    _ = 2 ^ (c + p) := (Nat.pow_add ..).symm
    _ ≤ 2 ^ n := Nat.pow_le_pow_right Nat.zero_lt_two h
  rw [BitVec.toNat_ofNat, Nat.mod_eq_of_lt hlt]

/-- A number that fits in a lane, alone in its place. -/
theorem laneVal_ofNat_mul {w i v : Nat} (hw : LaneWidth w) (hi : i < 8192 / w) (hv : v < 2 ^ (8 * w)) :
    laneVal w (BitVec.ofNat 65536 (v * 2 ^ (8 * w * i))) i = v := by
  have hpos : 0 < 2 ^ (8 * w * i) := Nat.two_pow_pos _
  have hle : 8 * w + 8 * w * i ≤ 65536 := by
    rw [Nat.add_comm, ← Nat.mul_succ, ← hw.mul_lanes]
    exact Nat.mul_le_mul_left _ hi
  rw [laneVal_eq_div_mod, toNat_ofNat_mul_two_pow hv hle, Nat.mul_div_cancel _ hpos, Nat.mod_eq_of_lt hv]

/-- R177: VINS writes its lane whatever the mask is. -/
theorem lanewise_vins (n : Nat) (a b : SSrc) : Lanewise s (exec (.vins n a b t) s) 6 (ptyWidth t) (.reg n)
    (fun j => decide (j = (s.srcS b).toNat % (8192 / ptyWidth t))) fun _ => ((s.srcS a).toNat % 2 ^ (8 * ptyWidth t), 0) := by
  have hw := laneWidth_ptyWidth t
  have hwpos : 0 < 8 * ptyWidth t := Nat.mul_pos (by decide) hw.pos
  refine ⟨_, _, _, rfl, fun j hj => ?_, fun i hi ha => ?_, fun b => by simp⟩
  · rw [BitVec.getLsbD_ofNat, decide_eq_true hj, Bool.true_and, testBit_ones_mul]
    exact decide_eq_decide.2 (div_eq_iff_between hwpos).symm
  · obtain rfl := of_decide_eq_true ha
    refine (laneVal_ofNat_mul hw hi (Nat.mod_lt _ (Nat.two_pow_pos _))).trans ?_
    rw [Nat.pow_zero, Nat.div_one, Nat.mod_mod]

/-- R168: MGET writes ones in the active lanes. -/
theorem laneVal_maskBits (m : Mask) {j : Nat} (hj : j < 2048) : laneVal 4 (maskBits m 4) j = if m.getLsbD j then 0xFFFFFFFF else 0 := by
  refine Nat.eq_of_testBit_eq fun k => ?_
  rw [testBit_laneVal]
  by_cases hk : k < 32
  · have hlane : (32 * j + k) / (8 * 4) = j := by omega
    rw [getLsbD_maskBits m laneWidth_four (by omega), hlane, decide_eq_true hk, Bool.true_and]
    show m.getLsbD j = _
    cases m.getLsbD j
    · simp
    · exact ((Nat.testBit_two_pow_sub_one 32 k).trans (decide_eq_true hk)).symm
  · rw [decide_eq_false hk, Bool.false_and, apply_ite (Nat.testBit · k), Nat.zero_testBit]
    have hones : Nat.testBit 0xFFFFFFFF k = false := (Nat.testBit_two_pow_sub_one 32 k).trans (decide_eq_false hk)
    rw [hones, ite_self]

end
end Sys2Proof.Machine

namespace Sys2Proof.Proofs
open Sys2Proof Sys2Proof.Machine

/-- Settles O20: where each lane comes from. -/
theorem vectorPermutes : Obligations.VectorPermutes := by
  intro s d e n x y a b t w c act i
  refine ⟨?_, lanewise_vrot x b, lanewise_vperm x y, lanewise_permute _, ?_, lanewise_vins n a b, _, rfl, fun j hj => laneVal_maskBits _ hj⟩
  · rw [← bits_zero]
    exact lanewise_permute _
  · rw [← laneAt_eq_laneVal]
    rfl

end Sys2Proof.Proofs
end

section
/-! # O21: whole registers of the scratchpad (06_vector, R178, R179; 08_scratchpad, R207, R210) -/

namespace Sys2Proof.Machine

/-! ## Bytes of a register (R60) -/

theorem getElem?_leNat (bs : List Byte) {i : Nat} (hi : i < bs.length) : bs[i]? = some (BitVec.ofNat 8 (leNat bs / 256 ^ i)) := by
  have h := toBytes_getElem? bs.length (leNat bs) i hi
  rwa [toBytes_leNat] at h

theorem laneVal_vregOf (bs : List Byte) {i : Nat} (hi : i < 8192) : laneVal 1 (vregOf bs) i = (BitVec.ofNat 8 (leNat bs / 256 ^ i)).toNat := by
  have hpow : 256 ^ i = 2 ^ (8 * i) := (Nat.pow_mul 2 8 i).symm
  refine Nat.eq_of_testBit_eq fun j => ?_
  rw [testBit_laneVal_width, BitVec.toNat_ofNat, Nat.testBit_mod_two_pow, hpow, Nat.testBit_div_two_pow]
  by_cases hj : j < 8
  · rw [vregOf, BitVec.getLsbD_ofNat, decide_eq_true (by omega : 8 * 1 * i + j < 65536), Bool.true_and, Nat.add_comm j]
  · rw [decide_eq_false hj, Bool.false_and, Bool.false_and]

/-- A register that is read from memory holds its bytes. -/
theorem laneVal_vregOf_bytes {m : Memory} (a : Nat) (ok : Memory.wf m = true) {i : Nat} (hi : i < 8192) :
    laneVal 1 (vregOf (Memory.bytes m a 8192)) i = (Memory.read m (a + i)).toNat := by
  have hbyte := getElem?_leNat (Memory.bytes m a 8192) (i := i) (by rwa [Memory.bytes_length])
  rw [Memory.bytes_eq a 8192 ok, List.getElem?_map, List.getElem?_range hi, ← Memory.bytes_eq a 8192 ok] at hbyte
  rw [laneVal_vregOf _ hi, ← Option.some.inj hbyte]

/-! ## The address and its checks (R178) -/

/-- R178: the address that an access of a whole register forms, and an address of one. -/
def State.vmemAt (s : State) (x : SSrc) (off : Int) : Int := (bits (s.srcS x) 0 28 : Int) + 64 * off
def VmemGood (a : Nat) : Prop := a < 2 ^ 28 ∧ a % 64 = 0 ∧ spExtent a 8192 = true

section
variable {s : State} {x : SSrc} {off : Int} {near : Bool} {u : VUse} {a : Nat}

theorem vmemAddr_checks : s.vmemAddr x off near u =
    (check (decide (0 ≤ s.vmemAt x off ∧ s.vmemAt x off < 2 ^ 28 ∧ s.vmemAt x off % 64 = 0) && spExtent (s.vmemAt x off).toNat 8192)
        .scratchpadAddress >>= fun _ =>
      check (!near || decide (vaultOf (s.vmemAt x off).toNat < 16)) .nearVault >>= fun _ =>
      s.spCheck (s.vmemAt x off).toNat 8192 u >>= fun _ => .ok (s.vmemAt x off).toNat) := rfl

theorem vmemAddr_eq_of_not (h : ∀ a : Nat, s.vmemAt x off = a → ¬ VmemGood a) :
    s.vmemAddr x off near u = .error (.trap { cause := .scratchpadAddress }) := by
  have hbad : (decide (0 ≤ s.vmemAt x off ∧ s.vmemAt x off < 2 ^ 28 ∧ s.vmemAt x off % 64 = 0) && spExtent (s.vmemAt x off).toNat 8192) = false := by
    rw [Bool.eq_false_iff]
    intro hgood
    obtain ⟨hrange, hext⟩ := Bool.and_eq_true_iff.1 hgood
    obtain ⟨hpos, hlt, hmod⟩ := of_decide_eq_true hrange
    exact h _ (Int.toNat_of_nonneg hpos).symm ⟨by omega, by omega, hext⟩
  rw [vmemAddr_checks, hbad, check_false, error_bind]

section
variable (hat : s.vmemAt x off = a) (hg : VmemGood a)
include hat hg

theorem vmemAddr_eq : s.vmemAddr x off near u =
    (check (!near || decide (vaultOf a < 16)) .nearVault >>= fun _ => s.spCheck a 8192 u >>= fun _ => .ok a) := by
  obtain ⟨hlt, hmod, hext⟩ := hg
  rw [vmemAddr_checks, hat, Int.toNat_natCast, hext, decide_eq_true ⟨by omega, by omega, by omega⟩]
  rfl

theorem vmemAddr_far (h : 16 ≤ vaultOf a) : s.vmemAddr x off true u = .error (.trap { cause := .nearVault }) := by
  rw [vmemAddr_eq hat hg, decide_eq_false (not_lt.2 h)]
  rfl

variable (hn : near = true → vaultOf a < 16)
include hn

theorem vmemAddr_ok (hu : s.mayUse a 8192 u) : s.vmemAddr x off near u = .ok a := by
  have hnear : (!near || decide (vaultOf a < 16)) = true := by cases near <;> simp [*]
  rw [vmemAddr_eq hat hg, hnear, spCheck_of_mayUse hu]
  rfl

theorem vmemAddr_undisciplined (hu : ¬ (s.k.priv = true ∨ s.discipline (vaultOf a) u = true)) :
    s.vmemAddr x off near u = .error (.trap { cause := .vaultDiscipline }) := by
  have hnear : (!near || decide (vaultOf a < 16)) = true := by cases near <;> simp [*]
  obtain ⟨hp, hd⟩ := not_or.1 hu
  rw [vmemAddr_eq hat hg, hnear, State.spCheck, hg.2.2, Bool.eq_false_iff.2 hp, Bool.eq_false_iff.2 hd]
  rfl

end

/-! ## Issues (R178, R179) -/

section
variable {lat : Nat} {d : VDst} {v : VSrc} {c : Cause} (hr : s.regional)
include hr

theorem settle_vldIssue (ha : s.vmemAddr x off near .read = .ok a) (hb : s.bankWait (banksOf [(a, 8192)]) = .ok ()) :
    s.settle (s.vldIssue lat near d x off) = .next ((s.queued lat 0
      (.vector d (vregOf (Memory.bytes s.sp a 8192)) (BitVec.allOnes 65536))).banking (banksOf [(a, 8192)]) lat) := by
  rw [State.vldIssue, needRegion_of_regional hr, ha]
  simp only [ok_bind, hb, issueOf_ok, settle_done, applyAll_cons, applyAll_nil, apply_land, apply_banks]

theorem settle_vldIssue_cause (ha : s.vmemAddr x off near .read = .error (.trap { cause := c })) :
    s.settle (s.vldIssue lat near d x off) = s.raises c := by
  rw [State.vldIssue, needRegion_of_regional hr, ha]
  rfl

theorem settle_vstIssue (ha : s.vmemAddr x off near .write = .ok a) (hw : s.storeWaits [(a, 8192)] = .ok ())
    (hb : s.bankWait (banksOf [(a, 8192)]) = .ok ()) :
    s.settle (s.vstIssue lat near v x off) = .next ((s.queued lat 0 (.store a (s.srcV v))).banking (banksOf [(a, 8192)]) lat) := by
  rw [State.vstIssue, needRegion_of_regional hr, ha]
  simp only [ok_bind, hw, hb, issueOf_ok, settle_done, applyAll_cons, applyAll_nil, apply_land, apply_banks]

theorem settle_vstIssue_cause (ha : s.vmemAddr x off near .write = .error (.trap { cause := c })) :
    s.settle (s.vstIssue lat near v x off) = s.raises c := by
  rw [State.vstIssue, needRegion_of_regional hr, ha]
  rfl

/-- R178: an address that no whole register has faults alike in the four accesses. -/
theorem exec_vmem_address (h : ∀ a : Nat, s.vmemAt x off = a → ¬ VmemGood a) :
    ∀ i ∈ [Instr.vld d x off, .vldn d x off, .vst v x off, .vstn v x off], exec i s = s.raises .scratchpadAddress := by
  intro i hi
  simp only [List.mem_cons, List.not_mem_nil, or_false] at hi
  rcases hi with rfl | rfl | rfl | rfl
  · exact settle_vldIssue_cause hr (vmemAddr_eq_of_not h)
  · exact settle_vldIssue_cause hr (vmemAddr_eq_of_not h)
  · exact settle_vstIssue_cause hr (vmemAddr_eq_of_not h)
  · exact settle_vstIssue_cause hr (vmemAddr_eq_of_not h)

end
end
end Sys2Proof.Machine

namespace Sys2Proof.Proofs
open Sys2Proof Sys2Proof.Machine

/-- Settles O21: the four accesses share one address and its checks. -/
theorem vectorLoadsAndStores : Obligations.VectorLoadsAndStores := by
  intro s d v x off a at_ good may bs free loads hr
  have hfar : false = true → vaultOf a < 16 := nofun
  refine ⟨fun hat hg hwf hm hf => ?_, fun hat hg hm hf hw => ?_, fun hat hg h => ?_, fun hat hg => ?_, fun hneg => ?_,
    fun hat hg hm => ?_, fun hat hg hm => ?_⟩
  · have hu : s.mayUse a 8192 .read := ⟨⟨hg.2.2, hm⟩, hf.2⟩
    exact ⟨⟨_, settle_vldIssue hr (vmemAddr_ok hat hg hfar hu) hf.1, fun i hi => laneVal_vregOf_bytes a hwf hi⟩,
      fun hn => ⟨_, settle_vldIssue hr (vmemAddr_ok hat hg (fun _ => hn) hu) hf.1, fun i hi => laneVal_vregOf_bytes a hwf hi⟩⟩
  · have hu : s.mayUse a 8192 .write := ⟨⟨hg.2.2, hm⟩, hf.2⟩
    exact ⟨settle_vstIssue hr (vmemAddr_ok hat hg hfar hu) hw hf.1, fun hn => settle_vstIssue hr (vmemAddr_ok hat hg (fun _ => hn) hu) hw hf.1⟩
  · exact ⟨settle_vldIssue_cause hr (vmemAddr_far hat hg h), settle_vstIssue_cause hr (vmemAddr_far hat hg h)⟩
  · exact exec_vmem_address hr fun b hb => Int.ofNat.inj (hat.symm.trans hb) ▸ hg
  · exact exec_vmem_address hr fun b hb => absurd (hb ▸ hneg : (b : Int) < 0) (by omega)
  · exact ⟨settle_vldIssue_cause hr (vmemAddr_undisciplined hat hg hfar hm),
      fun hn => settle_vldIssue_cause hr (vmemAddr_undisciplined hat hg (fun _ => hn) hm)⟩
  · exact ⟨settle_vstIssue_cause hr (vmemAddr_undisciplined hat hg hfar hm),
      fun hn => settle_vstIssue_cause hr (vmemAddr_undisciplined hat hg (fun _ => hn) hm)⟩

end Sys2Proof.Proofs
end

section
/-! # O22: gathers, strided loads and scatters (06_vector, R180, R181; 08_scratchpad, R210) -/

namespace Sys2Proof.Machine

section
variable {s : State} {d : VDst} {v y : VSrc} {x z : SSrc} {w : EW}

theorem vgsBase_of_aligned (h : bits (s.srcS x) 0 28 % ewBytes w = 0) : s.vgsBase x w = .ok (bits (s.srcS x) 0 28) := by
  have hbase : (bits (s.srcS x) 0 28 % ewBytes w == 0) = true := beq_iff_eq.2 h
  show (check (bits (s.srcS x) 0 28 % ewBytes w == 0) _ >>= _) = _
  rw [hbase]
  rfl

theorem applyAll_resumes (s : State) (res : Bool) (es : List Effect) :
    applyAll s ((if res then [.resumes] else []) ++ es) = applyAll (if res then s.resuming else s) es := by cases res <;> rfl

section
variable (hr : s.regional) (ha : bits (s.srcS x) 0 28 % ewBytes w = 0)
include hr ha

theorem settle_vgathIssue (res : Bool) (hc : s.noClash (vDstUnits d)) :
    let bs := banksOf (scatterExtents (bits (s.srcS x) 0 28) (ewBytes w) (active s.top 4) (s.lanesOf 4 y))
    let t := (s.writesOf (vDstUnits d)).banking bs 32
    s.bankWait bs = .ok () → s.settle (s.vgathIssue d x y res w) = .next ((if res then t.resuming else t).awaiting
      ⟨0, 0, 0, false, false, none, some d, maskBits s.top 4, none, 32, false, .no, .gather (bits (s.srcS x) 0 28) (s.srcV y) s.top w res⟩) := by
  intro bs t hb
  obtain ⟨us, hus, hwrites⟩ := varWrite_of_noClash hc
  rw [State.vgathIssue, needRegion_of_regional hr, vgsBase_of_aligned ha, hus]
  simp only [ok_bind]
  rw [hb]
  simp only [ok_bind, issueOf_ok, settle_done, List.append_assoc, applyAll_append s us, hwrites, List.cons_append, List.nil_append, applyAll_cons,
    apply_banks, applyAll_resumes, apply_wait, applyAll_nil]
  rfl

theorem settle_vldsIssue (hc : s.noClash (vDstUnits d)) (hz : (s.srcS z).toInt % ewBytes w = 0) :
    let bs := banksOf (stridedExtents (bits (s.srcS x) 0 28) (ewBytes w) (s.srcS z) s.top)
    s.bankWait bs = .ok () → s.settle (s.vldsIssue d x z w) = .next (((s.writesOf (vDstUnits d)).banking bs 32).awaiting
      ⟨0, 0, 0, false, false, none, some d, maskBits s.top (ewBytes w), none, 32, false, .no, .strided (bits (s.srcS x) 0 28) (s.srcS z) s.top w⟩) := by
  intro bs hb
  obtain ⟨us, hus, hwrites⟩ := varWrite_of_noClash hc
  rw [State.vldsIssue, needRegion_of_regional hr, vgsBase_of_aligned ha, hus, decide_eq_true hz]
  simp only [ok_bind, check_true]
  rw [hb]
  simp only [ok_bind, issueOf_ok, settle_done, applyAll_append s us, hwrites, applyAll_cons, apply_banks, apply_wait, applyAll_nil]
  rfl

theorem settle_vscatIssue (res : Bool) :
    let xs := scatterExtents (bits (s.srcS x) 0 28) (ewBytes w) (active s.top 4) (s.lanesOf 4 y)
    let t := s.banking (banksOf xs) 32
    s.storeWaits xs = .ok () → s.bankWait (banksOf xs) = .ok () → s.settle (s.vscatIssue v x y res w) = .next ((if res then t.resuming else t).awaiting
      ⟨0, 0, 0, false, false, none, none, 0, none, 32, true, .no, .scatter (bits (s.srcS x) 0 28) (s.srcV v) (s.srcV y) s.top w res⟩) := by
  intro xs t hw hb
  rw [State.vscatIssue, needRegion_of_regional hr, vgsBase_of_aligned ha]
  simp only [ok_bind]
  rw [hw, ok_bind, hb]
  simp only [ok_bind, issueOf_ok, settle_done, List.cons_append, applyAll_cons, apply_banks, applyAll_resumes, apply_wait, applyAll_nil]
  rfl

end
end
end Sys2Proof.Machine

namespace Sys2Proof.Proofs
open Sys2Proof Sys2Proof.Machine

/-- Settles O22: each marks what it will write and its banks, and waits. -/
theorem gathersAndScatters : Obligations.GathersAndScatters := by
  intro s d v y x z res w b top again xs zs hr ha
  exact ⟨fun hc hb => settle_vgathIssue hr ha res hc hb, fun hc hz hb => settle_vldsIssue hr ha hc hz hb,
    fun hw hb => settle_vscatIssue hr ha res hw hb⟩

end Sys2Proof.Proofs
end

section
/-! # O23, O24: lists that stand for a range of places (05_formats, R146; 07_matrix, R188) -/

namespace Sys2Proof.Machine

/-- A list is its elements by place. -/
theorem eq_map_range {α : Type} (l : List α) (z : α) : l = (List.range l.length).map fun i => (l[i]?).getD z := by
  refine List.ext_getElem? fun i => ?_
  rw [List.getElem?_map]
  by_cases hi : i < l.length
  · rw [List.getElem?_range hi, Option.map_some, List.getElem?_eq_getElem hi, Option.getD_some]
  · rw [List.getElem?_eq_none (not_lt.1 hi), List.getElem?_eq_none (by simpa using hi)]
    rfl

/-- Rows of one length, one after the other. -/
theorem flatMap_map_range {α : Type} (f : Nat → Nat → α) {n : Nat} (hn : 0 < n) (m : Nat) :
    ((List.range m).flatMap fun i => (List.range n).map (f i)) = (List.range (m * n)).map fun k => f (k / n) (k % n) := by
  induction m with
  | zero => simp
  | succ m ih =>
    have hlast : (List.range n).map ((fun k => f (k / n) (k % n)) ∘ (m * n + ·)) = (List.range n).map (f m) := by
      refine List.map_congr_left fun j hj => ?_
      have hj := List.mem_range.1 hj
      rw [Function.comp_apply, Nat.mul_comm, Nat.mul_add_div hn, Nat.div_eq_of_lt hj, Nat.mul_add_mod, Nat.mod_eq_of_lt hj, Nat.add_zero]
    rw [List.range_succ, List.flatMap_append, ih, Nat.succ_mul, List.range_add, List.map_append, List.map_map, hlast, List.flatMap_singleton]

theorem toBytes_eq_map (n v : Nat) : toBytes n v = (List.range n).map fun i => BitVec.ofNat 8 (v / 256 ^ i) := by
  refine List.ext_getElem? fun i => ?_
  by_cases hi : i < n
  · rw [toBytes_getElem? n v i hi, List.getElem?_map, List.getElem?_range hi]
    rfl
  · rw [List.getElem?_eq_none (by simpa using hi), List.getElem?_eq_none (by simpa using hi)]

theorem leNat_append (as bs : List Byte) : leNat (as ++ bs) = leNat as + 256 ^ as.length * leNat bs := by
  induction as with
  | nil => simp [leNat]
  | cons a as ih => rw [List.cons_append, leNat, ih, leNat, List.length_cons]; ring

/-- R7: the bytes of a word between others are that word. -/
theorem leNat_middle (as bs cs : List Byte) : leNat (as ++ (bs ++ cs)) / 256 ^ as.length % 256 ^ bs.length = leNat bs := by
  rw [leNat_append, leNat_append, Nat.add_mul_div_left _ _ (by positivity), Nat.div_eq_of_lt (leNat_lt as), Nat.zero_add, Nat.add_mul_mod_self_left,
    Nat.mod_eq_of_lt (leNat_lt bs)]

theorem bytes_add {m : Memory} (a k n : Nat) (ok : Memory.wf m = true) :
    Memory.bytes m a (k + n) = Memory.bytes m a k ++ Memory.bytes m (a + k) n := by
  rw [Memory.bytes_eq a _ ok, Memory.bytes_eq a k ok, Memory.bytes_eq (a + k) n ok, List.range_add, List.map_append, List.map_map]
  simp only [Function.comp_def, Nat.add_assoc]

/-- An extent of words, cut into them. -/
theorem splitN_bytes {m : Memory} (a n c : Nat) (ok : Memory.wf m = true) :
    splitN c (2 ^ (8 * n)) (leNat (Memory.bytes m a (c * n))) = (List.range c).map fun i => Memory.word m (a + n * i) n := by
  refine List.ext_getElem? fun i => ?_
  by_cases hi : i < c
  · obtain ⟨r, hr⟩ : ∃ r, c * n = n * i + (n + r) := by
      obtain ⟨r, rfl⟩ := Nat.exists_eq_add_of_lt hi
      exact ⟨r * n, by ring⟩
    have hpow : (2 ^ (8 * n)) ^ i = 256 ^ (n * i) := by rw [pow_mul, ← pow_mul]; norm_num
    have hbase : 2 ^ (8 * n) = 256 ^ n := pow_mul 2 8 n
    have hword := leNat_middle (Memory.bytes m a (n * i)) (Memory.bytes m (a + n * i) n) (Memory.bytes m (a + n * i + n) r)
    rw [← bytes_add _ _ _ ok, ← bytes_add _ _ _ ok, ← hr, Memory.bytes_length, Memory.bytes_length, ← hpow, ← hbase] at hword
    rw [splitN_getElem? _ _ _ hi, hword, List.getElem?_map, List.getElem?_range hi]
    rfl
  · rw [List.getElem?_eq_none (by rw [length_splitN]; omega), List.getElem?_eq_none (by simp; omega)]

/-- A fold that joins a part of each element: a bit that a join keeps from either side is set where some element sets it. -/
theorem foldl_join_iff {α M : Type} {join : M → M → M} {b : M → Bool} (hb : ∀ m n, b (join m n) = (b m || b n)) (g : α → M) (l : List α) (m : M) :
    b (l.foldl (fun m r => join m (g r)) m) = true ↔ b m = true ∨ ∃ r ∈ l, b (g r) = true := by
  induction l generalizing m with
  | nil => simp
  | cons r l ih => simp [ih, hb, or_assoc]

/-! ## The cells of a version (R188) -/

/-- R188: the cell at a place of a version. -/
def Tile.cell (t : Tile) (i : Nat) : Cell := (t.dense[i]?).getD .zero

theorem length_denseFrom (n i : Nat) (l : List (Nat × Cell)) : (denseFrom n i l).length = n := by
  induction n generalizing i l with
  | zero => rfl
  | succ n ih =>
    cases l with
    | nil => rw [denseFrom, List.length_cons, ih]
    | cons c l =>
      rw [denseFrom]
      split
      · rw [List.length_cons, ih]
      · rw [List.length_cons, ih]

/-- A place that the sparse form leaves out holds zero. -/
theorem denseFrom_skip {n i : Nat} {l : List (Nat × Cell)} (h : ∀ c ∈ l, c.1 ≠ i) : denseFrom (n + 1) i l = .zero :: denseFrom n (i + 1) l := by
  cases l with
  | nil => rfl
  | cons c l => exact if_neg (h c List.mem_cons_self)

theorem denseFrom_zipIdx (l : List Cell) (i : Nat) :
    denseFrom l.length i (((l.zipIdx i).filter fun c => c.1 != .zero).map fun c => (c.2, c.1)) = l := by
  induction l generalizing i with
  | nil => rfl
  | cons c l ih =>
    rw [List.zipIdx_cons, List.length_cons, List.filter_cons]
    by_cases hc : c = .zero
    · have hlater : ∀ d ∈ ((l.zipIdx (i + 1)).filter fun c => c.1 != .zero).map fun c => (c.2, c.1), d.1 ≠ i := by
        intro d hd
        obtain ⟨x, hx, rfl⟩ := List.mem_map.1 hd
        have hle : i + 1 ≤ x.2 := List.le_snd_of_mem_zipIdx (List.mem_of_mem_filter hx)
        exact (Nat.lt_of_succ_le hle).ne'
      rw [hc, if_neg (by simp), denseFrom_skip hlater, ih]
    · rw [if_pos (by simpa using hc), List.map_cons, denseFrom, if_pos rfl, ih]

theorem length_dense (t : Tile) : t.dense.length = 16384 := length_denseFrom _ _ _

theorem dense_eq_map (t : Tile) : t.dense = (List.range 16384).map t.cell := by
  have h := eq_map_range t.dense .zero
  rwa [length_dense] at h

/-- R188: what a version of some cells holds. -/
theorem cell_sparse (a : BitVec 10) (f : Nat → Cell) {i : Nat} (hi : i < 16384) : Tile.cell ⟨a, sparse ((List.range 16384).map f)⟩ i = f i := by
  have h := denseFrom_zipIdx ((List.range 16384).map f) 0
  rw [List.length_map, List.length_range] at h
  rw [Tile.cell, Tile.dense, sparse, h, List.getElem?_map, List.getElem?_range hi]
  rfl

/-! ## Marks (R201) -/

/-- A part of the marks that two joined marks have where either has it. -/
def IsMark (b : Marks → Bool) : Prop := ∀ m n, b (Marks.or m n) = (b m || b n)

theorem isMark_status (b : Nat) : IsMark fun m => m.1.getLsbD b := fun _ _ => BitVec.getLsbD_or

theorem isMark_sticky (b : Nat) : IsMark fun m => m.2.getLsbD b := fun _ _ => BitVec.getLsbD_or

/-- The marks of the cells that a function of the place makes. -/
def marksOf (f : Nat → Cell × Marks) : Marks := ((List.range 16384).map f).foldl (fun m r => Marks.or m r.2) (0, 0)

theorem IsMark.marksOf_iff {b : Marks → Bool} (hb : IsMark b) (h0 : b (0, 0) = false) (f : Nat → Cell × Marks) :
    b (marksOf f) = true ↔ ∃ i, i < 16384 ∧ b (f i).2 = true := by
  rw [marksOf, foldl_join_iff hb (fun r : Cell × Marks => r.2), h0]
  simp

end Sys2Proof.Machine
end

section
/-! # O23: the issue of matrix instructions (07_matrix, R183, R191, R192, R197 to R203) -/

namespace Sys2Proof.Machine

section
variable {s : State}

/-! ## Checks that matrix instructions share (R102, R113, R197) -/

theorem needOpen_of_open (h : s.rgn.isSome = true) : s.needOpen = .ok () := by rw [State.needOpen, State.inRegion, h]; rfl

theorem needOpen_of_none (h : s.rgn = none) : s.needOpen = .error (.trap { cause := .regionContext }) := by rw [State.needOpen, State.inRegion, h]; rfl

theorem tileSel_of_namesTile {c : TileSel} {t : Nat} (h : s.namesTile c t) : s.tileSel c = .ok t := by
  cases c with
  | tile n =>
    obtain rfl : t = n := h
    rfl
  | ring =>
    obtain ⟨hle, rfl⟩ := h
    refine (if_pos hle).trans ?_
    rw [State.level]
    cases s.seq.loops.reverse[bits s.k.mring 6 3]? <;> rfl

/-- R197: format 5 of B is licensed by a feature. -/
theorem licensed_check (h : fmtB s.regs.fmt = 5 → s.feature 4 = true) :
    (!(fmtB s.regs.fmt == 5) || s.k.feat0.getLsbD 4 && s.k.featack.getLsbD 4) = true := by
  by_cases h5 : fmtB s.regs.fmt = 5
  · rw [show (s.k.feat0.getLsbD 4 && s.k.featack.getLsbD 4) = true from h h5, Bool.or_true]
  · rw [beq_false_of_ne h5]; rfl

/-- R199, R200: an aligned extent that may be used. -/
theorem tileExtent_of_mayUse {x : SSrc} {n : Nat} {u : VUse} (ha : bits (s.srcS x) 0 28 % 64 = 0) (hu : s.mayUse (bits (s.srcS x) 0 28) (16384 * n) u) :
    s.tileExtent x n u = .ok (bits (s.srcS x) 0 28) := by
  simp only [State.tileExtent, ha, decide_true, check_true, ok_bind, spCheck_of_mayUse hu]

/-! ## Entering the queue (R191) -/

/-- R191: an operation enters the queue with what its instruction has changed before, or the bundle stalls. -/
def State.entersAs (s : State) (o : Host.Outcome State Fault Refusal) (t : State) : Prop :=
  (s.mat.queue.length < 8 → o = .next t) ∧ (8 ≤ s.mat.queue.length → o = .next (s.stalls 0x0A))

theorem entersAs_enqueue {op : MatOp} {es : List Effect} {t : State} (h : applyAll (applyAll s es)
      [.setMat { s.mat with queue := s.mat.queue ++ [⟨s.nextId, s.seq.count, s.seq.bun.slot, s.regs.fmt, op⟩] }, .ids 1] = t) :
    s.entersAs (s.settle (issueOf (s.enqueue op es))) t := by
  refine ⟨fun hlt => ?_, fun hle => ?_⟩
  · rw [State.enqueue, decide_eq_true hlt, await_true, ok_bind, issueOf_ok, settle_done, applyAll_append, h]
  · rw [State.enqueue, decide_eq_false (not_lt.2 hle)]
    rfl

section
variable (hopen : s.rgn.isSome = true)
include hopen

section
variable {c : TileSel} {t : Nat} (ht : s.namesTile c t)
include ht

theorem entersAs_mzero : s.entersAs (exec (.mzero c) s) (s.enqueued (.zero t)) := by
  show s.entersAs (s.settle (s.mzeroIssue c)) _
  rw [State.mzeroIssue, needOpen_of_open hopen, tileSel_of_namesTile ht]
  exact entersAs_enqueue rfl

section
variable {x : SSrc} (ha : bits (s.srcS x) 0 28 % 64 = 0)
include ha

theorem entersAs_mloadc {f : LFmt} (hu : s.mayUse (bits (s.srcS x) 0 28) (16384 * lfmtBytes f) .read) :
    s.entersAs (exec (.mloadc c f x) s) (s.enqueued (.load t f (bits (s.srcS x) 0 28))) := by
  show s.entersAs (s.settle (s.mloadcIssue c f x)) _
  rw [State.mloadcIssue, needOpen_of_open hopen, tileSel_of_namesTile ht, tileExtent_of_mayUse ha hu]
  exact entersAs_enqueue rfl

/-- R200, R152: a drain takes the draw that it rounds with, if it rounds by one. -/
theorem entersAs_mdrain (hd : fmtD s.regs.fmt ≤ 3 ∨ fmtD s.regs.fmt = 10)
    (hu : s.mayUse (bits (s.srcS x) 0 28) (16384 * drainBytes (fmtD s.regs.fmt)) .write)
    (hb : s.bitmapPending (bits (s.srcS x) 0 28) (16384 * drainBytes (fmtD s.regs.fmt)) = false) :
    s.entersAs (exec (.mdrain c x) s) ((if fmtMode s.regs.fmt = .sr then s.drawing else s).enqueued
      (.drain t (bits (s.srcS x) 0 28) s.k.rngKey (s.k.rngCtr + BitVec.ofNat 64 s.fin.draws))) := by
  have hfmt : (decide (fmtD s.regs.fmt ≤ 3) || fmtD s.regs.fmt == 10) = true := by simpa using hd
  show s.entersAs (s.settle (s.mdrainIssue c x)) _
  rw [State.mdrainIssue, needOpen_of_open hopen, tileSel_of_namesTile ht]
  simp only [ok_bind, hfmt, check_true, tileExtent_of_mayUse ha hu, hb, Bool.not_false, await_true]
  refine entersAs_enqueue ?_
  rw [State.fpMode]
  split <;> rfl

end

/-! ## MMAC and MMUL (R187, R197) -/

section
variable {b : Nat} {k : SSrc} (hlic : fmtB s.regs.fmt = 5 → s.feature 4 = true) {p : Pair}
  (hp : matPair (fmtA s.regs.fmt) (fmtB s.regs.fmt) = some p) (hk : ((s.srcS k).setWidth 32 : BitVec 32).toNat ≤ 65535)
  (hb : descOk (s.srcS (.reg (2 * b))) (s.srcS (.reg (2 * b + 1))) (isGroup (fmtB s.regs.fmt)) = true)
include hlic hp hk hb

theorem entersAs_mac_pair (mul res : Bool) {q : Nat} (hq : descOk (s.srcS (.reg (2 * q))) (s.srcS (.reg (2 * q + 1))) false = true) :
    s.entersAs (s.settle (s.mmacIssue mul c (.pair q) b k res))
      ((if res then s.resuming else s).enqueued (.mac mul t (s.pairAt (2 * q)) [] (s.pairAt (2 * b)) ((s.srcS k).setWidth 32) res)) := by
  have hdesc : (decide (((s.srcS k).setWidth 32 : BitVec 32).toNat ≤ 65535) && State.pairOk (s.pairAt (2 * b)) (isGroup (fmtB s.regs.fmt))) = true := by
    rw [decide_eq_true hk]; exact hb
  have hpair : State.pairOk (s.pairAt (2 * q)) false = true := hq
  rw [State.mmacIssue, needOpen_of_open hopen, licensed_check hlic, hp, tileSel_of_namesTile ht]
  simp only [ok_bind, check_true, hdesc, hpair]
  exact entersAs_enqueue (by cases res <;> rfl)

/-- R187: A from vector registers that no result is pending for, with no queued operation of the kind. -/
theorem entersAs_mac_vec (mul res : Bool) {q : Nat} (hpt : p.t ≤ 48)
    (hn : ((s.srcS k).setWidth 32 : BitVec 32).toNat ≤ 8 ∧ 2 * q + ((s.srcS k).setWidth 32 : BitVec 32).toNat ≤ 80)
    (hpend : ∀ v ∈ vecGroup q ((s.srcS k).setWidth 32 : BitVec 32).toNat, s.pendV v = false)
    (hnone : ∀ e ∈ s.mat.queue, ∀ m t av b k r, e.op ≠ .mac m t [] av b k r) :
    let vecs := vecGroup q ((s.srcS k).setWidth 32 : BitVec 32).toNat
    s.entersAs (s.settle (s.mmacIssue mul c (.vec q) b k res))
      (((if res then s.resuming else s).readsOf (vecs.map .v)).enqueued
        (.mac mul t [] (vecs.map fun v => s.srcV (.reg v)) (s.pairAt (2 * b)) ((s.srcS k).setWidth 32) res)) := by
  intro vecs
  have hdesc : (decide (((s.srcS k).setWidth 32 : BitVec 32).toNat ≤ 65535) && State.pairOk (s.pairAt (2 * b)) (isGroup (fmtB s.regs.fmt))) = true := by
    rw [decide_eq_true hk]; exact hb
  have hany : (vecGroup q ((s.srcS k).setWidth 32 : BitVec 32).toNat).any s.pendV = false := by simpa using hpend
  rw [State.mmacIssue, needOpen_of_open hopen, licensed_check hlic, hp, tileSel_of_namesTile ht]
  simp only [ok_bind, check_true, hdesc, decide_eq_true hpt, decide_eq_true hn, hany, Bool.not_false, await_true]
  rw [List.any_eq_false (l := s.mat.queue).2 fun e he => ?_]
  · exact entersAs_enqueue (by cases res <;> rfl)
  · split
    next h => exact absurd h (hnone e he _ _ _ _ _ _)
    next => exact Bool.false_ne_true

end
end

/-! ## MANCH and MWAIT (R201, R202) -/

theorem entersAs_manch {k : SSrc} {a b : Nat} (hlic : fmtB s.regs.fmt = 5 → s.feature 4 = true)
    (hk : ((s.srcS k).setWidth 32 : BitVec 32).toNat ≤ 65535) (hp : (matPair (fmtA s.regs.fmt) (fmtB s.regs.fmt)).isSome = true)
    (ha : descOk (s.srcS (.reg a)) (s.srcS (.reg (a + 1))) false = true)
    (hb : descOk (s.srcS (.reg b)) (s.srcS (.reg (b + 1))) (isGroup (fmtB s.regs.fmt)) = true) :
    s.entersAs (exec (.manch k a b) s) (s.enqueued (.anchor ((s.srcS k).setWidth 32) (s.pairAt a) (s.pairAt b))) := by
  have hdesc : (decide (((s.srcS k).setWidth 32 : BitVec 32).toNat ≤ 65535) && State.pairOk (s.pairAt a) false
      && State.pairOk (s.pairAt b) (isGroup (fmtB s.regs.fmt))) = true := by
    rw [decide_eq_true hk, show State.pairOk (s.pairAt a) false = true from ha]; exact hb
  show s.entersAs (s.settle (s.manchIssue k a b)) _
  rw [State.manchIssue, needOpen_of_open hopen, licensed_check hlic, hp]
  simp only [ok_bind, check_true, hdesc]
  exact entersAs_enqueue rfl

theorem exec_mwait_idle (h : s.mat.queue = []) : exec .mwait s = .next s := by
  show s.settle s.mwaitIssue = _
  rw [State.mwaitIssue, needOpen_of_open hopen, h]
  rfl

theorem entersAs_mwait (h : s.mat.queue ≠ []) : s.entersAs (exec .mwait s) (s.enqueued .wait) := by
  show s.entersAs (s.settle s.mwaitIssue) _
  rw [State.mwaitIssue, needOpen_of_open hopen, List.isEmpty_eq_false_iff.2 h]
  exact entersAs_enqueue rfl

/-! ## Formats that have no meaning (R183, R200) -/

theorem exec_matrix_format {c : TileSel} {ap : AOperand} {b n a : Nat} {k : SSrc} {res : Bool} (hlic : fmtB s.regs.fmt = 5 → s.feature 4 = true)
    (hp : matPair (fmtA s.regs.fmt) (fmtB s.regs.fmt) = none) :
    ∀ ins ∈ [Instr.mmac c ap b k res, .mmul c ap b k res, .manch k n a], exec ins s = s.raises .operandFormat := by
  have hmac (mul : Bool) : s.settle (s.mmacIssue mul c ap b k res) = s.raises .operandFormat := by
    rw [State.mmacIssue, needOpen_of_open hopen, licensed_check hlic, hp]
    rfl
  have hanch : s.settle (s.manchIssue k n a) = s.raises .operandFormat := by
    rw [State.manchIssue, needOpen_of_open hopen, licensed_check hlic, hp]
    rfl
  intro ins hi
  simp only [List.mem_cons, List.not_mem_nil, or_false] at hi
  rcases hi with rfl | rfl | rfl
  · exact hmac false
  · exact hmac true
  · exact hanch

theorem exec_mdrain_format {c : TileSel} {x : SSrc} (h : ¬ (fmtD s.regs.fmt ≤ 3 ∨ fmtD s.regs.fmt = 10)) :
    exec (.mdrain c x) s = s.raises .operandFormat := by
  have hfmt : (decide (fmtD s.regs.fmt ≤ 3) || fmtD s.regs.fmt == 10) = false := by simpa using h
  show s.settle (s.mdrainIssue c x) = _
  rw [State.mdrainIssue, needOpen_of_open hopen]
  simp only [ok_bind, hfmt, check_false, error_bind]
  rfl

end

/-- R113: every matrix instruction needs an open region. -/
theorem exec_matrix_region (h : s.rgn = none) {c : TileSel} {ap : AOperand} {b n a i : Nat} {k x : SSrc} {res clr : Bool} {f : LFmt} {d : SDst} :
    ∀ ins ∈ [Instr.mmac c ap b k res, .mmul c ap b k res, .mzero c, .mloadc c f x, .mdrain c x, .manch k n a, .mwait, .mstat d clr i],
      exec ins s = s.raises .regionContext := by
  have hneed := needOpen_of_none h
  have hmac (mul : Bool) : s.settle (s.mmacIssue mul c ap b k res) = s.raises .regionContext := by rw [State.mmacIssue, hneed]; rfl
  intro ins hi
  simp only [List.mem_cons, List.not_mem_nil, or_false] at hi
  rcases hi with rfl | rfl | rfl | rfl | rfl | rfl | rfl | rfl
  · exact hmac false
  · exact hmac true
  · show s.settle (s.mzeroIssue c) = _
    rw [State.mzeroIssue, hneed]; rfl
  · show s.settle (s.mloadcIssue c f x) = _
    rw [State.mloadcIssue, hneed]; rfl
  · show s.settle (s.mdrainIssue c x) = _
    rw [State.mdrainIssue, hneed]; rfl
  · show s.settle (s.manchIssue k n a) = _
    rw [State.manchIssue, hneed]; rfl
  · show s.settle s.mwaitIssue = _
    rw [State.mwaitIssue, hneed]; rfl
  · show s.settle (s.mstatIssue d clr i) = _
    rw [State.mstatIssue, hneed]; rfl

/-! ## MSTAT (R201) -/

/-- A sum of the powers of two of some places has the bits of those places. -/
theorem foldl_two_pow (p : Nat → Bool) (n : Nat) :
    (List.range n).foldl (fun a i => if p i then a + 2 ^ i else a) 0 < 2 ^ n
    ∧ ∀ j, j < n → ((List.range n).foldl (fun a i => if p i then a + 2 ^ i else a) 0).testBit j = p j := by
  induction n with
  | zero => exact ⟨Nat.one_pos, fun j hj => absurd hj (Nat.not_lt_zero j)⟩
  | succ n ih =>
    obtain ⟨hlt, hbit⟩ := ih
    rw [List.range_succ, List.foldl_append, List.foldl_cons, List.foldl_nil]
    generalize (List.range n).foldl (fun a i => if p i then a + 2 ^ i else a) 0 = a at hlt hbit
    have hsum : (if p n then a + 2 ^ n else a) = 2 ^ n * (p n).toNat + a := by cases p n <;> simp [Nat.add_comm]
    rw [hsum]
    refine ⟨?_, fun j hj => ?_⟩
    · have hle : 2 ^ n * (p n).toNat ≤ 2 ^ n * 1 := Nat.mul_le_mul_left _ (Bool.toNat_le (p n))
      rw [Nat.pow_succ]
      omega
    · rw [Nat.testBit_two_pow_mul_add _ hlt]
      rcases Nat.lt_succ_iff_lt_or_eq.1 hj with h | rfl
      · rw [if_pos h, hbit j h]
      · rw [if_neg (Nat.lt_irrefl j), Nat.sub_self]
        cases p j <;> rfl

/-- R201: a queued operation names the tile. -/
def State.tileBusy (s : State) (j : Nat) : Bool := s.mat.queue.any fun e => e.op.tile == some j

theorem tileBusy_iff {j : Nat} : s.tileBusy j = true ↔ ∃ e ∈ s.mat.queue, e.op.tile = some j := by simp [State.tileBusy]

/-- R201: the fields of MSTAT's value. -/
theorem mstatValue_fields {i : Nat} (hq : s.mat.queue.length ≤ 8) :
    bits (s.mstatValue i) 54 10 = (s.mat.tile i).anchor.toNat ∧ bits (s.mstatValue i) 44 10 = s.mat.aanch.toNat
    ∧ bits (s.mstatValue i) 40 4 = s.mat.queue.length ∧ (∀ j, j < 8 → (s.mstatValue i).getLsbD (32 + j) = s.tileBusy j)
    ∧ bits (s.mstatValue i) 6 26 = 0 ∧ bits (s.mstatValue i) 0 6 = s.mat.sticky.toNat := by
  obtain ⟨hbusy, hbit⟩ := foldl_two_pow s.tileBusy 8
  have hvalue : s.mstatValue i = BitVec.ofNat 64 ((s.mat.tile i).anchor.toNat * 2 ^ 54 + s.mat.aanch.toNat * 2 ^ 44 + s.mat.queue.length % 16 * 2 ^ 40
      + (List.range 8).foldl (fun a i => if s.tileBusy i then a + 2 ^ i else a) 0 * 2 ^ 32 + s.mat.sticky.toNat) := rfl
  generalize (List.range 8).foldl (fun a i => if s.tileBusy i then a + 2 ^ i else a) 0 = busy at hbusy hbit hvalue
  have hanchor := (s.mat.tile i).anchor.isLt
  have haanch := s.mat.aanch.isLt
  have hsticky := s.mat.sticky.isLt
  have hnat : (s.mstatValue i).toNat = (s.mat.tile i).anchor.toNat * 2 ^ 54 + s.mat.aanch.toNat * 2 ^ 44 + s.mat.queue.length * 2 ^ 40
      + busy * 2 ^ 32 + s.mat.sticky.toNat := by
    rw [hvalue, BitVec.toNat_ofNat]; omega
  have hfield : bits (s.mstatValue i) 32 8 = busy := by rw [bits, hnat]; omega
  refine ⟨by rw [bits, hnat]; omega, by rw [bits, hnat]; omega, by rw [bits, hnat]; omega, fun j hj => ?_, by rw [bits, hnat]; omega,
    by rw [bits, hnat]; omega⟩
  have h := testBit_bits (s.mstatValue i) 32 8 j
  rw [hfield, hbit j hj, decide_eq_true hj, Bool.true_and] at h
  exact h.symm

theorem exec_mstat (hopen : s.rgn.isSome = true) (d : SDst) (clr : Bool) (i : Nat) : exec (.mstat d clr i) s = .next
    (if clr then (s.queued 2 0 (.scalar d (s.mstatValue i))).queued 2 0 (.sticky s.mat.sticky) else s.queued 2 0 (.scalar d (s.mstatValue i))) := by
  show s.settle (s.mstatIssue d clr i) = _
  rw [State.mstatIssue, needOpen_of_open hopen]
  cases clr <;> rfl

/-! ## The transposer (R204, R205) -/

/-- R204: the element in a row and a column of a block. -/
def TBlock.elem (x : TBlock) (row col : Nat) : Nat := (x.extractLsb' (32 * (128 * row + col)) 32).toNat

theorem settle_txpIssue (hr : s.regional) (es : List Effect) : s.settle (s.txpIssue es) = .next (applyAll s es) := by
  rw [State.txpIssue, needRegion_of_regional hr]; rfl

theorem elem_eq_bits (x : TBlock) (row col : Nat) : TBlock.elem x row col = bits x (32 * (128 * row + col)) 32 := by
  rw [TBlock.elem, BitVec.extractLsb'_toNat, Nat.shiftRight_eq_div_pow, bits]

/-- R204: a group of the transpose: its lanes are a column of the block in each row. -/
theorem laneVal_tpEmit (x : TBlock) (g : Nat) {i j : Nat} (hi : i < 16) (hj : j < 128) :
    laneVal 4 (tpEmit x g) (128 * i + j) = TBlock.elem x j (16 * g + i) := by
  have hlane : 128 * i + j < 8192 / 4 := by omega
  have hrow : (128 * i + j) / 128 = i := by omega
  have hcol : (128 * i + j) % 128 = j := by omega
  rw [tpEmit, laneVal_ofLanes _ laneWidth_four hlane, flatMap_map_range (fun r c => bits x (32 * (128 * c + (16 * g + r))) 32) (by decide),
    List.getElem?_map, List.getElem?_range hlane, Option.map_some, Option.getD_some, hrow, hcol, ← elem_eq_bits]
  exact Nat.mod_eq_of_lt (BitVec.isLt _)

theorem tpFill_eq_putBits (x : TBlock) (g : Nat) (v : VReg) : tpFill x g v = putBits x (65536 * g) 65536 v.toNat := by
  rw [tpFill, putBits, Nat.mod_eq_of_lt v.isLt]

/-- R205: a fill writes the sixteen rows of its group. -/
theorem elem_tpFill (x : TBlock) {g : Nat} (v : VReg) {row col : Nat} (hrow : row < 128) (hcol : col < 128) :
    TBlock.elem (tpFill x g v) row col = if row / 16 = g then laneVal 4 v (128 * (row % 16) + col) else TBlock.elem x row col := by
  rw [tpFill_eq_putBits, laneVal, TBlock.elem, TBlock.elem, ← apply_ite BitVec.toNat]
  refine congrArg _ (BitVec.eq_of_getLsbD_eq fun j hj => ?_)
  rw [BitVec.getLsbD_extractLsb', getLsbD_putBits _ _ _ _ (by omega)]
  by_cases hg : row / 16 = g
  · rw [if_pos hg, if_pos (by omega), BitVec.getLsbD_extractLsb']
    have hbit : 32 * (128 * row + col) + j - 65536 * g = 8 * 4 * (128 * (row % 16) + col) + j := by omega
    rw [hbit]
    rfl
  · rw [if_neg hg, if_neg (by omega), BitVec.getLsbD_extractLsb']

end
end Sys2Proof.Machine

namespace Sys2Proof.Proofs
open Sys2Proof Sys2Proof.Machine

/-- Settles O23: each issue passes its checks in order and enters the queue; MSTAT's fields and the transposer's elements are taken bit by bit. -/
theorem matrixInstructionsEnterQueue : Obligations.MatrixInstructionsEnterQueue := by
  refine ⟨fun s c t q b n a i k x res clr d f => ⟨fun hopen => ?_, fun h ap => exec_matrix_region h⟩, fun s v d b g _ hr => ?_⟩
  · refine ⟨fun ht hlic hk hb p hp => ⟨fun hq => ?_, fun hpt hn hv hpend hnone => ?_⟩, fun ht => ⟨?_, fun ha hu => ?_, fun ha hd hu hb => ?_⟩,
      fun hlic hk hp hn ha => ?_, exec_mwait_idle hopen, entersAs_mwait hopen, fun hlen => ?_, fun hlic hp ap => exec_matrix_format hopen hlic hp,
      exec_mdrain_format hopen⟩
    · exact ⟨entersAs_mac_pair hopen ht hlic hp hk hb false res hq, entersAs_mac_pair hopen ht hlic hp hk hb true res hq⟩
    · exact ⟨entersAs_mac_vec hopen ht hlic hp hk hb false res hpt ⟨hn, hv⟩ hpend hnone,
        entersAs_mac_vec hopen ht hlic hp hk hb true res hpt ⟨hn, hv⟩ hpend hnone⟩
    · exact entersAs_mzero hopen ht
    · exact entersAs_mloadc hopen ht ha hu
    · exact entersAs_mdrain hopen ht ha hd hu hb
    · exact entersAs_manch hopen hlic hk hp hn ha
    · obtain ⟨hanchor, haanch, hlength, hbusy, hzero, hsticky⟩ := mstatValue_fields (i := i) hlen
      exact ⟨_, exec_mstat hopen d clr i, hanchor, haanch, hlength, fun j hj => by rw [hbusy j hj, tileBusy_iff], hzero, hsticky⟩
  · exact ⟨settle_txpIssue hr _, settle_txpIssue hr _, ⟨_, settle_txpIssue hr _, fun i j hi hj => laneVal_tpEmit _ g hi hj⟩,
      fun x row col hrow hcol => elem_tpFill _ x hrow hcol⟩

end Sys2Proof.Proofs
end

section
/-! # O24: the head of the matrix queue (07_matrix, R190, R191, R196, R199 to R202) -/

namespace Sys2Proof.Machine

section
variable {s : State} {e : MatEntry}

/-! ## Versions that start (R199) -/

theorem exec_mzeroExecute {t : Nat} (hq : s.mat.queue.head? = some e) (hop : e.op = .zero t) :
    exec .mzeroExecute s = .next { s with mat := { s.mat with work := s.mat.work.set t ⟨s.startAnchor e, []⟩, queue := s.restOfQueue } } := by
  show execMzeroExecute s = _
  simp only [execMzeroExecute, hq, hop, popQueue_eq]
  rfl

/-- A version loaded from the scratchpad: each cell from its word, and the marks of all. -/
theorem exec_mloadcExecute {t addr : Nat} {f : LFmt} (hq : s.mat.queue.head? = some e) (hop : e.op = .load t f addr) (ok : Memory.wf s.sp = true) :
    let made (i : Nat) : Cell × Marks := loadCells f (s.startAnchor e).toInt (Memory.word s.sp (addr + lfmtBytes f * i) (lfmtBytes f))
    exec .mloadcExecute s = .next ({ s with mat := { s.mat with
      work := s.mat.work.set t ⟨s.startAnchor e, sparse ((List.range 16384).map fun i => (made i).1)⟩, queue := s.restOfQueue } }.marked (marksOf made)) := by
  intro made
  show execMloadcExecute s = _
  simp only [execMloadcExecute, hq, hop, splitN_bytes addr _ _ ok, List.map_map, popQueue_eq, applyAll_cons, marksEffects, applyAll_nil, apply_setMat,
    apply_status, apply_sticky]
  rfl

/-! ## MDRAIN (R200) -/

theorem drainBytes_pos (f : Nat) : 0 < drainBytes f := by unfold drainBytes; split <;> decide

/-- R200: the bytes of the elements, in rising order. -/
theorem getElem?_drained {n : Nat} (hn : 0 < n) (c : Nat) (out : Nat → Nat × Flags) {k : Nat} (hk : k < c * n) :
    (((List.range c).map out).flatMap fun r => toBytes n r.1)[k]? = some (BitVec.ofNat 8 ((out (k / n)).1 / 256 ^ (k % n))) := by
  simp only [List.flatMap_map, toBytes_eq_map]
  rw [flatMap_map_range (fun i j => BitVec.ofNat 8 ((out i).1 / 256 ^ j)) hn, List.getElem?_map, List.getElem?_range hk]
  rfl

theorem length_drained (n c : Nat) (out : Nat → Nat × Flags) : (((List.range c).map out).flatMap fun r => toBytes n r.1).length = c * n := by
  simp [List.length_flatMap, Function.comp_def]

/-- R200: what MDRAIN writes and sets. -/
theorem exec_mdrainExecute {t addr : Nat} {key ctr : DWord} (hq : s.mat.queue.head? = some e) (hop : e.op = .drain t addr key ctr)
    (hw : s.drainWaits e = false) :
    let n := drainBytes (fmtD e.fmt)
    let rs := (List.range 16384).map fun i => drainCell e (s.mat.tile t).anchor.toInt key ctr ((s.mat.tile t).cell i) i
    exec .mdrainExecute s = .next (State.setStatus { s with
      sp := Memory.write s.sp addr (rs.flatMap fun r => toBytes n r.1), mat := { s.mat with queue := s.restOfQueue } }
      (rs.foldl (fun f r => f ||| r.2) 0)) := by
  intro n rs
  show execMdrainExecute s = _
  simp only [execMdrainExecute, hq, hop, hw, dense_eq_map, zipIdx_map_range, List.map_map, popQueue_eq, Bool.false_eq_true, if_false,
    applyAll_cons, applyAll_nil, apply_sp, apply_status, apply_setMat]
  rfl

/-! ## MMAC and MMUL (R196) -/

theorem length_of_mapM_ok {α β ε : Type} {f : α → Except ε β} {l : List α} {r : List β} (h : l.mapM f = .ok r) : r.length = l.length := by
  induction l generalizing r with
  | nil =>
    obtain rfl : [] = r := Except.ok.inj h
    rfl
  | cons x l ih =>
    rw [List.mapM_cons] at h
    cases hx : f x with
    | error y => rw [hx] at h; exact absurd h nofun
    | ok y =>
      cases hl : l.mapM f with
      | error z => rw [hx, hl] at h; exact absurd h nofun
      | ok ys =>
        rw [hx, hl] at h
        obtain rfl : y :: ys = r := Except.ok.inj h
        rw [List.length_cons, List.length_cons, ih hl]

/-- R196: A has 128 rows. -/
theorem length_aRows {f k : Nat} {p : Pair} {a : List DWord} {av : List VReg} {l : List (Option (List FVal))} (h : s.aRows f p a av k = .ok l) :
    l.length = 128 := by
  unfold State.aRows at h
  split at h
  · rw [length_of_mapM_ok h, List.length_range]
  · rw [← Except.ok.inj h, List.length_map, List.length_range]

/-- R196: and so has B. -/
theorem length_bRows {f k : Nat} {p : Pair} {b : List DWord} {l : List (Option (List FVal))} (h : s.bRows f p b k = .ok l) : l.length = 128 := by
  unfold State.bRows at h
  split at h
  · rw [length_of_mapM_ok h, List.length_range]
  · rw [← Except.ok.inj h, List.length_replicate]

/-- R196: one K step at a place of a version: row `i / 128` of A against row `i % 128` of B. -/
def stepAt (a : Int) (t : Nat) (as bs : List (Option (List FVal))) (i : Nat) (x : Cell) : Cell × Marks :=
  stepCell a t ((as[i / 128]?).getD none) ((bs[i % 128]?).getD none) x

theorem stepTile_eq (t : Nat) (tile : Tile) {as bs : List (Option (List FVal))} (ha : as.length = 128) (hb : bs.length = 128) :
    let made (i : Nat) : Cell × Marks := stepAt tile.anchor.toInt t as bs i (tile.cell i)
    stepTile t tile as bs = (⟨tile.anchor, sparse ((List.range 16384).map fun i => (made i).1)⟩, marksOf made) := by
  intro made
  have hpairs : (as.flatMap fun x => bs.map fun y => (x, y))
      = (List.range 16384).map fun i => ((as[i / 128]?).getD none, (bs[i % 128]?).getD none) := by
    have hA := eq_map_range as none
    have hB := eq_map_range bs none
    rw [ha] at hA
    rw [hb] at hB
    calc (as.flatMap fun x => bs.map fun y => (x, y))
        = (List.range 128).flatMap fun r => (List.range 128).map fun c => ((as[r]?).getD none, (bs[c]?).getD none) := by
          conv_lhs => rw [hA, hB, List.flatMap_map]
          simp only [List.map_map]
          rfl
      _ = _ := flatMap_map_range (fun r c => ((as[r]?).getD none, (bs[c]?).getD none)) (by decide) 128
  have hrs : (as.flatMap fun x => bs.map fun y => (x, y)).zipWith (fun xy c => stepCell tile.anchor.toInt t xy.1 xy.2 c) tile.dense
      = (List.range 16384).map made := by
    rw [hpairs, dense_eq_map, List.zipWith_map, List.zipWith_self]
    rfl
  rw [stepTile, hrs, List.map_map]
  rfl

section
variable (a : Int) (t : Nat) (A B : Nat → List (Option (List FVal))) (x : Nat → Cell)

/-- R196: the cell at a place after the first `n` steps from the cells `x`. -/
def cellAfter (i n : Nat) : Cell := (List.range n).foldl (fun y j => (stepAt a t (A j) (B j) i y).1) (x i)

/-- R196: step `j` at a place, from what the steps before it left there. -/
def stepAfter (i j : Nat) : Cell × Marks := stepAt a t (A j) (B j) i (cellAfter a t A B x i j)

theorem cellAfter_succ (i n : Nat) : cellAfter a t A B x i (n + 1) = (stepAfter a t A B x i n).1 := by
  rw [cellAfter, List.range_succ, List.foldl_append]
  rfl

end

section
variable {fmt : BitVec 48} {p : Pair} {a b : List DWord} {av : List VReg} {A B : Nat → List (Option (List FVal))} {x : Nat → Cell}

/-- R196: `n` K steps whose operands can all be fetched, after `k` of them: every cell takes every step, and the marks are those of the steps. -/
theorem macSteps_ok {g : BitVec 10} (n k : Nat) (tile : Tile) (m : Marks)
    (hrows : ∀ j, j < k + n → s.stepRows fmt p a av b j = .ok (A j, B j) ∧ (A j).length = 128 ∧ (B j).length = 128)
    (hg : tile.anchor = g) (hx : ∀ i, i < 16384 → tile.cell i = cellAfter g.toInt p.t A B x i k) :
    ∃ (tile' : Tile) (m' : Marks), s.macSteps fmt p a av b n k tile m = (.ok tile', m')
      ∧ tile'.anchor = g ∧ (∀ i, i < 16384 → tile'.cell i = cellAfter g.toInt p.t A B x i (k + n))
      ∧ ∀ c, IsMark c → c (0, 0) = false →
        (c m' = true ↔ c m = true ∨ ∃ j i, k ≤ j ∧ j < k + n ∧ i < 16384 ∧ c (stepAfter g.toInt p.t A B x i j).2 = true) := by
  induction n generalizing k tile m with
  | zero => exact ⟨tile, m, rfl, hg, hx, fun c _ _ => ⟨.inl, fun h => h.resolve_right fun ⟨j, i, hle, hlt, _⟩ => absurd hlt (not_lt.2 hle)⟩⟩
  | succ n ih =>
    obtain ⟨hok, ha, hb⟩ := hrows k (by omega)
    have hmade (i : Nat) (hi : i < 16384) : stepAt tile.anchor.toInt p.t (A k) (B k) i (tile.cell i) = stepAfter g.toInt p.t A B x i k := by
      rw [hx i hi, hg]
      rfl
    have hstep := stepTile_eq p.t tile ha hb
    obtain ⟨tile', m', hrun, hg', hx', hm'⟩ := ih (k + 1) (stepTile p.t tile (A k) (B k)).1 (Marks.or m (stepTile p.t tile (A k) (B k)).2)
      (fun j hj => hrows j (by omega)) (by rw [hstep]; exact hg)
      (fun i hi => by rw [hstep, cell_sparse _ _ hi, cellAfter_succ, ← hmade i hi])
    refine ⟨tile', m', ?_, hg', fun i hi => ?_, fun c hc h0 => ?_⟩
    · rw [State.macSteps, hok]
      exact hrun
    · rw [hx' i hi, Nat.add_right_comm, Nat.add_assoc]
    · have hfirst : c (stepTile p.t tile (A k) (B k)).2 = true ↔ ∃ i, i < 16384 ∧ c (stepAfter g.toInt p.t A B x i k).2 = true := by
        rw [hstep, hc.marksOf_iff h0]
        exact exists_congr fun i => and_congr_right fun hi => by rw [hmade i hi]
      rw [hm' c hc h0, hc, Bool.or_eq_true, hfirst, or_assoc]
      refine or_congr_right ⟨?_, ?_⟩
      · rintro (⟨i, hi, h⟩ | ⟨j, i, hle, hlt, hi, h⟩)
        · exact ⟨k, i, le_rfl, by omega, hi, h⟩
        · exact ⟨j, i, by omega, by omega, hi, h⟩
      · rintro ⟨j, i, hle, hlt, hi, h⟩
        rcases hle.eq_or_lt with rfl | hle
        · exact .inl ⟨i, hi, h⟩
        · exact .inr ⟨j, i, hle, by omega, hi, h⟩

/-- R196: the MMAC or MMUL at the head of the queue, not resumable, whose operands can all be fetched. -/
theorem exec_mmacExecute {mul : Bool} {t : Nat} {k : BitVec 32} (hq : s.mat.queue.head? = some e) (hop : e.op = .mac mul t a av b k false)
    (hp : matPair (fmtA e.fmt) (fmtB e.fmt) = some p)
    (hok : ∀ j, j < k.toNat → s.stepScales (fmtB e.fmt) b j = .ok () ∧ s.aRows (fmtA e.fmt) p a av j = .ok (A j)
      ∧ s.bRows (fmtB e.fmt) p b j = .ok (B j)) :
    let old : Tile := if mul then ⟨s.startAnchor e, []⟩ else s.mat.tile t
    ∃ (tile : Tile) (m : Marks),
      exec .mmacExecute s = .next (State.marked { s with mat := { s.mat with work := s.mat.work.set t tile, queue := s.restOfQueue } } m)
      ∧ tile.anchor = old.anchor ∧ (∀ i, i < 16384 → tile.cell i = cellAfter old.anchor.toInt p.t A B old.cell i k.toNat)
      ∧ ∀ c, IsMark c → c (0, 0) = false →
        (c m = true ↔ ∃ j i, j < k.toNat ∧ i < 16384 ∧ c (stepAfter old.anchor.toInt p.t A B old.cell i j).2 = true) := by
  intro old
  have hfirst : s.firstStep e = 0 := by rw [State.firstStep, hop]
  have htile : s.macTile e mul t = old := by
    rw [State.macTile, hfirst, beq_self_eq_true, Bool.and_true]
    rfl
  have hrows (j : Nat) (hj : j < 0 + k.toNat) :
      s.stepRows e.fmt p a av b j = .ok (A j, B j) ∧ (A j).length = 128 ∧ (B j).length = 128 := by
    obtain ⟨hs, hA, hB⟩ := hok j (by omega)
    refine ⟨?_, length_aRows hA, length_bRows hB⟩
    rw [State.stepRows, hs, hA, hB]
    rfl
  obtain ⟨tile, m, hrun, hg, hx, hm⟩ := macSteps_ok (x := old.cell) k.toNat 0 old (0, 0) hrows rfl (fun i _ => rfl)
  refine ⟨tile, m, ?_, hg, fun i hi => by rw [hx i hi, Nat.zero_add], fun c hc h0 => ?_⟩
  · show execMmacExecute s = _
    simp only [execMmacExecute, hq, hop, Bool.false_eq_true, if_false, State.macRun, hp, hfirst, htile, hrun, Except.map, popQueue_eq]
    rfl
  · rw [hm c hc h0, h0]
    simp

end

/-! ## Rows and columns (R188) -/

section
variable {c : Nat} (hc : c < 128)
include hc

theorem stepAt_row_col (a : Int) (t : Nat) (as bs : List (Option (List FVal))) (r : Nat) (x : Cell) :
    stepAt a t as bs (128 * r + c) x = stepCell a t ((as[r]?).getD none) ((bs[c]?).getD none) x := by
  have hrow : (128 * r + c) / 128 = r := by omega
  have hcol : (128 * r + c) % 128 = c := by omega
  rw [stepAt, hrow, hcol]

theorem cellAfter_row_col (a : Int) (t : Nat) (A B : Nat → List (Option (List FVal))) (x : Nat → Cell) (r n : Nat) :
    cellAfter a t A B x (128 * r + c) n
      = (List.range n).foldl (fun y j => (stepCell a t (((A j)[r]?).getD none) (((B j)[c]?).getD none) y).1) (x (128 * r + c)) := by
  simp only [cellAfter, stepAt_row_col hc]

end

theorem exists_place_iff (P : Nat → Prop) : (∃ i, i < 16384 ∧ P i) ↔ ∃ r c, r < 128 ∧ c < 128 ∧ P (128 * r + c) := by
  refine ⟨fun ⟨i, hi, h⟩ => ⟨i / 128, i % 128, by omega, by omega, ?_⟩, fun ⟨r, c, hr, hc, h⟩ => ⟨128 * r + c, by omega, h⟩⟩
  rwa [Nat.div_add_mod]

/-! ## MANCH (R190, R202) -/

section
variable {k : BitVec 32} {a b : List DWord} {p : Pair} (hq : s.mat.queue.head? = some e) (hop : e.op = .anchor k a b)
  (hp : matPair (fmtA e.fmt) (fmtB e.fmt) = some p)
include hq hop hp

theorem exec_manchExecute_none (h : s.autoAnch e.fmt p a b k.toNat = .ok none) :
    exec .manchExecute s = .next { s with mat := { s.mat with aanch := 0, queue := s.restOfQueue } } := by
  show execManchExecute s = _
  simp only [execManchExecute, hq, hop, hp, h, popQueue_eq]
  rfl

/-- R190: the anchor is limited to ten bits, which sets a sticky bit where it changes it. -/
theorem exec_manchExecute_some {x y : Int} (h : s.autoAnch e.fmt p a b k.toNat = .ok (some (x, y))) :
    exec .manchExecute s = .next (State.setSticky { s with mat := { s.mat with
      aanch := BitVec.ofInt 10 (max (-512) (min 511 (x + y - 14))), queue := s.restOfQueue } }
      (if -512 ≤ x + y - 14 ∧ x + y - 14 ≤ 511 then 0 else 0x20#6)) := by
  have hlim : min 511 (max (-512) (x + y - 14)) = max (-512) (min 511 (x + y - 14)) := by omega
  have hclamp : x + y - 14 = max (-512) (min 511 (x + y - 14)) ↔ -512 ≤ x + y - 14 ∧ x + y - 14 ≤ 511 := by omega
  show execManchExecute s = _
  simp only [execManchExecute, hq, hop, hp, h, popQueue_eq, hlim, hclamp]
  rfl

end
end
end Sys2Proof.Machine

namespace Sys2Proof.Proofs
open Sys2Proof Sys2Proof.Machine

/-- Settles O24: each operation at the head of the queue, whose cells are those of one function of the place. -/
theorem matrixOperationsExecute : Obligations.MatrixOperationsExecute := by
  intro s e rest start cell hq
  refine ⟨fun t hop => exec_mzeroExecute hq hop, fun t f addr hop ok => ?_, fun t addr key ctr hop hw ok => ?_,
    fun mul t a av b k p A B hop hp hok => ?_,
    fun k a b p hop hp => ⟨exec_manchExecute_none hq hop hp, fun x y h => exec_manchExecute_some hq hop hp h⟩⟩
  · exact ⟨_, _, exec_mloadcExecute hq hop ok, rfl, fun i hi => cell_sparse _ _ hi, fun b => (isMark_status b).marksOf_iff (by simp) _,
      fun b => (isMark_sticky b).marksOf_iff (by simp) _⟩
  · refine ⟨_, _, exec_mdrainExecute hq hop hw, fun x => ?_, fun b => ?_⟩
    · rw [Memory.read_write addr x _ ok, length_drained]
      split
      next hx => rw [getElem?_drained (drainBytes_pos _) 16384 _ (Nat.sub_lt_left_of_lt_add hx.1 hx.2)]; rfl
      next => rfl
    · rw [foldl_join_iff (b := fun fl : Flags => fl.getLsbD b) (fun _ _ => BitVec.getLsbD_or) (fun r : Nat × Flags => r.2)]
      simp [cell, Tile.cell]
  · obtain ⟨tile, m, hrun, hg, hx, hm⟩ := exec_mmacExecute hq hop hp hok
    intro old step after sets
    have hafter (r : Nat) {c : Nat} (hc : c < 128) (n : Nat) : cellAfter old.anchor.toInt p.t A B old.cell (128 * r + c) n = after r c n :=
      cellAfter_row_col hc ..
    have hstep (r : Nat) {c : Nat} (hc : c < 128) (j : Nat) :
        stepAfter old.anchor.toInt p.t A B old.cell (128 * r + c) j = step r c j (after r c j) := by
      rw [stepAfter, hafter r hc, stepAt_row_col hc]
    have hsets (f : Marks → Bool) (hf : IsMark f) (h0 : f (0, 0) = false) : f m = true ↔ sets f := by
      rw [hm f hf h0]
      refine exists_congr fun j => ?_
      rw [exists_and_left, exists_place_iff]
      simp only [← exists_and_left]
      refine exists_congr fun r => exists_congr fun c => and_congr_right fun _ => and_congr_right fun _ => and_congr_right fun hc => ?_
      rw [hstep r hc]
    exact ⟨tile, m, hrun, hg, fun r c hr hc => (hx _ (by omega)).trans (hafter r hc _),
      fun b => hsets _ (isMark_status b) (by simp), fun b => hsets _ (isMark_sticky b) (by simp)⟩

end Sys2Proof.Proofs
end

section
/-! # O30: WAITA, SIGW, BACQ, BREL and WAITE (08_scratchpad, R227 to R231) -/

namespace Sys2Proof.Machine

section
variable {s : State} {x y set : SSrc} {p : Nat}

/-- R291, R293: a set within the subcube names its node. -/
theorem targetOf_of_setOk {v : DWord} (h : s.k.setOk v false = true) : s.targetOf v = .ok (s.k.peer (bits v 0 14)) := by
  rw [State.targetOf, h]
  rfl

/-! ## WAITA (R228) -/

theorem condCode_eq_code (c : WCond) : condCode c = c.code := by cases c <;> rfl

theorem exec_waita {c : WCond} (hr : s.regional) (ha : bits (s.srcS x) 0 28 % 8 = 0) (he : spExtent (bits (s.srcS x) 0 28) 8 = true)
    (ho : s.k.priv = true ∨ s.vaultOwned (vaultOf (bits (s.srcS x) 0 28)) = true) : exec (.waita c x y) s =
      if condHolds c (Memory.word s.sp (bits (s.srcS x) 0 28) 8) (s.srcS y).toNat then .next (s.trace 2 c.code (BitVec.ofNat 64 s.seq.waited))
      else .next (s.stalls 0) := by
  show s.settle (s.waitaIssue c x y) = _
  rw [State.waitaIssue, needRegion_of_regional hr]
  simp only [ok_bind, ha, he, BEq.rfl, Bool.and_self, Bool.or_eq_true_iff.2 ho, check_true, condCode_eq_code]
  split <;> rfl

/-! ## SIGW (R229) -/

theorem sigInfo_flow (n : BitVec 14) (a : Nat) (pol : BitVec 32) (chk : Bool) : (s.sigInfo n a pol chk).flow = polClass pol := by
  unfold State.sigInfo; split <;> rfl

/-- The flag of a release whose scope does not reach the node of its signal word (R279). -/
def State.sigMissed (s : State) (pol : BitVec 32) (node : BitVec 14) : Flags :=
  if polRelease pol && !s.k.inScope (polScope pol) node then flagScopeMiss else 0

section
variable (hp : s.k.priv = false) (hr : s.regional) (hset : s.k.setOk (s.srcS set) false = true) (ha : bits (s.srcS x) 0 28 % 8 = 0)
  (he : spExtent (bits (s.srcS x) 0 28) 8 = true) (hb : s.bufferHas 1)
include hp hr hset ha he hb

theorem exec_sigw_here (hn : s.k.peer (bits (s.srcS set) 0 14) = s.k.nodeId) (hd : s.discipline (vaultOf (bits (s.srcS x) 0 28)) .neither = true)
    (ho : s.vaultOwned (vaultOf (bits (s.srcS x) 0 28)) = true) : exec (.sigw set x y p) s =
      .next ((s.buffered 1 (s.srcY p) [] (.sigw s.k.nodeId (bits (s.srcS x) 0 28) (s.srcS y))).flagged (s.sigMissed (s.srcY p) s.k.nodeId)) := by
  show s.settle (s.sigwIssue set x y p) = _
  rw [State.sigwIssue, needRegion_of_regional hr]
  simp only [ok_bind, targetOf_of_setOk hset, ha, he, BEq.rfl, Bool.and_self, check_true, hn, if_true, hp, Bool.false_or, hd, ho, Bool.false_eq_true,
    if_false, bufRoom_of_has hb, issueOf_ok, settle_done, applyAll_cons, apply_buffer_newEntry, applyAll_endFlags]
  rfl

theorem exec_sigw_away (hn : s.k.peer (bits (s.srcS set) 0 14) ≠ s.k.nodeId) (hl : s.lost (s.k.peer (bits (s.srcS set) 0 14)) = false)
    (hf : s.flowRoom s.k.jobtag (s.k.peer (bits (s.srcS set) 0 14)) (polClass (s.srcY p)) = true) :
    let node := s.k.peer (bits (s.srcS set) 0 14)
    let q := s.fab.request s.clock s.k.nodeId (.bufCheck s.nextId) 6 node s.k.jobtag (s.sigInfo node (bits (s.srcS x) 0 28) (s.srcY p) true) []
    exec (.sigw set x y p) s = .next (({ s with fab := q.1 }.buffered 1 (s.srcY p) [q.2] (.sigw node (bits (s.srcS x) 0 28) (s.srcS y))).flagged
      (s.sigMissed (s.srcY p) node)) := by
  show s.settle (s.sigwIssue set x y p) = _
  rw [State.sigwIssue, needRegion_of_regional hr]
  simp only [ok_bind, targetOf_of_setOk hset, ha, he, BEq.rfl, Bool.and_self, check_true, if_neg hn, hp, hl, Bool.not_false, Bool.false_eq_true,
    if_false, bufRoom_of_has hb, State.checkSent, sigInfo_flow, hf, await_true, issueOf_ok, settle_done, applyAll_cons, apply_setFab,
    apply_buffer_newEntry, applyAll_endFlags]
  rfl

end

/-! ## BACQ and BREL (R230) -/

section
variable (hp : s.k.priv = false) (hr : s.regional) (hz : bits (s.srcS x) 32 32 = 0) (hb : s.bufferHas 1)
include hp hr hz hb

theorem exec_bacq (h : ∀ v, v < 32 → ((s.srcS x).setWidth 32 : BitVec 32).getLsbD v = true → ∃ w, s.vaults[v]? = some w ∧ w.quarantined = false) :
    exec (.bacq x) s = .next (s.buffered 1 0 [] (.acquire ((s.srcS x).setWidth 32))) := by
  show s.settle (s.bacqIssue x) = _
  rw [State.bacqIssue, needRegion_of_regional hr]
  simp only [ok_bind, hz, BEq.rfl, check_true]
  rw [(List.all_eq_true (l := maskVaults ((s.srcS x).setWidth 32))).2]
  · simp only [check_true, ok_bind, hp, Bool.false_eq_true, if_false, bufRoom_of_has hb, issueOf_ok, settle_done, applyAll_cons, applyAll_nil,
      apply_buffer_newEntry]
  · simp only [maskVaults, List.mem_filter, List.mem_range]
    intro v ⟨hv, hm⟩
    obtain ⟨w, hw, hq⟩ := h v hv hm
    simp only [hw, hq, Bool.not_false]

theorem exec_brel (h : ∀ r, s.rgn = some r → (r.rmask ||| r.wmask) &&& (s.srcS x).setWidth 32 = 0) :
    exec (.brel x) s = .next (s.buffered 1 0 [] (.release ((s.srcS x).setWidth 32))) := by
  show s.settle (s.brelIssue x) = _
  rw [State.brelIssue, needRegion_of_regional hr]
  simp only [ok_bind, hz, BEq.rfl, check_true, hp, Bool.false_eq_true, if_false, bufRoom_of_has hb]
  cases hg : s.rgn with
  | none => simp only [check_true, ok_bind, issueOf_ok, settle_done, applyAll_cons, applyAll_nil, apply_buffer_newEntry]
  | some r =>
    simp only [h r hg, BEq.rfl, check_true, ok_bind, issueOf_ok, settle_done, applyAll_cons, applyAll_nil, apply_buffer_newEntry]

end

/-- R230: a mask above 32 bits names a vault that does not exist. -/
theorem exec_ownership_reserved (hr : s.regional) (hz : bits (s.srcS x) 32 32 ≠ 0) :
    exec (.bacq x) s = s.raises .vaultOwnership ∧ exec (.brel x) s = s.raises .vaultOwnership := by
  have hf : (bits (s.srcS x) 32 32 == 0) = false := beq_false_of_ne hz
  constructor
  all_goals
    refine settle_of_cause ?_
    rw [needRegion_of_regional hr]
    simp only [ok_bind, hf, check_false, error_bind]

/-! ## WAITE (R231) -/

theorem exec_waite_reserved (hr : s.regional) (hz : bits (s.srcS x) 4 60 ≠ 0) : exec (.waite x) s = s.raises .engineMask := by
  refine settle_of_cause ?_
  have hf : (bits (s.srcS x) 4 60 == 0) = false := beq_false_of_ne hz
  rw [needRegion_of_regional hr]
  simp only [ok_bind, hf, check_false, error_bind]

theorem exec_waite (hr : s.regional) (hz : bits (s.srcS x) 4 60 = 0) : exec (.waite x) s =
    if (List.range 4).any fun i => (s.srcS x).getLsbD i && s.engineBusy s.k.jobtag i then .next (s.stalls 0x06) else .next s := by
  show s.settle (s.waiteIssue x) = _
  rw [State.waiteIssue, needRegion_of_regional hr]
  simp only [ok_bind, hz, BEq.rfl, check_true]
  cases (List.range 4).any fun i => (s.srcS x).getLsbD i && s.engineBusy s.k.jobtag i <;> rfl

end
end Sys2Proof.Machine

namespace Sys2Proof.Proofs
open Sys2Proof Sys2Proof.Machine

/-- Settles O30: each instruction's checks pass, and it goes on, stalls or enters the buffer. -/
theorem synchronisationInstructions : Obligations.SynchronisationInstructions := by
  intro s set x y p c X a word holds m pol node missed hr
  have hholds : condHolds c word (s.srcS y).toNat = true ↔ holds := by cases c <;> simp [condHolds, holds]
  refine ⟨fun ha he ho => ⟨fun h => ?_, fun h => ?_⟩, fun hp hset ha he hb => ⟨fun hn hd ho => ?_, fun hn hl hf => exec_sigw_away hp hr hset ha he hb hn hl hf⟩,
    fun hp hz hb => ⟨fun h => exec_bacq hp hr hz hb h, fun h => exec_brel hp hr hz hb h⟩,
    fun hz => ⟨fun h => ?_, fun i hi hx h => ?_⟩, exec_waite_reserved hr, exec_ownership_reserved hr⟩
  · rw [exec_waita hr ha he ho, if_pos (hholds.2 h)]
  · rw [exec_waita hr ha he ho, if_neg (mt hholds.1 h)]
  · rw [exec_sigw_here hp hr hset ha he hb hn hd ho, ← hn]; rfl
  · rw [exec_waite hr hz, if_neg]
    simp only [List.any_eq_true, List.mem_range, Bool.and_eq_true, not_exists, not_and, Bool.not_eq_true]
    exact h
  · rw [exec_waite hr hz, if_pos]
    exact List.any_eq_true.2 ⟨i, List.mem_range.2 hi, by rw [hx, h]; rfl⟩

end Sys2Proof.Proofs
end

section
/-! # O29: copies at issue (08_scratchpad, R217, R218, R221, R224) -/

namespace Sys2Proof.Machine

theorem exec_copyInstr (s : State) (kind : CopyKind) (x y : SSrc) (res : Bool) : exec (copyInstr kind x y res) s =
    s.cpyIssue kind x (if kind = .lattice then some (s.srcS y) else none) res := by cases kind <;> rfl

/-- The dimension set of a copy: only CPYX has one. -/
def State.copySet (s : State) (kind : CopyKind) (y : SSrc) : Nat := if kind = .lattice then bits (s.srcS y) 0 14 else 0

/-- The command that a copy of the region `r` is, with no progress, its descriptor at `a`. -/
def State.copyCommand (s : State) (r : Region) (kind : CopyKind) (a : Nat) (y : SSrc) (res : Bool) : CopyCmd :=
  let desc := Memory.dwords s.sp a 8
  { id := s.nextId, slot := s.seq.bun.slot, seq := s.seq.count, since := r.seq, job := s.k.jobtag, kind := kind, desc := desc,
    map := if kind = .walk then Memory.dwords s.sp (bits (dwAt desc 4) 0 28) 8 else [], spol := s.srcY (bits (dwAt desc 0) 49 3),
    dpol := s.srcY (bits (dwAt desc 1) 49 3), sigpol := s.srcY (bits (dwAt desc 2) 28 3), set := BitVec.ofNat 14 (s.copySet kind y), res := res,
    prog := 0, rmask := r.rmask, wmask := r.wmask, region := some r.id, sup := false, cube := s.k.cube, leaves := [], data := [], admitted := false,
    waitsVault := false, out := [], sent := false, invals := [] }

/-- What the issue of a copy of a program checks (R217, R218): its operands `x` and `y`, the block of its descriptor, the command `c` that it is. -/
structure State.CopyPasses (s : State) (kind : CopyKind) (x y : SSrc) (c : CopyCmd) : Prop where
  reserved : bits (s.srcS x) 28 36 = 0
  aligned : bits (s.srcS x) 0 28 % 64 = 0
  readable : s.mayUse (bits (s.srcS x) 0 28) 64 .read
  set : kind = .lattice → s.k.setOk (s.srcS y) false = true
  live : s.lost (if kind = .lattice then s.k.peer (s.copySet kind y) else s.k.nodeId) = false
  common : copyCommonOk c.desc = true
  byKind : copyKindOk kind c.desc = true
  map : kind = .walk → bits (dwAt c.desc 4) 0 28 % 64 = 0 ∧ s.mayUse (bits (dwAt c.desc 4) 0 28) 64 .read ∧ mapOk c = true
  symmetric : kind = .lattice → (c.pull = true → c.srcGlobal = true → isSymmetric (BitVec.ofNat 48 c.src) = true)
    ∧ (c.pull = false → c.dstGlobal = true → isSymmetric (BitVec.ofNat 48 c.dst) = true)

section
variable {s : State} {r : Region} {kind : CopyKind} {x y : SSrc} {res : Bool} {c : CopyCmd}

/-- R217: a block in a read vault is read at issue. -/
theorem readBlock_of_mayUse {a : Nat} (ha : a % 64 = 0) (hm : s.mayUse a 64 .read) : s.readBlock a = .ok (Memory.dwords s.sp a 8) := by
  rw [State.readBlock, ha, spCheck_of_mayUse hm]
  rfl

theorem not_and_or_eq_true {a b d : Bool} (h : a = true → b = true → d = true) : (!(a && b) || d) = true := by
  rw [Bool.or_eq_true, Bool.not_eq_true', Bool.and_eq_false_iff, ← Bool.not_eq_true a, ← Bool.not_eq_true b]
  tauto

theorem checks_eq_ok {b1 b2 b3 : Bool} {c1 c2 c3 : Cause} {v : CopyCmd} (h1 : b1 = true) (h2 : b2 = true) (h3 : b3 = true) :
    (do check b1 c1; check b2 c2; check b3 c3; .ok v : Except Issue CopyCmd) = .ok v := by rw [h1, h2, h3]; rfl

/-- The last checks of an issue, as it makes them. -/
theorem State.CopyPasses.checks (h : s.CopyPasses kind x y c) : (kind != .walk || mapOk c) = true
    ∧ (!(kind == .lattice && c.pull && c.srcGlobal) || isSymmetric (BitVec.ofNat 48 c.src)) = true
    ∧ (!(kind == .lattice && !c.pull && c.dstGlobal) || isSymmetric (BitVec.ofNat 48 c.dst)) = true := by
  have hmap (hw : kind = .walk) : mapOk c = true := (h.map hw).2.2
  have hsym := h.symmetric
  cases kind with
  | linear | rows => exact ⟨rfl, rfl, rfl⟩
  | walk => exact ⟨hmap rfl, rfl, rfl⟩
  | lattice =>
    obtain ⟨hpull, hpush⟩ := hsym rfl
    exact ⟨rfl, not_and_or_eq_true hpull, not_and_or_eq_true fun hb => hpush ((Bool.not_eq_true' _).mp hb)⟩

theorem cpyCommand_of_passes (hp : s.k.priv = false) (hr : s.rgn = some r) (hc : c = s.copyCommand r kind (bits (s.srcS x) 0 28) y res)
    (h : s.CopyPasses kind x y c) :
    s.cpyCommand kind x (if kind = .lattice then some (s.srcS y) else none) res = .ok { c with prog := if res then skipPieces c 4 s.progress else 0 } := by
  subst hc
  obtain ⟨hmapOk, hpull, hpush⟩ := h.checks
  have hdesc := readBlock_of_mayUse h.aligned h.readable
  have hok : (copyCommonOk (Memory.dwords s.sp (bits (s.srcS x) 0 28) 8) && copyKindOk kind (Memory.dwords s.sp (bits (s.srcS x) 0 28) 8)) = true :=
    Bool.and_eq_true_iff.2 ⟨h.common, h.byKind⟩
  have hlive := h.live
  have hset := h.set
  have hmap (hw : kind = .walk) : s.readBlock (bits (dwAt (Memory.dwords s.sp (bits (s.srcS x) 0 28) 8) 4) 0 28) = _ :=
    readBlock_of_mayUse (h.map hw).1 (h.map hw).2.1
  unfold State.cpyCommand
  rw [needRegion_of_regional (.inr (.inl (by rw [hr]; rfl)))]
  simp only [ok_bind, h.reserved, BEq.rfl, check_true, hp, hr]
  cases kind with
  | linear | rows =>
    simp only [reduceCtorEq, if_false] at hlive ⊢
    simp only [ok_bind, hlive, Bool.not_false, check_true, hdesc, hok]
    exact checks_eq_ok hmapOk hpull hpush
  | walk =>
    simp only [reduceCtorEq, if_false, if_true] at hlive ⊢
    simp only [ok_bind, hlive, Bool.not_false, check_true, hdesc, hok, hmap rfl]
    exact checks_eq_ok hmapOk hpull hpush
  | lattice =>
    simp only [reduceCtorEq, if_false, if_true, State.copySet] at hlive ⊢
    simp only [ok_bind, targetOf_of_setOk (hset rfl), hlive, Bool.not_false, check_true, hdesc, hok]
    exact checks_eq_ok hmapOk hpull hpush

/-! ## The queue of the engine (R221, R224) -/

/-- What a command reads and marks in its region at issue (R69, R132). -/
def State.copyReading (s : State) (c : CopyCmd) : State :=
  if c.res then (s.readsOf (polReads c.desc)).resuming else s.readsOf (polReads c.desc)

theorem applyAll_copyReading (es : List Effect) :
    applyAll s ((.reads (polReads c.desc) :: if c.res then [.resumes] else []) ++ es) = applyAll (s.copyReading c) es := by
  unfold State.copyReading
  split <;> rfl

theorem settle_cpyQueue_full (h : 32 ≤ s.copiesOut) : s.settle (s.cpyQueue c) = .next (s.stalls 0x0A) := by
  rw [State.cpyQueue, decide_eq_false (not_lt.2 h)]
  rfl

section
variable (hn : s.copiesOut < 32)
include hn

theorem settle_cpyQueue_scratchpad (hd : c.dstGlobal = false) : s.settle (s.cpyQueue c) =
    .next { s.copyReading c with eng := { s.eng with copies := s.eng.copies ++ [c] }, nextId := s.nextId + 1 } := by
  simp only [State.cpyQueue, decide_eq_true hn, await_true, ok_bind, hd, Bool.false_eq_true, if_false, issueOf_ok, settle_done, applyAll_copyReading]
  unfold State.copyReading
  split <;> rfl

theorem settle_cpyQueue_global (hd : c.dstGlobal = true) (hb : s.bufferHas 1) :
    s.settle (s.cpyQueue c) = .next ((s.copyReading c).buffered 1 c.dpol [] (.copy c)) := by
  simp only [State.cpyQueue, decide_eq_true hn, await_true, ok_bind, hd, if_true, bufRoom_of_has hb, issueOf_ok, settle_done, applyAll_copyReading,
    applyAll_cons, applyAll_nil, apply_buffer_newEntry]

end

/-- A copy of a program whose checks pass waits for room in the engine. -/
theorem exec_copyInstr_of_passes (hp : s.k.priv = false) (hr : s.rgn = some r) (hc : c = s.copyCommand r kind (bits (s.srcS x) 0 28) y res)
    (h : s.CopyPasses kind x y c) :
    exec (copyInstr kind x y res) s = s.settle (s.cpyQueue { c with prog := if res then skipPieces c 4 s.progress else 0 }) := by
  rw [exec_copyInstr, State.cpyIssue, cpyCommand_of_passes hp hr hc h, hp]
  rfl

end
end Sys2Proof.Machine
end

section
/-! # O29: a linear copy within the scratchpad (08_scratchpad, R214, R215, R218 to R221, R226) -/

namespace Sys2Proof.Machine

theorem find?_eq_some_of_unique {α : Type} {l : List α} {f : α → Bool} {a : α} (ha : a ∈ l) (hf : f a = true) (hu : ∀ b ∈ l, f b = true → b = a) :
    l.find? f = some a := by
  obtain ⟨b, hb⟩ := Option.isSome_iff_exists.1 (List.find?_isSome.2 ⟨a, ha, hf⟩)
  rw [hb, hu b (List.mem_of_find?_eq_some hb) (List.find?_some hb)]

/-! ## Copies of bytes -/

theorem read_write_bytes {m : Memory} (a b n q : Nat) (ok : Memory.wf m = true) : Memory.read (Memory.write m b (Memory.bytes m a n)) q =
    if b ≤ q ∧ q < b + n then Memory.read m (a + (q - b)) else Memory.read m q := by
  rw [Memory.read_write b q _ ok, Memory.bytes_length]
  split
  · rw [Memory.bytes_eq a n ok, List.getElem?_map, List.getElem?_range (by omega)]; rfl
  · rfl

/-- `m` after a copy of `n` bytes from `a` to `b`. -/
def Memory.Copied (m m' : Memory) (a b n : Nat) : Prop :=
  Memory.wf m' = true ∧ ∀ q, Memory.read m' q = if b ≤ q ∧ q < b + n then Memory.read m (a + (q - b)) else Memory.read m q

/-- A copy of a run is a copy of its first bytes and of the rest, when the run does not overlap its copy. -/
theorem Memory.Copied.append {m m1 m2 : Memory} {a b n k : Nat} (h1 : m.Copied m1 a b n) (h2 : m1.Copied m2 (a + n) (b + n) k)
    (h : a + (n + k) ≤ b ∨ b + (n + k) ≤ a) : m.Copied m2 a b (n + k) := by
  refine ⟨h2.1, fun q => ?_⟩
  rw [h2.2 q]
  by_cases hq : b + n ≤ q ∧ q < b + n + k
  · rw [if_pos hq, if_pos (by omega), h1.2, if_neg (by omega)]
    congr 1; omega
  · rw [if_neg hq, h1.2 q]
    by_cases hq1 : b ≤ q ∧ q < b + n
    · rw [if_pos hq1, if_pos (by omega)]
    · rw [if_neg hq1, if_neg (by omega)]

/-! ## Pieces (R217) -/

/-- A piece of one part. -/
def Piece.one (a b n : Nat) : Piece := ⟨[(some a, n)], b, n⟩

/-- A run that is not empty begins with a piece that is not. -/
theorem runPieces_succ {unit : Nat} (hu : 0 < unit) (fuel a b off : Nat) {len : Nat} (h : len ≠ 0) : ∃ k, 0 < k ∧ k ≤ len ∧
    runPieces unit (fuel + 1) a b off len = .one a b k :: runPieces unit fuel (a + k) (b + k) (off + k) (len - k) :=
  ⟨min (min len unit) (min (min (128 - a % 128) (128 - b % 128)) (65536 - off % 65536)), by omega, by omega, if_neg h⟩

theorem movePieces_cons {s s1 : State} {c c1 : CopyCmd} {p : Piece} (h : s.movePiece c p = .done s1 c1) (n : Nat) (l : List Piece) :
    s.movePieces c (n + 1) (p :: l) = s1.movePieces c1 n l := by rw [State.movePieces, h]

section
variable {s : State} {c : CopyCmd}

/-! ## The command of an act -/

theorem findCopy_of_mem (hc : c ∈ s.eng.copies) (hu : ∀ x ∈ s.eng.copies, x.id = c.id → x = c) (hev : s.ev.id = c.id) : s.findCopy s.ev.id = some c := by
  have hf : (s.eng.copies.find? fun x => x.id == c.id) = some c := find?_eq_some_of_unique hc BEq.rfl fun b hb h => hu b hb (beq_iff_eq.1 h)
  rw [State.findCopy, hev, List.find?_append, hf]
  rfl

/-- A command that has no entry in the buffer leaves the engine alone. -/
theorem copyGone_of_not_held {id : Nat} (h : ∀ e ∈ s.buf, ∀ x, e.op = .copy x → x.id ≠ id) :
    s.copyGone id = { s with eng := { s.eng with copies := s.eng.copies.filter fun x => x.id != id } } := by
  rw [State.copyGone, (List.filter_eq_self (l := s.buf)).2]
  intro e he
  split
  · next x hx => rw [bne_iff_ne.2 (h e he x hx)]; rfl
  · rfl

/-- R220: an engine error ends an admitted copy, and no signal is written. -/
theorem exec_engineError_copy (hc : c ∈ s.eng.copies) (hu : ∀ x ∈ s.eng.copies, x.id = c.id → x = c) (hev : s.ev.id = c.id) (ha : c.admitted = true) :
    exec .engineError s = .next ((s.copyGone c.id).engineFault c.job 5 0) := by
  have hf : (s.eng.copies.find? fun x => x.id == c.id && x.admitted) = some c :=
    find?_eq_some_of_unique hc (by rw [BEq.rfl, ha]; rfl) fun b hb h => hu b hb (beq_iff_eq.1 (Bool.and_eq_true_iff.1 h).1)
  show execEngineError s = _
  rw [execEngineError, State.commandStops, hev, hf]
  rfl

/-- R221: a command that is ready runs. -/
theorem exec_copyComplete (hf : s.findCopy s.ev.id = some c) (hc : c ∈ s.eng.copies) (hres : c.res = false) (hsent : c.sent = false)
    (hready : s.copyReady c = true) : exec .copyComplete s = .next (s.runCopy c (s.copyPieces c)) := by
  have hcont : s.eng.copies.contains c = true := List.contains_iff_mem.2 hc
  show execCopyComplete s = _
  simp only [execCopyComplete, hf, hsent, hready, hres, hcont, Bool.false_eq_true, if_false, Bool.and_self, if_true]

/-- R214, R218: an extent of the job's own that the issuing region allows is admitted. -/
theorem admitSp_ok {w : Bool} {a n : Nat} (hs : c.sup = false) (he : spExtent a n = true) (ho : s.ownedBy c.job (vaultOf a) = true)
    (hr : w = false → c.rmask.getLsbD (vaultOf a) = true) (hw : w = true → (c.rmask ||| c.wmask).getLsbD (vaultOf a) = false) :
    s.admitSp c w (a, n) = .ok := by
  unfold State.admitSp
  cases w with
  | false => simp [he, hs, ho, hr rfl]
  | true =>
    obtain ⟨h1, h2⟩ : c.rmask.getLsbD (vaultOf a) = false ∧ c.wmask.getLsbD (vaultOf a) = false := by simpa using hw rfl
    simp [he, hs, ho, h1, h2]

theorem copyUnit_pos : 0 < s.copyUnit c := by unfold State.copyUnit; split <;> decide

/-- The scratchpad after a command's own signal word, if it has one (R215). -/
def CopyCmd.signalled (c : CopyCmd) (m : Memory) : Memory := if c.sigOn then Memory.write m c.sigAddr (toBytes 8 c.sigVal.toNat) else m

theorem read_signalled {m : Memory} (q : Nat) (ok : Memory.wf m = true) : Memory.read (c.signalled m) q =
    if c.sigOn = true ∧ c.sigAddr ≤ q ∧ q < c.sigAddr + 8 then BitVec.ofNat 8 (c.sigVal.toNat / 256 ^ (q - c.sigAddr)) else Memory.read m q := by
  unfold CopyCmd.signalled
  cases c.sigOn with
  | false => simp only [Bool.false_eq_true, if_false, false_and]
  | true => simp only [if_true, true_and, read_write_toBytes _ 8 _ q ok]

/-! ## Linear copies within the scratchpad -/

/-- A copy of one run of bytes whose ends both lie in the scratchpad of this node (R217). -/
structure CopyCmd.Local (c : CopyCmd) : Prop where
  kind : c.kind = .linear
  src : c.srcGlobal = false
  dst : c.dstGlobal = false

/-- Its length. -/
def CopyCmd.len (c : CopyCmd) : Nat := bits (dwAt c.desc 4) 0 40

section
variable (hl : c.Local)
include hl

theorem srcAway_of_local : s.srcAway c = false := by rw [State.srcAway, hl.kind]; rfl
theorem dstAway_of_local : s.dstAway c = false := by rw [State.dstAway, hl.kind]; rfl

theorem srcEnd_of_local (a : Nat) : s.srcEnd c a = some ⟨.spad a, physAttr, s.tlb⟩ := by rw [State.srcEnd, State.endAt, srcAway_of_local hl, hl.src]; rfl
theorem dstEnd_of_local (a : Nat) : s.dstEnd c a = some ⟨.spad a, physAttr, s.tlb⟩ := by rw [State.dstEnd, State.endAt, dstAway_of_local hl, hl.dst]; rfl

/-! ## Admission (R214, R218, R219) -/

theorem copyAdmits_of_local (hsrc : s.admitSp c false (c.src, c.len) = .ok) (hdst : s.admitSp c true (c.dst, c.len) = .ok)
    (hsig : c.sigOn = true → s.admitSp c true (c.sigAddr, 8) = .ok) : s.copyAdmits c = .ok := by
  have hs : srcExtents c = [(c.src, c.len)] := by rw [srcExtents, hl.kind]; rfl
  have hd : dstExtents c = [(c.dst, c.len)] := by rw [dstExtents, hl.kind]; rfl
  have hpsig : s.psigHere c = false := by rw [State.psigHere, hl.kind]; rfl
  simp only [State.copyAdmits, srcAway_of_local hl, dstAway_of_local hl, hl.src, hl.dst, hs, hd, hpsig, hl.kind, admitAll, hsrc, hdst, Admission.and]
  cases hon : c.sigOn with
  | false => rfl
  | true => simp only [hsig hon]; rfl

/-- It translates no page. -/
theorem withLeaves_of_local : s.withLeaves c = (s, { c with leaves := [], admitted := true, waitsVault := false }) := by
  have hp : s.copyPages c = [] := by rw [State.copyPages, hl.src, hl.dst]; rfl
  rw [State.withLeaves, hp]
  rfl

theorem exec_copyAdmission_of_local (hf : s.findCopy s.ev.id = some c) (hn : c.admitted = false) (ha : s.copyAdmits c = .ok) :
    exec .copyAdmission s = .next (s.setCopy { c with leaves := [], admitted := true, waitsVault := false }) := by
  show execCopyAdmission s = _
  simp only [execCopyAdmission, hf, hn, ha, withLeaves_of_local hl]
  rfl

/-! ## The payload (R215) -/

/-- One piece is read and written at once. -/
theorem movePiece_of_local (a b n : Nat) : s.movePiece c (.one a b n) = .done { s with
    sp := Memory.write s.sp b (Memory.bytes s.sp a n), rtags := tagWrite s.rtags (.spad b) n none } { c with prog := c.prog + 1 } := by
  have hw : s.pieceWaits c (.one a b n) = false := by rw [State.pieceWaits, hl.kind]; rfl
  have hp : s.pieceParts c 0 [(some a, n)] = some [(0, n, some ⟨.spad a, physAttr, s.tlb⟩)] := by
    simp only [State.pieceParts, srcEnd_of_local hl, Option.map_some]
  have hd (u : State) : u.writePiece c b (Memory.bytes s.sp a n) = .done (u.writeHome (.spad b) physAttr (Memory.bytes s.sp a n) none) c := by
    rw [State.writePiece, dstEnd_of_local hl]; rfl
  have hb : [((0 : Nat), n, some (Xlat.mk (.spad a) physAttr s.tlb))].flatMap s.partBytes = Memory.bytes s.sp a n := List.append_nil _
  simp only [State.movePiece, show (Piece.one a b n).srcs = [(some a, n)] from rfl, hp, hw, hb, show (Piece.one a b n).dst = b from rfl]
  rw [if_neg (by decide), if_neg (by simp [partFar, isHere]), hd]
  simp [State.writeHome, State.touchParts, State.touch]

/-- The pieces of a run that does not overlap its copy move in order, and copy it. -/
theorem movePieces_runPieces {unit : Nat} (hu : 0 < unit) {fuel a b off len : Nat} (hf : len < fuel) (hd : a + len ≤ b ∨ b + len ≤ a)
    (hwf : Memory.wf s.sp = true) :
    ∃ sp rt, s.movePieces c (runPieces unit fuel a b off len).length (runPieces unit fuel a b off len) =
        ({ s with sp := sp, rtags := rt }, { c with prog := c.prog + (runPieces unit fuel a b off len).length }, true)
      ∧ Memory.Copied s.sp sp a b len := by
  induction fuel generalizing s c a b off len with
  | zero => omega
  | succ fuel ih =>
    by_cases h0 : len = 0
    · subst h0
      exact ⟨s.sp, s.rtags, rfl, hwf, fun q => by rw [if_neg (by omega)]⟩
    · obtain ⟨k, hk, hle, hrun⟩ := runPieces_succ hu fuel a b off h0
      obtain ⟨sp, rt, hmove, hcopy⟩ := ih (c := { c with prog := c.prog + 1 }) (a := a + k) (b := b + k) (off := off + k) (len := len - k)
        (s := { s with sp := Memory.write s.sp b (Memory.bytes s.sp a k), rtags := tagWrite s.rtags (.spad b) k none })
        ⟨hl.kind, hl.src, hl.dst⟩ (by omega) (by omega) (Memory.wf_write b _ hwf)
      have hfirst : Memory.Copied s.sp (Memory.write s.sp b (Memory.bytes s.sp a k)) a b k :=
        ⟨Memory.wf_write b _ hwf, fun q => read_write_bytes a b k q hwf⟩
      refine ⟨sp, rt, ?_, Nat.add_sub_of_le hle ▸ hfirst.append hcopy (by omega)⟩
      rw [hrun, List.length_cons, movePieces_cons (movePiece_of_local hl a b k), hmove, Nat.add_right_comm, Nat.add_assoc]

/-! ## Completion (R215, R221, R226) -/

/-- The signal is written, and the command is gone. -/
theorem copySignals_of_local : ∃ rt, s.copySignals c = State.copyGone { s with sp := c.signalled s.sp, rtags := rt } c.id := by
  rw [State.copySignals, if_neg (by simp [hl.kind]), CopyCmd.signalled]
  cases c.sigOn <;> exact ⟨_, rfl⟩

section
variable (hres : c.res = false) (hprog : c.prog = 0) (hdata : c.data = []) (hd : c.src + c.len ≤ c.dst ∨ c.dst + c.len ≤ c.src)
  (hwf : Memory.wf s.sp = true)
include hres hprog hdata hd hwf

/-- The whole payload moves. -/
theorem movePart_of_local : ∃ sp rt, s.movePart c (s.copyPieces c) ((piecesFor c (s.copyUnit c)).drop c.prog) =
      ({ s with sp := sp, rtags := rt }, { c with prog := (piecesFor c (s.copyUnit c)).length }, true)
    ∧ Memory.Copied s.sp sp c.src c.dst c.len := by
  have hps : piecesFor c (s.copyUnit c) = runPieces (s.copyUnit c) (c.len + 1) c.src c.dst 0 c.len := by rw [piecesFor, hl.kind]; rfl
  obtain ⟨sp, rt, hmove, hcopy⟩ := movePieces_runPieces (s := s) hl copyUnit_pos (Nat.lt_succ_self c.len) hd hwf (off := 0)
  rw [← hps, hprog, Nat.zero_add] at hmove
  have hn : s.copyPieces c = (piecesFor c (s.copyUnit c)).length := if_neg (by rw [hres]; exact Bool.false_ne_true)
  have hread : s.writeData c (c.data.map (·.1)) = (s, c, true) := by rw [hdata]; rfl
  have hpush : c.pushes = 0 := if_neg (by simp [hl.kind])
  refine ⟨sp, rt, ?_, hcopy⟩
  rw [hprog, List.drop_zero, hn, State.movePart, hread]
  simp only [hmove, State.dataLeaves, hpush, if_true, ite_self]

/-- R215: the signal word is written when the payload has been. -/
theorem runCopy_of_local (hout : c.out = []) : ∃ sp rt, s.runCopy c (s.copyPieces c) = State.copyGone { s with sp := c.signalled sp, rtags := rt } c.id
    ∧ Memory.Copied s.sp sp c.src c.dst c.len := by
  obtain ⟨sp, rt, hpart, hcopy⟩ := movePart_of_local hl hres hprog hdata hd hwf
  obtain ⟨rt', hsig⟩ := copySignals_of_local (s := { s with sp := sp, rtags := rt }) (c := { c with prog := (piecesFor c (s.copyUnit c)).length })
    ⟨hl.kind, hl.src, hl.dst⟩
  have hsettled : CopyCmd.settled { c with prog := (piecesFor c (s.copyUnit c)).length } = true := by
    show (c.out.isEmpty && c.data.isEmpty) = true
    rw [hout, hdata]; rfl
  refine ⟨sp, rt', ?_, hcopy⟩
  rw [State.runCopy, hpart]
  exact (if_neg Bool.false_ne_true).trans ((if_pos ⟨le_rfl, hsettled⟩).trans hsig)

end

end
end
end Sys2Proof.Machine

namespace Sys2Proof.Proofs
open Sys2Proof Sys2Proof.Machine

/-- Settles O29: a copy's checks pass and it joins the engine or the buffer; a copy within the scratchpad moves its pieces in order, then signals. -/
theorem copiesIssueAndRun : Obligations.CopiesIssueAndRun := by
  refine ⟨?_, ?_⟩
  · intro s r kind x y res a desc mapAt set node pol c0 c s1 hp hr h0 ha hm hset hlive hcommon hkind hmap hsym
    have hc0 : c0 = s.copyCommand r kind a y res := rfl
    rw [exec_copyInstr_of_passes hp hr hc0 ⟨h0, ha, hm, hset, hlive, hcommon, hkind, hmap, hsym⟩]
    exact ⟨fun hd hn => settle_cpyQueue_scratchpad hn hd, fun hd hn hb => settle_cpyQueue_global hn hd hb, settle_cpyQueue_full⟩
  · intro s c n gone hc hu hheld hev
    have hf := findCopy_of_mem hc hu hev
    have hgone : s.copyGone c.id = gone := copyGone_of_not_held hheld
    refine ⟨fun hk hs hd hsup hadm hes hed hos hod hrs hrd hsig => ?_, fun hk hs hd hres hsent hprog hout hdata hready hapart hwf => ?_, fun ha => ?_⟩
    · have hl : c.Local := ⟨hk, hs, hd⟩
      exact exec_copyAdmission_of_local hl hf hadm (copyAdmits_of_local hl (admitSp_ok hsup hes hos (fun _ => hrs) nofun)
        (admitSp_ok hsup hed hod nofun fun _ => hrd) fun hon => admitSp_ok hsup (hsig hon).1 (hsig hon).2.1 nofun fun _ => (hsig hon).2.2)
    · have hl : c.Local := ⟨hk, hs, hd⟩
      obtain ⟨sp, rt, hrun, hwf', hcopy⟩ := runCopy_of_local hl hres hprog hdata hapart hwf hout
      refine ⟨c.signalled sp, rt, ?_, fun q => (read_signalled q hwf').trans (if_congr Iff.rfl rfl (hcopy q))⟩
      rw [exec_copyComplete hf hc hres hsent hready, hrun]
      exact congrArg _ (copyGone_of_not_held (s := { s with sp := c.signalled sp, rtags := rt }) hheld)
    · rw [exec_engineError_copy hc hu hev ha, hgone]

end Sys2Proof.Proofs
end

section
/-! # O44: vaults change hands (08_scratchpad, R211 to R213; 14_launch, R377) -/

namespace Sys2Proof.Machine

section
variable {s : State} {q : Nat}

/-! ## Queues -/

/-- A queue that holds a record is one of the 64: any other reads as it is after reset. -/
theorem lt_length_of_recs_head? {r : Record} (h : (s.queue q).recs.head? = some r) : q < s.sch.queues.length := by
  by_contra hq
  rw [State.queue, List.getElem?_eq_none (not_lt.1 hq)] at h
  cases h

theorem updQueue_getElem? (sc : Sched) (g : LQueue → LQueue) (p : Nat) :
    (updQueue sc q g).queues[p]? = (sc.queues[p]?).map fun l => if p = q then g l else l := by
  simp [updQueue, List.getElem?_zipIdx, Function.comp_def]

theorem queue_setQueue_same (g : LQueue → LQueue) (h : q < s.sch.queues.length) : (s.setQueue q g).queue q = g (s.queue q) := by
  rw [State.queue, State.setQueue, updQueue_getElem?, State.queue, List.getElem?_eq_getElem h, Option.map_some, if_pos rfl]
  rfl

theorem queue_setQueue_other (g : LQueue → LQueue) {p : Nat} (h : p ≠ q) : (s.setQueue q g).queue p = s.queue p := by
  rw [State.queue, State.setQueue, updQueue_getElem?, State.queue]
  simp only [if_neg h, Option.map_id']

/-- R379: a request to switch records when its grace period ends, and changes nothing else. -/
theorem requestSwitch_eq (s : State) : ∃ p, s.requestSwitch = { s with sch := { s.sch with preempt := p } } := by
  unfold State.requestSwitch
  split
  · split <;> exact ⟨_, rfl⟩
  · exact ⟨_, rfl⟩

/-! ## Grants (R212, R377) -/

theorem vaultsReady_iff : s.vaultsReady q = true ↔ (s.queue q).state = .acquiring ∧ (∀ b ∈ s.acqs, b.whole = true → b.queue ≠ q)
    ∧ ∃ r, (s.queue q).recs.head? = some r ∧ ∀ n y, (recVaults r).getLsbD n = true → s.vaults[n]? = some y → y.state ≠ .scrubbing := by
  have hlt (r : Record) (n : Nat) (h : (recVaults r).getLsbD n = true) : n < 32 := BitVec.lt_of_getLsbD h
  unfold State.vaultsReady
  cases (s.queue q).recs.head? with
  | none => simp
  | some r =>
    simp only [Bool.and_eq_true, beq_iff_eq, Bool.not_eq_true', List.any_eq_false, List.all_eq_true, maskVaults, List.mem_filter, List.mem_range,
      Option.all_eq_true, bne_iff_ne, Option.some.injEq, exists_eq_left', and_assoc, not_and, ne_eq]
    exact and_congr_right fun _ => and_congr_right fun _ =>
      ⟨fun h n y hn => h n ⟨hlt r n hn, hn⟩ y, fun h n hn y => h n y hn.2⟩

/-- R377: a program whose groups are good is ready; every other queue stays. -/
theorem granted_of_groupsOk {r : Record} (hr : (s.queue q).recs.head? = some r) (hg : s.groupsOk r = true) :
    ∃ sc, s.granted q = { s with sch := sc } ∧ (State.queue { s with sch := sc } q).state = .ready
      ∧ ∀ p, p ≠ q → State.queue { s with sch := sc } p = s.queue p := by
  let ready : LQueue → LQueue := fun l => { l with state := .ready }
  obtain ⟨c, hc⟩ := requestSwitch_eq (s.setQueue q ready)
  have hgrant : s.granted q = (s.setQueue q ready).requestSwitch := by
    rw [State.granted, hr]
    exact if_pos hg
  refine ⟨_, hgrant.trans hc, ?_, fun p hp => queue_setQueue_other ready hp⟩
  exact congrArg LQueue.state (queue_setQueue_same ready (lt_length_of_recs_head? hr))

/-- `s` with the vaults of an acquisition granted. -/
def State.granting (s : State) (a : Acq) : State :=
  { s with vaults := mapVaults s.vaults a.vaults (grantVault s.clock a.job), acqs := s.acqs.erase a }

theorem exec_vaultAcquisitionGrant {a : Acq} (h : s.nextGrant = some a) : exec .vaultAcquisitionGrant s =
    .next ((if (s.granting a).vaultsReady a.queue then (s.granting a).granted a.queue else s.granting a).admitAllOf a.job) := by
  show execVaultAcquisitionGrant s = _
  rw [execVaultAcquisitionGrant, h]
  rfl

/-! ## Releases and scrubbing (R211, R213) -/

theorem exec_vaultReleaseComplete {v : Vault} (hv : s.vaults[s.ev.num]? = some v) (hs : v.state = .releasing)
    (hu : s.vaultInUse v.owner s.ev.num = false) :
    exec .vaultReleaseComplete s = .next { s with vaults := s.vaults.set s.ev.num { v with state := .free, last := some v.owner } } := by
  show execVaultReleaseComplete s = _
  rw [execVaultReleaseComplete, hv]
  exact if_pos ⟨hs, by rw [hu]; rfl⟩

theorem scrubbed_eq {n : Nat} {v : Vault} (hv : s.vaults[n]? = some v) (hs : v.state = .scrubbing) (he : v.scrubEnd ≤ s.clock) :
    s.scrubbed n = { s with
      vaults := s.vaults.set n { v with state := .owned, last := some v.owner }, sp := Memory.clear s.sp (0x800000 * n) 0x600000 } := by
  rw [State.scrubbed, hv]
  exact if_pos ⟨hs, he⟩

theorem exec_scrubComplete {v : Vault} (hv : s.vaults[s.ev.num]? = some v) (hs : v.state = .scrubbing) (he : v.scrubEnd ≤ s.clock) :
    exec .scrubComplete s =
      .next (((List.range 64).foldl (fun u q => if u.vaultsReady q then u.granted q else u) (s.scrubbed s.ev.num)).admitAllOf v.owner) := by
  have hlt : s.ev.num < s.vaults.length := (List.getElem?_eq_some_iff.1 hv).1
  have hown : (s.scrubbed s.ev.num).vaults[s.ev.num]? = some { v with state := .owned, last := some v.owner } := by
    rw [scrubbed_eq hv hs he]
    exact List.getElem?_set_self hlt
  show execScrubComplete s = _
  simp only [execScrubComplete, hown]

end
end Sys2Proof.Machine

namespace Sys2Proof.Proofs
open Sys2Proof Sys2Proof.Machine

/-- Settles O44: each act finds its vault or its acquisition; a queue is ready once no vault of its granted set is being scrubbed. -/
theorem vaultsChangeHands : Obligations.VaultsChangeHands := by
  intro s
  refine ⟨fun v hv hs hu => exec_vaultReleaseComplete hv hs hu, fun v hv hs he => ?_, fun a ha => ?_⟩
  · refine ⟨Memory.clear s.sp (0x800000 * s.ev.num) 0x600000, ?_, fun hwf x => Memory.read_clear _ _ x hwf⟩
    rw [exec_scrubComplete hv hs he, scrubbed_eq hv hs he]
  · intro new t
    have ht : t = s.granting a := rfl
    rw [exec_vaultAcquisitionGrant ha, ← ht]
    refine ⟨vaultsReady_iff, fun hn => by rw [hn]; rfl, fun r hy hr hg => ?_⟩
    obtain ⟨sc, hgrant, hready, hother⟩ := granted_of_groupsOk (s := t) hr hg
    exact ⟨_, by rw [if_pos hy, hgrant], hready, rfl, rfl, rfl, rfl, rfl, hother⟩

end Sys2Proof.Proofs
end

section
/-! # O14: the faults of an access (09_memory, R232, R233, R250) -/

namespace Sys2Proof.Machine

section
variable {s : State} {a : DWord} {va : VAddr} {n : Nat} {acc : Access} {pol : BitVec 32} {t : Trap}

/-! ## Addresses -/

/-- R232: an address of 48 bits is formed. -/
theorem formVa_of_fits (h : bits a 48 16 = 0) : formVa a = .ok (a.setWidth 48) := by
  rw [formVa, decide_eq_true h]; rfl

/-- R232: one that has a bit above bit 47 is not. -/
theorem formVa_of_wide (h : bits a 48 16 ≠ 0) : formVa a = .error (.trap { cause := .address, eva := a.setWidth 48 }) := by
  rw [formVa, decide_eq_false h]; rfl

/-- Bit 47 alone is more than the whole scratchpad window. -/
theorem window_le_of_bit47 (h : va.getLsbD 47 = true) : 0x10000000 ≤ va.toNat := le_trans (by decide) (Nat.ge_two_pow_of_testBit h)

/-! ## Accesses that fault -/

theorem access_of_wide (h : bits a 48 16 ≠ 0) : s.access a n acc pol = .error (.trap { cause := .address, eva := a.setWidth 48 }) := by
  rw [State.access, formVa_of_wide h]; rfl

theorem access_eq (h : bits a 48 16 = 0) : s.access a n acc pol = (do
    checkAt ((a.setWidth 48 : VAddr).getLsbD 47 || decide (0x10000000 ≤ (a.setWidth 48 : VAddr).toNat)) .address (a.setWidth 48)
    checkAt ((a.setWidth 48 : VAddr).toNat % n == 0) .memoryAlignment (a.setWidth 48)
    let x ← s.translate (a.setWidth 48) acc pol
    checkAt (!s.lost (s.homeNode x.loc)) .partnerLost (a.setWidth 48)
    .ok (a.setWidth 48, x)) := by
  rw [State.access, formVa_of_fits h]; rfl

/-- R250: the scratchpad window is no place of global memory. -/
theorem access_of_low (h : bits a 48 16 = 0) (hva : a.setWidth 48 = va) (hlow : va.toNat < 0x10000000) :
    s.access a n acc pol = .error (.trap { cause := .address, eva := va }) := by
  subst hva
  have h47 : (a.setWidth 48 : VAddr).getLsbD 47 = false := Bool.eq_false_iff.2 fun h47 => absurd (window_le_of_bit47 h47) (not_le.2 hlow)
  rw [access_eq h, h47, decide_eq_false (not_le.2 hlow)]; rfl

theorem access_of_misaligned (h : bits a 48 16 = 0) (hva : a.setWidth 48 = va) (hhigh : 0x10000000 ≤ va.toNat) (hal : va.toNat % n ≠ 0) :
    s.access a n acc pol = .error (.trap { cause := .memoryAlignment, eva := va }) := by
  subst hva
  rw [access_eq h, decide_eq_true hhigh, Bool.or_true, beq_false_of_ne hal]; rfl

/-- R233: the physical window is the supervisor's, up to the end of the HBM. -/
theorem translate_of_noPhysical (h47 : va.getLsbD 47 = true) (hw : s.k.priv = false ∨ bits va 37 10 ≠ 0 ∨ hbmEnd ≤ bits va 0 37) :
    s.translate va acc pol = .error (.trap { cause := .address, eva := va }) := by
  have hno : (s.k.priv && bits va 37 10 == 0 && decide (bits va 0 37 < hbmEnd)) = false := by
    rcases hw with hw | hw | hw
    · rw [hw]; rfl
    · rw [beq_false_of_ne hw, Bool.and_false, Bool.false_and]
    · rw [decide_eq_false (not_lt.2 hw), Bool.and_false]
  rw [State.translate, State.translateBy, if_pos h47, hno]; rfl

theorem access_of_noPhysical (h : bits a 48 16 = 0) (hva : a.setWidth 48 = va) (h47 : va.getLsbD 47 = true) (hal : va.toNat % n = 0)
    (hw : s.k.priv = false ∨ bits va 37 10 ≠ 0 ∨ hbmEnd ≤ bits va 0 37) :
    s.access a n acc pol = .error (.trap { cause := .address, eva := va }) := by
  subst hva
  rw [access_eq h, h47, Bool.true_or, hal, translate_of_noPhysical h47 hw]; rfl

/-! ## Loads and stores of such an access -/

section
variable {d : SDst} {e x : SSrc} {off : Int} {p : Nat} {ty : Ty} (hr : s.regional) (hu : s.k.priv = true → s.unasked)
include hr

theorem exec_ld_of_wide (h : bits (s.srcS x + BitVec.ofInt 64 (tyBytes ty * off)) 48 16 ≠ 0) :
    exec (.ld d x off p ty) s =
      .next (s.takeTrap { cause := .address, eva := (s.srcS x + BitVec.ofInt 64 (tyBytes ty * off)).setWidth 48 }) := by
  show s.settle (s.ldIssue d x off p ty) = _
  rw [State.ldIssue, needRegion_of_regional hr]
  simp only [ok_bind, formVa_of_wide h, error_bind, issueOf_error, settle_trap]

include hu

/-- A load outside the scratchpad window raises what its access raises. -/
theorem exec_ld_of_access (h : bits (s.srcS x + BitVec.ofInt 64 (tyBytes ty * off)) 48 16 = 0)
    (hhigh : 0x10000000 ≤ ((s.srcS x + BitVec.ofInt 64 (tyBytes ty * off)).setWidth 48 : VAddr).toNat)
    (ha : s.access (s.srcS x + BitVec.ofInt 64 (tyBytes ty * off)) (tyBytes ty) .read (s.srcY p) = .error (.trap t)) :
    exec (.ld d x off p ty) s = .next (s.takeTrap t) := by
  show s.settle (s.ldIssue d x off p ty) = _
  rw [State.ldIssue, needRegion_of_regional hr]
  simp only [ok_bind, formVa_of_fits h, if_neg (not_lt.2 hhigh), ha]
  cases hp : s.k.priv with
  | true => simp only [if_true, directly_of_unasked (hu hp), error_bind, issueOf_error, settle_trap]
  | false => simp only [Bool.false_eq_true, if_false, error_bind, issueOf_error, settle_trap]

/-- So does a store. -/
theorem exec_st_of_access
    (ha : s.access (s.srcS x + BitVec.ofInt 64 (tyBytes ty * off)) (tyBytes ty) .write (s.srcY p) = .error (.trap t)) :
    exec (.st e x off p ty) s = .next (s.takeTrap t) := by
  show s.settle (s.stIssue e x off p ty) = _
  cases hp : s.k.priv with
  | true => simp only [stIssue_supervisor hp, State.directWrite, directly_of_unasked (hu hp), ha, error_bind, issueOf_error, settle_trap]
  | false =>
    rw [State.stIssue, needRegion_of_regional hr]
    simp only [ok_bind, hp, Bool.false_eq_true, if_false, ha, error_bind, issueOf_error, settle_trap]

end
end
end Sys2Proof.Machine

namespace Sys2Proof.Proofs
open Sys2Proof Sys2Proof.Machine

/-- Settles O14: an access faults by its address alone, and a load or store raises the fault of its access. -/
theorem accessFaults : Obligations.AccessFaults := by
  intro s d e x off p t n a va hr hu
  refine ⟨fun hwide => ⟨exec_ld_of_wide hr hwide, exec_st_of_access hr hu (access_of_wide hwide)⟩,
    fun hfits hlow => exec_st_of_access hr hu (access_of_low hfits rfl hlow), fun hfits hhigh _ hal => ?_, fun hfits h47 hal hw => ?_⟩
  · exact ⟨exec_ld_of_access hr hu hfits hhigh (access_of_misaligned hfits rfl hhigh hal),
      exec_st_of_access hr hu (access_of_misaligned hfits rfl hhigh hal)⟩
  · exact ⟨exec_ld_of_access hr hu hfits (window_le_of_bit47 h47) (access_of_noPhysical hfits rfl h47 hal hw),
      exec_st_of_access hr hu (access_of_noPhysical hfits rfl h47 hal hw)⟩

end Sys2Proof.Proofs
end

section
/-! # O13: FENCE and cache control (09_memory, R258, R259; 10_ordering, R276) -/

namespace Sys2Proof.Machine

section
variable {s : State} {op : CacheOp} {x y : SSrc} {p : Nat} {pol : BitVec 32} {tlb : Tlb}

/-! ## The lines of a range (R259) -/

theorem rangeOk_of_le (h : (s.srcS y).toNat ≤ 0x1000000) : s.rangeOk x y = .ok ((s.srcS x).setWidth 48, (s.srcS y).toNat) := by
  rw [State.rangeOk, decide_eq_true h]; rfl

theorem rangeOk_of_gt (h : 0x1000000 < (s.srcS y).toNat) :
    s.rangeOk x y = .error (.trap { cause := .memoryRange, eva := (s.srcS x).setWidth 48 }) := by
  rw [State.rangeOk, decide_eq_false (not_le.2 h)]; rfl

/-- Every line of a range that translates has its place. -/
theorem cacheRuns_length {l : List Nat} {runs : List (Loc × Attr)} (h : s.cacheRuns pol l = .ok (runs, tlb)) : runs.length = l.length := by
  induction l generalizing s runs tlb with
  | nil => cases h; rfl
  | cons a l ih =>
    simp only [State.cacheRuns, bind_eq_ok] at h
    obtain ⟨va, _, x, _, ⟨rs, tlb'⟩, hrs, heq⟩ := h
    cases heq
    rw [List.length_cons, List.length_cons, ih hrs]

/-- R259: an empty range names no address; that of any other has 48 bits. -/
theorem rangeStart_bind {β : Type} {a : DWord} {len : Nat} (h : len = 0 ∨ bits a 48 16 = 0) (m : Except Issue β) :
    (if len = 0 then m else formVa a >>= fun _ => m) = m := by
  split
  · rfl
  · next hlen => rw [formVa_of_fits (h.resolve_left hlen), ok_bind]

/-! ## Lines that lie here -/

/-- An action on lines that all lie here is done on each in turn, and nothing is sent. -/
theorem lineSends_here {f : State → Loc → Attr → State} {who : ReqFor} {code : Nat} {lines : List (Nat × Loc × Attr)}
    (h : ∀ q ∈ lines, ∃ pa, q.2.1 = .here pa) :
    s.lineSends f who code pol lines = (lines.foldl (fun u q => f u q.2.1 q.2.2) s, lines.length) := by
  induction lines generalizing s with
  | nil => rfl
  | cons q l ih =>
    obtain ⟨va, loc, a⟩ := q
    obtain ⟨⟨pa, hpa⟩, hl⟩ := List.forall_mem_cons.1 h
    cases hpa
    simp only [State.lineSends, ih hl, List.foldl_cons, List.length_cons]

theorem foldl_zip_snd {α β γ : Type} (f : γ → β → γ) (l : List α) (r : List β) (h : r.length = l.length) (u : γ) :
    (l.zip r).foldl (fun u q => f u q.2) u = r.foldl f u := by
  rw [← List.foldl_map (f := Prod.snd) (g := f), List.map_snd_zip (le_of_eq h)]

/-- What actions on lines of this node change: the L2, and the count of the pins that failed. -/
def State.Caches (s t : State) : Prop := ∃ l h, t = { s with l2 := l, hst := h }

theorem caches_cacheLine (s : State) (op : CacheOp) (l : Loc) (a : Attr) : s.Caches (s.cacheLine op l a) := by
  unfold State.cacheLine
  split <;> exact ⟨_, _, rfl⟩

theorem caches_foldl_cacheLine (s : State) (op : CacheOp) (runs : List (Loc × Attr)) : s.Caches (runs.foldl (fun u q => u.cacheLine op q.1 q.2) s) := by
  induction runs generalizing s with
  | nil => exact ⟨_, _, rfl⟩
  | cons q l ih =>
    obtain ⟨_, _, h⟩ := caches_cacheLine s op q.1 q.2
    obtain ⟨_, _, h'⟩ := ih (s.cacheLine op q.1 q.2)
    rw [List.foldl_cons, h', h]
    exact ⟨_, _, rfl⟩

/-- PREF touches lines whatever translations the node keeps, and changes the L2 alone. -/
theorem foldl_touch_withTlb (lines : List (Nat × Loc × Attr)) :
    lines.foldl (fun (u : State) q => { u with l2 := u.touch q.2.1 q.2.2 false }) { s with tlb := tlb } =
      { s with tlb := tlb, l2 := (lines.foldl (fun (u : State) q => { u with l2 := u.touch q.2.1 q.2.2 false }) s).l2 } := by
  induction lines generalizing s with
  | nil => rfl
  | cons q l ih => exact ih (s := { s with l2 := s.touch q.2.1 q.2.2 false })

/-! ## The supervisor acts at once (R251) -/

theorem find?_failed_of_unanswered {f : Fab} {job : BitVec 16} {who : ReqFor} (h : f.answerTo job who = none) :
    (f.answers.find? fun a => a.job == job && a.who == who && a.status != 0) = none := by
  rw [Fab.answerTo, List.find?_eq_none] at h
  rw [List.find?_eq_none]
  exact fun a ha hfail => h a ha (Bool.and_eq_true_iff.1 hfail).1

theorem dropAnswer_of_unanswered {f : Fab} {job : BitVec 16} {who : ReqFor} (h : f.answerTo job who = none) : f.dropAnswer job who = f := by
  rw [Fab.answerTo, List.find?_eq_none] at h
  have hall : f.answers.filter (fun a => !(a.job == job && a.who == who)) = f.answers :=
    List.filter_eq_self.2 fun a ha => by rw [Bool.eq_false_iff.2 (h a ha)]; rfl
  rw [Fab.dropAnswer, hall]

/-- Lines that all lie here are done with at once, when nobody has been asked. -/
theorem linesDirect_here {f : State → Loc → Attr → State} {upto : Nat → Nat} {code : Nat} {lines : List (Nat × Loc × Attr)} {l2 : List L2Line} {h : Hst}
    (hans : s.fab.answerTo s.k.jobtag s.asker = none) (hask : s.fab.asking s.k.jobtag s.asker = false) (hl : ∀ q ∈ lines, ∃ pa, q.2.1 = .here pa)
    (hf : lines.foldl (fun u q => f u q.2.1 q.2.2) s = { s with l2 := l2, hst := h }) :
    s.linesDirect upto f code pol lines = .ok [.setTlb s.tlb, .setL2 l2, .setHst h, .setFab s.fab, .setFab s.fab] := by
  rw [State.linesDirect, lineSends_here hl, hf]
  dsimp only
  rw [if_neg (by simp [hask]), find?_failed_of_unanswered hans]
  show Except.ok [_, _, _, _, Effect.setFab (s.fab.dropAnswer s.k.jobtag s.asker)] = _
  rw [dropAnswer_of_unanswered hans]

section
variable {runs : List (Loc × Attr)} (hlen : (s.srcS y).toNat ≤ 0x1000000) (hva : (s.srcS y).toNat = 0 ∨ bits (s.srcS x) 48 16 = 0)
  (hruns : s.cacheRuns (s.srcY p) (rangeLines ((s.srcS x).setWidth 48 : VAddr).toNat (s.srcS y).toNat) = .ok (runs, tlb))
include hlen hva hruns

theorem settle_cacheIssue_supervisor (hp : s.k.priv = true) (hu : s.unasked) (hhere : ∀ q ∈ runs, ∃ pa, q.1 = .here pa) :
    s.settle (s.cacheIssue op x y p) =
      let u := runs.foldl (fun (u : State) q => u.cacheLine op q.1 q.2) { s with tlb := tlb }
      .next { s with tlb := tlb, l2 := u.l2, hst := u.hst } := by
  obtain ⟨hroom, hans, hask, hdirect⟩ := hu
  obtain ⟨l2, h, hfold⟩ := caches_foldl_cacheLine { s with tlb := tlb } op runs
  have hdone (upto : Nat → Nat) (code : Nat) := linesDirect_here (s := { s with tlb := tlb }) (upto := upto) (code := code) (pol := s.srcY p)
    (f := fun u l a => u.cacheLine op l a) hans hask (fun q hq => hhere q.2 (List.of_mem_zip hq).2)
    ((foldl_zip_snd (fun u q => State.cacheLine u op q.1 q.2) _ runs (cacheRuns_length hruns) _).trans hfold)
  rw [State.cacheIssue, needRegion_of_regional (.inl hp)]
  simp only [ok_bind, rangeOk_of_le hlen, rangeStart_bind hva, hp, if_true, hdirect, List.drop_zero, hruns, lsRoom_of_lt hroom, hdone, hfold, issueOf_ok, settle_done, applyAll_cons,
    applyAll_nil, apply_setTlb, apply_setL2, apply_setHst, apply_setFab]

/-- R259: a program's instruction enters the buffer with the lines of its range. -/
theorem settle_cacheIssue_program (hp : s.k.priv = false) (hr : s.rgn.isSome = true) (hb : s.requests < 8192) (hh : s.bufferHas 1) :
    s.settle (s.cacheIssue op x y p) =
      .next ({ s with tlb := tlb }.buffered 1 (s.srcY p) [] (.cache op ((s.srcS x).setWidth 48) (s.srcS y).toNat runs)) := by
  rw [State.cacheIssue, needRegion_of_regional (.inr (.inl hr))]
  simp only [ok_bind, rangeOk_of_le hlen, rangeStart_bind hva, hp, Bool.false_eq_true, if_false, List.drop_zero, hruns, lsRoom_of_lt hb, bufRoom_of_has hh, issueOf_ok,
    settle_done, applyAll_cons, applyAll_nil, apply_setTlb, apply_buffer_newEntry]

end

/-! ## Programs -/

theorem settle_cacheIssue_of_gt (hr : s.regional) (h : 0x1000000 < (s.srcS y).toNat) :
    s.settle (s.cacheIssue op x y p) = .next (s.takeTrap { cause := .memoryRange, eva := (s.srcS x).setWidth 48 }) := by
  rw [State.cacheIssue, needRegion_of_regional hr]
  simp only [ok_bind, rangeOk_of_gt h, error_bind, issueOf_error, settle_trap]

theorem settle_prefIssue_of_gt (hr : s.regional) (h : 0x1000000 < (s.srcS y).toNat) :
    s.settle (s.prefIssue x y p) = .next (s.takeTrap { cause := .memoryRange, eva := (s.srcS x).setWidth 48 }) := by
  rw [State.prefIssue, needRegion_of_regional hr]
  simp only [ok_bind, rangeOk_of_gt h, error_bind, issueOf_error, settle_trap]

/-- R259: PREF touches the lines that translate. -/
theorem settle_prefIssue_here {lines : List (Nat × Loc × Attr)} (hp : s.k.priv = false) (hr : s.rgn.isSome = true) (hb : s.requests < 8192)
    (hlen : (s.srcS y).toNat ≤ 0x1000000) (hd : s.directOf = 0)
    (hlines : (if bits (s.srcS x) 48 16 = 0 then s.prefLines (s.srcY p) (rangeLines ((s.srcS x).setWidth 48 : VAddr).toNat (s.srcS y).toNat)
      else ([], s.tlb)) = (lines, tlb)) (hhere : ∀ q ∈ lines, ∃ pa, q.2.1 = .here pa) :
    s.settle (s.prefIssue x y p) =
      .next { s with tlb := tlb, l2 := (lines.foldl (fun (u : State) q => { u with l2 := u.touch q.2.1 q.2.2 false }) s).l2 } := by
  rw [State.prefIssue, needRegion_of_regional (.inr (.inl hr))]
  simp only [ok_bind, rangeOk_of_le hlen, hd, if_true, List.drop_zero, lsRoom_of_lt hb, hlines, hp, Bool.false_eq_true, if_false, lineSends_here hhere,
    foldl_touch_withTlb, lt_irrefl, issueOf_ok, settle_done]
  rfl

/-- R276: a fence enters the buffer once the loads and the entries that it covers are gone. -/
theorem settle_fenceIssue_program {mask scope : Nat} (hp : s.k.priv = false) (hr : s.rgn.isSome = true) (hb : s.requests < 8192) (hh : s.bufferHas 1)
    (hloads : ∀ w ∈ s.pipe.waits, w.outstanding = true → ∀ va l a t pol r, w.op = .load va l a t pol r → (BitVec.ofNat 16 mask).getLsbD (polClass pol) = false)
    (hdone : s.fenceDone s.k s.committedBuf (BitVec.ofNat 16 mask) scope = true) :
    s.settle (s.fenceIssue mask scope) = .next (s.buffered 1 0 [] (.fence (BitVec.ofNat 16 mask) scope)) := by
  rw [State.fenceIssue, needRegion_of_regional (.inr (.inl hr))]
  dsimp only [ok_bind]
  generalize hany : List.any s.pipe.waits _ = loads
  have hnone : loads = false := by
    rw [← hany, List.any_eq_false]
    intro w hw hcovered
    obtain ⟨hout, hclass⟩ := Bool.and_eq_true_iff.1 hcovered
    split at hclass
    · next va l a t pol r hop => exact absurd hclass (by rw [hloads w hw hout va l a t pol r hop]; decide)
    · cases hclass
  simp only [ok_bind, hnone, hp, hdone, Bool.not_false, Bool.or_true, Bool.and_true, await_true, lsRoom_of_lt hb, Bool.false_eq_true, if_false,
    bufRoom_of_has hh, issueOf_ok, settle_done, applyAll_cons, applyAll_nil, apply_buffer_newEntry]

end
end Sys2Proof.Machine

namespace Sys2Proof.Proofs
open Sys2Proof Sys2Proof.Machine

/-- Settles O13: PIN, UNPIN, FLUSH and INVAL are one issue, which the supervisor's lines pass at once and a program's as an entry. -/
theorem fencesAndCacheControl : Obligations.FencesAndCacheControl := by
  refine ⟨fun s x y p runs tlb => ?_, fun s mask scope x y p runs tlb => ?_⟩
  · intro va len done hp hu hlen hva hruns hhere
    exact ⟨settle_cacheIssue_supervisor hlen hva hruns hp hu hhere, settle_cacheIssue_supervisor hlen hva hruns hp hu hhere,
      settle_cacheIssue_supervisor hlen hva hruns hp hu hhere, settle_cacheIssue_supervisor hlen hva hruns hp hu hhere⟩
  · intro pol va len entry hp hr hb
    refine ⟨fun hh hloads hdone => settle_fenceIssue_program hp hr hb hh hloads hdone, fun hh hlen hva hruns => ?_, ?_, fun hgt => ?_⟩
    · exact ⟨settle_cacheIssue_program hlen hva hruns hp hr hb hh, settle_cacheIssue_program hlen hva hruns hp hr hb hh,
        settle_cacheIssue_program hlen hva hruns hp hr hb hh, settle_cacheIssue_program hlen hva hruns hp hr hb hh⟩
    · intro lines hlen hd hhere
      exact settle_prefIssue_here hp hr hb hlen hd rfl hhere
    · have hreg : s.regional := .inr (.inl hr)
      simp only [List.forall_mem_cons, List.not_mem_nil, false_imp_iff, implies_true, and_true]
      exact ⟨settle_prefIssue_of_gt hreg hgt, settle_cacheIssue_of_gt hreg hgt, settle_cacheIssue_of_gt hreg hgt,
        settle_cacheIssue_of_gt hreg hgt, settle_cacheIssue_of_gt hreg hgt⟩

end Sys2Proof.Proofs
end

section
/-! # O38: SHOOT, TLBP and TLBI (09_memory, R261 to R267) -/

namespace Sys2Proof.Machine

section
variable {s : State} {d : SDst} {n x y : SSrc}

theorem needSup_of_priv (h : s.k.priv = true) : s.needSup = .ok () := by rw [State.needSup, h]; rfl

/-! ## SHOOT (R262) -/

/-- R324: a control packet joins those that wait for a link. -/
theorem sendControl_eq (s : State) (p : Packet) : ∃ f, s.sendControl p = { s with fab := f } := by
  unfold State.sendControl
  dsimp only
  split <;> exact ⟨_, rfl⟩

/-- Each notice names the node, the job and the word of the one instruction that sends them all. -/
theorem foldl_shootPacket (s : State) (v : DWord) (n : SSrc) (to_ : List (BitVec 14)) :
    to_.foldl (fun u m => u.sendControl (shootPacket u.k.nodeId m u.k.jobtag v (u.srcS n))) s =
      to_.foldl (fun u m => u.sendControl (shootPacket s.k.nodeId m s.k.jobtag v (s.srcS n))) s := by
  suffices h : ∀ u : State, (∃ f, u = { s with fab := f }) →
      to_.foldl (fun u m => u.sendControl (shootPacket u.k.nodeId m u.k.jobtag v (u.srcS n))) u =
        to_.foldl (fun u m => u.sendControl (shootPacket s.k.nodeId m s.k.jobtag v (s.srcS n))) u from h s ⟨s.fab, rfl⟩
  induction to_ with
  | nil => simp only [List.foldl_nil, implies_true]
  | cons m l ih =>
    rintro _ ⟨f, rfl⟩
    obtain ⟨g, hg⟩ := sendControl_eq { s with fab := f } (shootPacket s.k.nodeId m s.k.jobtag v (s.srcS n))
    exact ih _ ⟨g, hg⟩

section
variable (hp : s.k.priv = true)
include hp

theorem exec_shoot_reserved (hz : bits (s.srcS x) 0 16 ≠ 0) : exec (.shoot n x y) s = s.raises .descriptor := by
  refine settle_of_cause ?_
  rw [needSup_of_priv hp, ok_bind]
  simp only [beq_false_of_ne hz, check_false, error_bind]

theorem exec_qrst_reserved (hz : bits (s.srcS x) 6 58 ≠ 0) : exec (.qrst x) s = s.raises .descriptor := by
  show execQrst x s = _
  rw [execQrst, State.qrstJob, needSup_of_priv hp, ok_bind]
  simp only [beq_false_of_ne hz, check_false, error_bind]
  rfl

section
variable (hz : bits (s.srcS x) 0 16 = 0) (hset : s.k.setOk (s.srcS y) false = true)
include hz hset

/-- A notice of this node's that is out is done once every node that it waits for is lost. -/
theorem exec_shoot_done {h : Shoot} (hf : s.fab.shoots.find? (fun h => h.mine) = some h) (hleft : ∀ m ∈ h.left, s.lost m = true) :
    exec (.shoot n x y) s = .next { s with fab := { s.fab with shoots := s.fab.shoots.filter fun h => !h.mine } } := by
  show s.settle (s.shootIssue n x y) = _
  rw [State.shootIssue, needSup_of_priv hp]
  simp only [ok_bind, hz, BEq.rfl, check_true, hset, hf, List.all_eq_true.2 hleft, await_true, issueOf_ok, settle_done]
  rfl

theorem exec_shoot_waits {h : Shoot} (hf : s.fab.shoots.find? (fun h => h.mine) = some h) (hleft : ∃ m ∈ h.left, s.lost m = false) :
    exec (.shoot n x y) s = .next (s.stalls 0x0B) := by
  obtain ⟨m, hm, hlive⟩ := hleft
  have hall : h.left.all s.lost = false := List.all_eq_false.2 ⟨m, hm, by rw [hlive]; decide⟩
  show s.settle (s.shootIssue n x y) = _
  rw [State.shootIssue, needSup_of_priv hp]
  simp only [ok_bind, hz, BEq.rfl, check_true, hset, hf, hall, await_false, error_bind, issueOf_error]
  rfl

section
variable {to_ : List (BitVec 14)} (hmine : ∀ h ∈ s.fab.shoots, h.mine = false)
  (hto : to_ = (s.recipients (KRegs.setOf (s.srcS y))).filter fun m => !s.lost m)
include hmine hto

theorem exec_shoot_alone (hnone : to_ = []) : exec (.shoot n x y) s = .next s := by
  have hf : s.fab.shoots.find? (fun h => h.mine) = none := List.find?_eq_none.2 fun h hh => by rw [hmine h hh]; decide
  show s.settle (s.shootIssue n x y) = _
  rw [State.shootIssue, needSup_of_priv hp]
  simp only [ok_bind, hz, BEq.rfl, check_true, hset, hf, ← hto, hnone, List.isEmpty_nil, if_true, issueOf_ok, settle_done, applyAll_nil]

theorem exec_shoot_sends (hsome : to_ ≠ []) :
    let sent := (to_.foldl (fun u m => u.sendControl (shootPacket s.k.nodeId m s.k.jobtag (s.srcS x) (s.srcS n))) s).fab
    exec (.shoot n x y) s = .next { s with
      fab := { sent with shoots := sent.shoots ++ [⟨s.nextId, s.k.jobtag, s.k.nodeId, s.srcS x, s.srcS n, to_, true⟩] }, nextId := s.nextId + 1
      seq := { s.seq with bun := { s.seq.bun with stalled := some 0x0B, kept := true } } } := by
  have hf : s.fab.shoots.find? (fun h => h.mine) = none := List.find?_eq_none.2 fun h hh => by rw [hmine h hh]; decide
  show s.settle (s.shootIssue n x y) = _
  rw [State.shootIssue, needSup_of_priv hp]
  simp only [ok_bind, hz, BEq.rfl, check_true, hset, hf, ← hto, List.isEmpty_eq_false_iff.2 hsome, Bool.false_eq_true, if_false, issueOf_error,
    foldl_shootPacket]
  rfl

end
end

/-! ## TLBP (R264) -/

/-- `s` with the result of TLBP to come. -/
def State.probing (s : State) (d : SDst) (v : DWord) : State := s.awaiting ⟨0, 0, 0, false, false, some d, none, 0, none, 64, false, .no, .tlbp v⟩

theorem exec_tlbp_of_value {v : DWord} (hv : s.tlbpValue ((s.srcS y).setWidth 16) ((s.srcS x).setWidth 48) = .ok v) :
    exec (.tlbp d x y) s = .next (s.probing d v) := by
  show s.settle (s.tlbpIssue d x y) = _
  rw [State.tlbpIssue, needSup_of_priv hp, ok_bind, hv]
  rfl

theorem exec_tlbp_of_hole {pa : Nat} (hv : s.tlbpValue ((s.srcS y).setWidth 16) ((s.srcS x).setWidth 48) = .error (.halt (.hbmHole pa))) :
    exec (.tlbp d x y) s = .fault (.hbmHole pa) := by
  show s.settle (s.tlbpIssue d x y) = _
  rw [State.tlbpIssue, needSup_of_priv hp, ok_bind, hv]
  rfl

end

/-- What TLBP reports of a leaf: whether a line of it is pinned, its size, and its entry without bits 63 to 54. -/
theorem bits_tlbpWord (pinned : Bool) {size e : Nat} (hs : size < 4) (he : e < 2 ^ 54) {v : DWord}
    (hv : v = BitVec.ofNat 64 ((if pinned then 2 ^ 63 else 0) + size * 2 ^ 61 + e)) :
    bits v 0 54 = e ∧ bits v 54 7 = 0 ∧ bits v 61 2 = size := by
  subst hv
  simp only [bits, BitVec.toNat_ofNat]
  split <;> omega

section
variable {job : BitVec 16} {va : VAddr}

theorem tlbpValue_of_notPresent (h : walk s.hbm s.hst.jtbase job va = .error .notPresent) : s.tlbpValue job va = .ok 0 := by
  rw [State.tlbpValue, h]

theorem tlbpValue_of_malformed (h : walk s.hbm s.hst.jtbase job va = .error .malformed) : s.tlbpValue job va = .ok 0x6000000000000000#64 := by
  rw [State.tlbpValue, h]; rfl

theorem tlbpValue_of_hole {pa : Nat} (h : walk s.hbm s.hst.jtbase job va = .error (.hole pa)) : s.tlbpValue job va = .error (.halt (.hbmHole pa)) := by
  rw [State.tlbpValue, h]

theorem tlbpValue_of_leaf {e : DWord} {lvl : Nat} (h : walk s.hbm s.hst.jtbase job va = .ok (e, lvl)) :
    ∃ v, s.tlbpValue job va = .ok v ∧ bits v 0 54 = bits e 0 54 ∧ bits v 54 7 = 0 ∧ bits v 61 2 = if lvl = 3 then 1 else 2 := by
  rw [State.tlbpValue, h]
  exact ⟨_, rfl, bits_tlbpWord (s.leafPinned e lvl (pageOf va)) (by split <;> decide) (Nat.mod_lt _ (by decide)) rfl⟩

end

/-! ## TLBI (R265 to R267) -/

/-- The job and the range that the options of TLBI leave. -/
def tlbiJob (o : DWord) : Option (BitVec 16) := if o.getLsbD 16 then none else some (o.setWidth 16)
def tlbiRange (o v : DWord) : Option DWord := if o.getLsbD 17 then none else some v

/-- R266: the host's part after the last step of an unmapping. -/
def State.hstMigrated (s : State) (job : Option (BitVec 16)) (range : Option DWord) : Hst :=
  match s.hst.migrq with
  | none => s.hst
  | some (v, old) =>
    if jobOr job (BitVec.ofNat 16 (bits v 48 16)) && rangeOr range (bits v 16 32 * 65536) 1
        && (s.leafAt (BitVec.ofNat 16 (bits v 48 16)) (bits v 16 32)).all fun x => x.2.1 != old then
      { s.hst with migrs := 1, migrq := none }
    else s.hst

theorem applyAll_migrated (s : State) (job : Option (BitVec 16)) (range : Option DWord) :
    applyAll s (s.migrated job range) = { s with hst := s.hstMigrated job range } := by
  rcases hm : s.hst.migrq with _ | ⟨v, old⟩
  · simp only [State.migrated, State.hstMigrated, hm, applyAll_nil]
  · simp only [State.migrated, State.hstMigrated, hm]
    split <;> rfl

/-- `s` with translations dropped, and the L2, the count of pins lost, the fabric and the host's part as given. -/
def State.untranslated (s : State) (job : Option (BitVec 16)) (range : Option DWord) (poison : Bool) (l2 : List L2Line) (n : Nat) (f : Fab) (h : Hst) : State :=
  { s with
    l2 := l2, fab := f, k := { s.k with pinorph := BitVec.ofNat 32 (min (2 ^ 32 - 1) (s.k.pinorph.toNat + n)) }
    tlb := ⟨(s.tlbWithout job range).entries, if poison then [] else s.tlb.bitmap⟩, hst := h }

theorem applyAll_untranslated {es : List Effect} {h : Hst} (hes : applyAll s es = { s with hst := h }) (job : Option (BitVec 16)) (range : Option DWord)
    (poison : Bool) (l2 : List L2Line) (n : Nat) (f : Fab) :
    applyAll s (es ++ [.setL2 l2, .setFab f, .orphans n,
      .setTlb (if poison then { s.tlbWithout job range with bitmap := [] } else s.tlbWithout job range)]) =
    s.untranslated job range poison l2 n f h := by
  rw [applyAll_append, hes]
  cases poison <;> rfl

/-- R265, R266: with DROP the lines of the range go too, and without it the unmapping ends. -/
def State.tlbiLeaves (s : State) (v o : DWord) : State :=
  let q := if o.getLsbD 19 then s.dropLines (o.setWidth 16) v else (s.l2, 0, [])
  let f := if o.getLsbD 19 then s.fab.without (o.setWidth 16) false q.2.2 else s.fab.unmapped (tlbiJob o) (tlbiRange o v)
  s.untranslated (tlbiJob o) (tlbiRange o v) (o.getLsbD 18) q.1 q.2.1 f (if o.getLsbD 19 then s.hst else s.hstMigrated (tlbiJob o) (tlbiRange o v))

/-- R265: its bundle stalls, with what it has done, while somebody holds a translation that it drops. -/
def State.pausedIf (s : State) (held : Bool) : State :=
  if held then { s with seq := { s.seq with bun := { s.seq.bun with stalled := some 0x0B, kept := true } } } else s

theorem settle_pausedIf {es : List Effect} (held : Bool) :
    s.settle (issueOf (if held then .error (.pause es 0x0B) else .ok es)) = .next ((applyAll s es).pausedIf held) := by
  cases held <;> rfl

theorem exec_tlbi (hp : s.k.priv = true) (hz : bits (s.srcS y) 20 44 = 0) (hx : bits (s.srcS x) 0 16 = 0)
    (hdrop : (s.srcS y).getLsbD 19 = true → (s.srcS y).getLsbD 16 = false ∧ (s.srcS y).getLsbD 17 = false) :
    exec (.tlbi x y) s = .next ((s.tlbiLeaves (s.srcS x) (s.srcS y)).pausedIf (s.holding (tlbiJob (s.srcS y)) (tlbiRange (s.srcS y) (s.srcS x)))) := by
  show s.settle (s.tlbiIssue x y) = _
  rw [State.tlbiIssue, needSup_of_priv hp, State.tlbiLeaves]
  simp only [ok_bind, hz, hx, BEq.rfl, Bool.and_self, check_true]
  cases h19 : (s.srcS y).getLsbD 19 with
  | true =>
    have hone : (!(true && ((s.srcS y).getLsbD 16 || (s.srcS y).getLsbD 17))) = true := by
      rw [(hdrop h19).1, (hdrop h19).2]; rfl
    simp only [hone, check_true, ok_bind, if_true, List.nil_append]
    exact (settle_pausedIf _).trans (congrArg (fun t => Host.Outcome.next (State.pausedIf t _)) (applyAll_untranslated (es := []) rfl ..))
  | false =>
    simp only [Bool.false_and, Bool.not_false, check_true, ok_bind, Bool.false_eq_true, if_false]
    exact (settle_pausedIf _).trans (congrArg (fun t => Host.Outcome.next (State.pausedIf t _)) (applyAll_untranslated (applyAll_migrated ..) ..))

end
end Sys2Proof.Machine
namespace Sys2Proof.Proofs
open Sys2Proof Sys2Proof.Machine

/-- Settles O38: SHOOT by what is out and who is left; TLBP by what the walk finds; TLBI by DROP, and by who holds a translation still. -/
theorem translationInstructions : Obligations.TranslationInstructions := by
  intro s d n x y X Y va walked probe job range hp
  refine ⟨fun hz hset => ?_, fun h => exec_tlbp_of_value hp (tlbpValue_of_notPresent h), fun h => exec_tlbp_of_value hp (tlbpValue_of_malformed h),
    fun pa h => exec_tlbp_of_hole hp (tlbpValue_of_hole h), fun en lvl h => ?_, fun hz hx hdrop => ?_, exec_shoot_reserved hp, exec_qrst_reserved hp⟩
  · intro to_ sent
    exact ⟨fun hmine => exec_shoot_alone hp hz hset hmine rfl, fun hmine => exec_shoot_sends hp hz hset hmine rfl,
      fun h hf => exec_shoot_done hp hz hset hf, fun h hf => exec_shoot_waits hp hz hset hf⟩
  · obtain ⟨v, hv, hentry⟩ := tlbpValue_of_leaf h
    exact ⟨v, exec_tlbp_of_value hp hv, hentry⟩
  · intro q f t
    have hhst : t.hst = if Y.getLsbD 19 then s.hst else s.hstMigrated (tlbiJob Y) (tlbiRange Y X) := by
      rcases hm : s.hst.migrq with _ | ⟨m, old⟩
      · simp only [t, State.hstMigrated, hm, ite_self]
      · cases h19 : Y.getLsbD 19 with
        | true => simp only [t, hm, h19, Bool.true_eq_false, false_and, if_false, if_true]
        | false =>
          simp only [t, State.hstMigrated, hm, h19, true_and, Bool.false_eq_true, if_false]
          rfl
    have ht : s.tlbiLeaves X Y = t := congrArg (s.untranslated (tlbiJob Y) (tlbiRange Y X) (Y.getLsbD 18) q.1 q.2.1 f) hhst.symm
    have hexec (held : Bool) (h : s.holding job range = held) : exec (.tlbi x y) s = .next (t.pausedIf held) := by
      rw [← h, ← ht]
      exact exec_tlbi hp hz hx hdrop
    exact ⟨hexec false, hexec true⟩

end Sys2Proof.Proofs
end

section
/-! # O48: shoot-downs, fences, releases and quarantine notices (09_memory, R262, R263; 15_errors, R301, R405, R407) -/

namespace Sys2Proof.Machine

section
variable {s : State} {job : BitVec 16}

/-! ## Shoot-downs (R263) -/

/-- A write of a doubleword of the HBM is what is read there. -/
theorem dword_writeHbm {a : Nat} (v : DWord) (hwf : Memory.wf s.hbm = true) (ha : a + 8 ≤ hbmEnd) :
    Memory.dword (s.writeHbm a (toBytes 8 v.toNat)).hbm a = v := by
  rw [State.writeHbm_hbm, take_toBytes _ ha, Memory.dword]
  rw [Memory.word_write a 8 v.toNat hwf v.isLt, BitVec.ofNat_toNat, BitVec.setWidth_eq]

/-- Clearing V in leaves changes the HBM, and the release tags of what is written. -/
theorem clearLeaves_eq (s : State) (job : BitVec 16) (v : DWord) : ∃ m r, s.clearLeaves job v = { s with hbm := m, rtags := r } := by
  unfold State.clearLeaves
  generalize s.rangeLeaves job v = l
  induction l generalizing s with
  | nil => exact ⟨_, _, rfl⟩
  | cons x l ih =>
    obtain ⟨_, _, h⟩ := ih (s.writeHbm x.1 (toBytes 8 (x.2.1 &&& ~~~1#64).toNat))
    exact ⟨_, _, h⟩

theorem clearLeaves_of_none {v : DWord} (h : s.rangeLeaves job v = []) : s.clearLeaves job v = s := by
  rw [State.clearLeaves, h]; rfl

theorem clearLeaves_of_one {v e : DWord} {a lvl page : Nat} (h : s.rangeLeaves job v = [(a, e, lvl, page)]) :
    s.clearLeaves job v = s.writeHbm a (toBytes 8 (e &&& ~~~1#64).toNat) := by
  rw [State.clearLeaves, h]; rfl

/-- `s` with the lines of a range dropped, those that were pinned counted (R263, step 1). -/
def State.linesDropped (s : State) (job : BitVec 16) (v : DWord) : State :=
  (Effect.orphans (s.dropLines job v).2.1).apply { s with l2 := (s.dropLines job v).1, fab := s.fab.without job true (s.dropLines job v).2.2 }

/-- The L2 holds no table: the leaves of the range are as they were. -/
theorem rangeLeaves_linesDropped (v : DWord) : (s.linesDropped job v).rangeLeaves job v = s.rangeLeaves job v := rfl

/-- R263: the lines go, V is cleared in the leaves, the translations go, and an acknowledgement is owed. -/
theorem shotDown_eq (s : State) (p : Packet) : ∃ r, s.shotDown p =
    { s.linesDropped p.job (p.dw 4) with
      hbm := ((s.linesDropped p.job (p.dw 4)).clearLeaves p.job (p.dw 4)).hbm, rtags := r, tlb := s.tlbWithout (some p.job) (some (p.dw 4))
      fab := { s.fab.without p.job true (s.dropLines p.job (p.dw 4)).2.2 with
        shoots := s.fab.shoots ++ [⟨s.nextId, p.job, p.src, p.dw 4, p.dw 3, [], false⟩] }
      nextId := s.nextId + 1 } := by
  obtain ⟨m, r, h⟩ := clearLeaves_eq (s.linesDropped p.job (p.dw 4)) p.job (p.dw 4)
  have hdown : s.shotDown p = (let u := (s.linesDropped p.job (p.dw 4)).clearLeaves p.job (p.dw 4)
    { u with
      tlb := u.tlbWithout (some p.job) (some (p.dw 4)), fab := { u.fab with shoots := u.fab.shoots ++ [⟨u.nextId, p.job, p.src, p.dw 4, p.dw 3, [], false⟩] }
      nextId := u.nextId + 1 }) := rfl
  rw [hdown, h]
  exact ⟨r, rfl⟩

/-- R263, steps 4 and 5: once nothing here holds a translation of the range. -/
theorem exec_shootDownAcknowledge {h : Shoot} (hf : s.fab.shoots.find? (fun h => h.id == s.ev.id) = some h) (hmine : h.mine = false)
    (hfree : s.holding (some h.job) (some h.range) = false) : exec .shootDownAcknowledge s = .next
      ((({ s with fab := { s.fab with shoots := s.fab.shoots.filter fun x => x.id != h.id } }.sendControl
        (routedPacket 14 3 s.k.nodeId h.src h.job {} [])).notice
        ⟨.shootDownNotice, BitVec.ofNat 48 (bits h.range 16 32 * 65536), h.notice, false, s.queueOf h.job⟩)) := by
  have hready : s.shootReady h = true := by rw [State.shootReady, hmine, hfree]; rfl
  obtain ⟨f, hsent⟩ := sendControl_eq { s with fab := { s.fab with shoots := s.fab.shoots.filter fun x => x.id != h.id } }
    (routedPacket 14 3 s.k.nodeId h.src h.job {} [])
  show execShootDownAcknowledge s = _
  simp only [execShootDownAcknowledge, hf, hready, if_true, hsent]
  rfl

/-! ## Queues of a job -/

/-- Queues that are changed one by one. -/
theorem queue_of_map {t : State} {g : LQueue → LQueue} (h : t.sch.queues = s.sch.queues.map g) (hreset : g .reset = .reset) (q : Nat) :
    t.queue q = g (s.queue q) := by
  rw [State.queue, h, List.getElem?_map, State.queue]
  cases s.sch.queues[q]? with
  | none => exact hreset.symm
  | some l => rfl

theorem lt_length_of_job {q : Nat} (h : (s.queue q).job = some job) : q < s.sch.queues.length := by
  obtain ⟨r, hr, _⟩ := Option.map_eq_some_iff.1 h
  exact lt_length_of_recs_head? hr

/-- R385: to announce a state of a job changes the packets that wait for the links, and the map of presence. -/
theorem announce_eq (s : State) (job : BitVec 16) (p : Presence) :
    ∃ f pr, s.announce job p = { s with fab := f, sch := { s.sch with presence := pr } } := by
  have hsend (l : List Nat) (d2 : DWord) (u : State) : ∃ f, l.foldl (fun u d => u.control d job d2) u = { u with fab := f } := by
    induction l generalizing u with
    | nil => exact ⟨_, rfl⟩
    | cons d l ih =>
      obtain ⟨_, h⟩ := ih (u.control d job d2)
      exact ⟨_, h⟩
  unfold State.announce
  split
  · exact ⟨_, _, rfl⟩
  · obtain ⟨_, h⟩ := hsend _ _ _
    exact ⟨_, _, h⟩

/-! ## Fences (R407) -/

/-- What a fence makes of a queue. -/
def LQueue.fencedBy (job : BitVec 16) (l : LQueue) : LQueue :=
  if l.job == some job ∧ l.state = .held ∧ l.hold ≠ .fatal then { l with hold := .fenced, serviced := true, cause := causeWord 3 Cause.jobFenced.code }
  else if l.job == some job ∧ l.state = .running then { l with serviced := true }
  else l

theorem fencedBy_of_other {l : LQueue} (h : l.job ≠ some job) : l.fencedBy job = l := by simp [LQueue.fencedBy, h]

theorem hold_fencedBy_of_held {l : LQueue} (hj : l.job = some job) (hs : l.state = .held) (hh : l.hold ≠ .fatal) : (l.fencedBy job).hold = .fenced := by
  simp [LQueue.fencedBy, hj, hs, hh]

/-- The queue where a job runs. -/
def State.runningOf (s : State) (job : BitVec 16) : Option Nat :=
  (s.sch.queues.zipIdx.find? fun x => x.1.job == some job && x.1.state == .running).map (·.2)

theorem runningOf_of_first {q : Nat} (hj : (s.queue q).job = some job) (hs : (s.queue q).state = .running)
    (hfirst : ∀ i, i < q → (s.queue i).job = some job → (s.queue i).state ≠ .running) : s.runningOf job = some q := by
  have hqueue (i : Nat) (hi : i < s.sch.queues.length) : s.queue i = s.sch.queues[i] := by rw [State.queue, List.getElem?_eq_getElem hi]; rfl
  have hq := lt_length_of_job hj
  rw [State.runningOf, Option.map_eq_some_iff]
  refine ⟨(s.queue q, q), List.find?_eq_some_iff_getElem.2 ⟨by simp [hj, hs], q, by simpa using hq, by simp [hqueue q hq], fun i hi => ?_⟩, rfl⟩
  have hfree := hfirst i hi
  rw [hqueue i (hi.trans hq)] at hfree
  simpa [imp_iff_not_or] using hfree

theorem fenceHere_of_fenced (h : s.fencedJob job = true) : s.fenceHere job = s := by rw [State.fenceHere, if_pos h]

/-- A job that is not fenced yet is: its queues, and the supervisor's notice when it runs here. -/
theorem fenceHere_of_free (h : s.fencedJob job = false) : ∃ f pr, s.fenceHere job = { s with
    err := { s.err with fenced := s.err.fenced ++ [job] }, fab := f
    sch := { s.sch with
      queues := s.sch.queues.map (LQueue.fencedBy job), presence := pr
      notices := s.sch.notices ++ (s.runningOf job).toList.map fun q => ⟨.jobFenced, 0, 0, false, some q⟩ } } := by
  have hhere : s.fenceHere job =
      (let s1 : State := { s with err := { s.err with fenced := s.err.fenced ++ [job] }, sch := { s.sch with queues := s.sch.queues.map (LQueue.fencedBy job) } }
       let s2 := if (s.runningOf job).isSome then s1.notice ⟨.jobFenced, 0, 0, false, s.runningOf job⟩ else s1
       if s.sch.queues.any (fun l => l.job == some job && (l.state == .held || l.state == .running)) then s2.announce job .service else s2) := by
    rw [State.fenceHere, h]
    rfl
  rw [hhere]
  cases s.runningOf job with
  | none =>
    simp only [Option.isSome_none, Bool.false_eq_true, if_false, Option.toList_none, List.map_nil, List.append_nil]
    split
    · exact announce_eq _ job .service
    · exact ⟨_, _, rfl⟩
  | some q =>
    simp only [Option.isSome_some, if_true, Option.toList_some, List.map_cons, List.map_nil]
    split
    · exact announce_eq _ job .service
    · exact ⟨_, _, rfl⟩

theorem queue_fenceHere (h : s.fencedJob job = false) (q : Nat) : (s.fenceHere job).queue q = (s.queue q).fencedBy job := by
  obtain ⟨_, _, hfence⟩ := fenceHere_of_free h
  exact queue_of_map (by rw [hfence]) rfl q

/-! ## Releases (R407) -/

/-- What a release makes of a queue. -/
def LQueue.releasedBy (job : BitVec 16) (l : LQueue) : LQueue :=
  if l.job == some job && l.state == .held && (l.hold == .fenced || l.hold == .loss) then { l with hold := .released } else l

theorem releasedBy_of_held {l : LQueue} (hj : l.job = some job) (hs : l.state = .held) (hh : l.hold = .fenced ∨ l.hold = .loss) :
    l.releasedBy job = { l with hold := .released } := by
  rcases hh with hh | hh <;> simp [LQueue.releasedBy, hj, hs, hh]

/-- What asking the supervisor to look at queues again may change: what it has been entered with, or its notices. -/
def State.Asks (s t : State) : Prop := ∃ r k q e n, t = { s with regs := r, k := k, seq := q, sch := { s.sch with entered := e, notices := n } }

theorem asks_foldl {f : State → Nat → State} (hf : ∀ (u : State) (q : Nat), u.Asks (f u q)) (l : List Nat) (s : State) : s.Asks (l.foldl f s) := by
  induction l generalizing s with
  | nil => exact ⟨_, _, _, _, _, rfl⟩
  | cons q l ih =>
    obtain ⟨_, _, _, _, _, h⟩ := hf s q
    obtain ⟨_, _, _, _, _, h'⟩ := ih (f s q)
    rw [List.foldl_cons, h', h]
    exact ⟨_, _, _, _, _, rfl⟩

theorem releaseHere_of_free (h : s.fencedJob job = false) : s.releaseHere job = s := by rw [State.releaseHere, h]; rfl

/-- A job that is fenced is not any more: its queues, and the supervisor's that is asked to enter them. -/
theorem releaseHere_of_fenced (h : s.fencedJob job = true) : ∃ r k q e n p, s.releaseHere job = { s with
    err := { s.err with fenced := s.err.fenced.filter fun x => x != job }, regs := r, k := k, seq := q
    sch := { s.sch with queues := s.sch.queues.map (LQueue.releasedBy job), entered := e, notices := n, preempt := p } } := by
  rw [State.releaseHere, h, if_neg (by decide)]
  dsimp only
  generalize hall : List.foldl _ _ _ = u
  have hasks : State.Asks { s with
      err := { s.err with fenced := s.err.fenced.filter fun x => x != job }
      sch := { s.sch with
        queues := s.sch.queues.map (LQueue.releasedBy job)
        notices := s.sch.notices.filter fun n => !(n.cause == .jobFenced && n.queue.any fun q => (s.queue q).job == some job) } } u := by
    rw [← hall]
    refine asks_foldl (fun u q => ?_) _ _
    split <;> exact ⟨_, _, _, _, _, rfl⟩
  obtain ⟨_, _, _, _, _, hu⟩ := hasks
  obtain ⟨_, hswitch⟩ := requestSwitch_eq u
  rw [hswitch, hu]
  exact ⟨_, _, _, _, _, _, rfl⟩

theorem queue_releaseHere (h : s.fencedJob job = true) (q : Nat) : (s.releaseHere job).queue q = (s.queue q).releasedBy job := by
  obtain ⟨_, _, _, _, _, _, hrelease⟩ := releaseHere_of_fenced h
  exact queue_of_map (by rw [hrelease]) rfl q

end
end Sys2Proof.Machine

namespace Sys2Proof.Proofs
open Sys2Proof Sys2Proof.Machine

/-- Settles O48: what each notice does here, with what of the state it leaves alone, and then the notice goes on. -/
theorem noticesBetweenNodes : Obligations.NoticesBetweenNodes := by
  refine ⟨fun s => ?_, fun s => ?_⟩
  · intro p
    refine ⟨⟨s.shotDown p, rfl, ?_⟩, fun h hf hmine hfree => exec_shootDownAcknowledge hf hmine hfree, rfl⟩
    obtain ⟨r, hdown⟩ := shotDown_eq s p
    rw [hdown]
    refine ⟨rfl, rfl, rfl, rfl, rfl, rfl, rfl, rfl, fun hnone => ?_, fun a e lvl page hone hwf ha => ?_⟩
    · show ((s.linesDropped p.job (p.dw 4)).clearLeaves p.job (p.dw 4)).hbm = s.hbm
      rw [clearLeaves_of_none ((rangeLeaves_linesDropped _).trans hnone)]; rfl
    · show Memory.dword ((s.linesDropped p.job (p.dw 4)).clearLeaves p.job (p.dw 4)).hbm a = _
      rw [clearLeaves_of_one ((rangeLeaves_linesDropped _).trans hone)]
      exact dword_writeHbm _ hwf ha
  · intro p
    have hforward {t u : State} (h : t = u) : Host.Outcome.next (t.forwardNotice p) = (.next (u.forwardNotice p) : Host.Outcome State Fault Refusal) := by rw [h]
    refine ⟨fun hf => hforward (fenceHere_of_fenced hf), fun hf => ⟨s.fenceHere p.job, rfl, ?_⟩, fun hf => hforward (releaseHere_of_free hf),
      fun _ => ⟨_, rfl, rfl⟩, rfl, fun j t ht hf => ?_, fun hd => congrArg Host.Outcome.next (if_pos hd), fun hd => congrArg Host.Outcome.next (if_neg hd)⟩
    · have hqueue := queue_fenceHere hf
      obtain ⟨f, pr, hfence⟩ := fenceHere_of_free hf
      refine ⟨by rw [hfence], by rw [hfence], by rw [hfence], by rw [hfence], by rw [hfence], fun q hj hs hh => ?_, fun q hj => ?_, fun q hj hs hfirst => ?_⟩
      · rw [hqueue, hold_fencedBy_of_held hj hs hh]
      · rw [hqueue, fencedBy_of_other hj]
      · rw [hfence, runningOf_of_first hj hs hfirst]; rfl
    · obtain ⟨_, _, _, _, _, _, hrelease⟩ := releaseHere_of_fenced hf
      subst ht
      refine ⟨by rw [hrelease], by rw [hrelease], by rw [hrelease], fun q hj hs hh => ?_⟩
      rw [queue_releaseHere hf, releasedBy_of_held hj hs hh]
      exact ⟨rfl, hs⟩

end Sys2Proof.Proofs
end
